-- ==== Sys2Proof/Word.lean ====
section
/-!
DEFINITION. Sys2Proof/Word.lean: the words of the model (bytes, register words, data lines, stored lines, keys), the
sparse map, and the names that both the commands and the state use (dies, requester ports, parts).
-/

namespace Sys2Proof

/-- One byte. -/
abbrev Byte := BitVec 8
/-- One register word. -/
abbrev Word := BitVec 32
/-- A 64-B line; byte b is bits [8b+7:8b]. -/
abbrev Line := BitVec 512
/-- A line as DRAM stores it: eight words of eleven symbols, symbol i of word k in bits [88k+8i+7:88k+8i] (R90, R91). -/
abbrev Stored := BitVec 704
/-- An XTS key pair, or any other key of at most 512 bits. -/
abbrev Key := BitVec 512

/-- A sparse map from numbers: pairs in strictly rising key order. -/
abbrev NMap (α : Type) := List (Nat × α)

/-- The two dies (Table 0.5); host port n and fabric port n are those of die n. -/
inductive Die where
  | east | west
  deriving DecidableEq, Repr

/-- The requester port tags of R22. -/
inductive Port where
  | hp0 | hp1 | fp0 | fp1 | lke | que | tme | sru | cpr
  deriving DecidableEq, Repr

/-- The four parts (Table 0.1). -/
inductive Part where
  | km1624 | km1622 | km1612 | km1602
  deriving DecidableEq, Repr

/-- A 64-B line with its poison mark, as a requester sees it. -/
structure LineData where
  line : Line
  poison : Bool
  deriving DecidableEq, Repr

end Sys2Proof
end

