-- ==== Sys2Proof/Syntax.lean ====
section
/-!
DEFINITION. Sys2Proof/Syntax.lean: the commands of the block, one constructor for each row of the opcode table, with
the operands that the row's step takes from outside the block.
Operands that the spec leaves to the surroundings (what the DRAM, a host, a peer, the board or the analogue circuits
return in that step) are operands too; log entry 1.
An operand of type Unit carries nothing: the state says what it once said (the nodes of a tree walk, METHOD, a second read, the PEND tag), and
its place is kept so that the form of the command's arm stands.
-/

namespace Sys2Proof

/-- A fault that a DRAM read returns: the bits of the stored line that arrive inverted. -/
abbrev Flips := BitVec 704

/-- What the steps of a training sequence measured on one device of a rank (Table 2.4): where the CK edge was found, in 1/64 tCK from
nominal (step 4), the lesser margin of the read gate in 1/64 tCK (step 5), the least read and write window of its bits in 1/64 UI (steps 6 and
7), the width and height of the DQ eye at the chosen point in 1/64 UI and mV (step 9), and the read and write windows again (step 10); none
where nothing was found. -/
structure DevTrain where
  edge : Option Int
  gate : Option Nat
  read : Nat
  write : Nat
  eyeW : Nat
  eyeH : Nat
  reRead : Nat
  reWrite : Nat
  deriving DecidableEq, Repr

/-- What a training sequence of a rank measured (Table 2.4): the calibration codes, the common CA window and the CS window in 1/64 tCK, the CA
eye at the chosen VrefCA in 1/64 tCK and mV, what was found on each of the eleven devices, whether the DRAM's mode registers report directed
refresh management (R82), its temperature, and the bytes of the record from offset 0x010 on (delays and voltages, Table 2.6). -/
structure TrainResult where
  zqPu : Nat
  zqPd : Nat
  ca : Nat
  cs : Nat
  caW : Nat
  caH : Nat
  devs : List DevTrain
  drfm : Bool
  temp : Int
  body : List Byte
  deriving DecidableEq, Repr

/-- An IFT frame after MACsec (Table 11.2): `mask` is present when FLAGS.PMASK = 1, and `rsv` says that a reserved bit is set beside those of DST and
SRC. -/
structure Frame where
  ver : Nat
  op : Nat
  session : Nat
  more : Bool
  mask : Option (BitVec 64)
  retx : Bool
  status : Nat
  dst : Nat
  src : Nat
  seq : Nat
  ack : Nat
  len : Nat
  sack : BitVec 64
  tag : Nat
  arg : Nat
  payload : List Byte
  rsv : Bool
  deriving DecidableEq, Repr

/-- A host's answer to a back-invalidate snoop (Table 9.4). -/
inductive SnoopAns where
  | i | s | e
  deriving DecidableEq, Repr

/-- MetaValue of a CXL.mem request (Table 9.2). -/
inductive MetaValue where
  | i | a | s
  deriving DecidableEq, Repr

/-- SnpType of a CXL.mem request: No-Op, SnpData, SnpInv, or SnpCur, which Table 9.2 does not list. -/
inductive SnpType where
  | noOp | data | inv | cur
  deriving DecidableEq, Repr

/-- What an external programmer has put into the flash while the device left it alone (R454): both image copies and their repair areas,
whether each firmware slot holds a signed image, and which is marked active. -/
structure FlashProg where
  imgA : List Byte
  imgB : List Byte
  repA : List Byte
  repB : List Byte
  fw0 : Bool
  fw1 : Bool
  fwActive : Nat
  deriving DecidableEq, Repr

/-- What a sideband transfer ends with these bytes: nothing yet, or a firmware image for a slot (R377, Table 21.5). -/
inductive XferEnd where
  | more
  | firmware (slot : Nat) (signed : Bool)
  deriving DecidableEq, Repr

/-- The commands (spec/opcode_table.json). -/
inductive Instr where
  /-- HOST_MEM_READ (R23): A host CXL.mem read is decoded by HDM and the RRM and carried out by the engines of its home die. -/
  | hostMemRead (port : Die) (tag : Nat) (hpa : Nat) (metaV : MetaValue) (snp : SnpType) (ideBad : Bool)
  /-- HOST_MEM_WRITE (R26): A host CXL.mem write is decoded, encrypted and encoded, and completed once accepted into the write queue of every target die. -/
  | hostMemWrite (port : Die) (tag : Nat) (hpa : Nat) (data : Line) (poison : Bool) (mask : BitVec 64) (metaV : MetaValue) (ideBad : Bool) (nodes : Unit := ())
  /-- HOST_MEM_INV (R221): A host MemInv or MemInvNT takes ownership of a line through the directory and completes with Cmp-E and no data. -/
  | hostMemInv (port : Die) (tag : Nat) (hpa : Nat) (ideBad : Bool)
  /-- MSC_ACCEPT (R61): A request waiting in the MX-in crossing enters its subchannel's read or write queue when the queue has room. -/
  | mscAccept (d : Die) (chan : Nat)
  /-- COMMAND_ISSUE (R62): The scheduler picks an issuable request for a subchannel and issues its next DDR5 command. -/
  | commandIssue (d : Die) (sub : Nat) (ready : List Nat) (parityBad : Bool)
  /-- AGE_CAP_REACHED (R63): A queued request reaches AGE_CAP controller cycles and from then on blocks younger requests in its bank. -/
  | ageCapReached (d : Die) (sub : Nat) (seq : Nat)
  /-- NEIGHBOUR_REFRESH (R80): The scheduler carries out a queued mitigation on a bank before its next ACT, by targeted ACT/PRE or directed refresh management. -/
  | neighbourRefresh (d : Die) (sub : Nat) (rank : Nat) (bank : Nat) (method : Unit := ())
  /-- REF_TICK (R69): A rank's refresh interval timer ticks and adds one to its owed count, forcing a REF when the count is already 8. -/
  | refTick (d : Die) (sub : Nat) (rank : Nat)
  /-- REF_ISSUE (R70): The scheduler issues an owed REF to a rank that has no request waiting in the subchannel's queues. -/
  | refIssue (d : Die) (sub : Nat) (rank : Nat)
  /-- MR4_POLL (R71): The scheduler reads mode register 4 of every device of a rank and classes the rank hot or cool. -/
  | mr4Poll (d : Die) (sub : Nat) (rank : Nat) (temp : Int)
  /-- ECHO_CLEAR (R79): Every 16,384 ticks of a rank's interval timer the scheduler clears all echo tables of the rank. -/
  | echoClear (d : Die) (sub : Nat) (rank : Nat)
  /-- READ_DATA_RETURN (R98): A line read from DRAM returns through MX-out, and the CWU decodes it and gives it a line outcome. -/
  | readDataReturn (d : Die) (sub : Nat) (seq : Nat) (flips : Flips) (rowFree : Bool) (again : Unit := ()) (nodes : Unit := ())
  /-- ALERT_N (R45): An ALERT_N assertion stops new writes and reissues every write whose replay window was open. -/
  | alertN (d : Die) (sub : Nat)
  /-- REPLAY_WINDOW_CLOSE (R43): A write's replay window of WINDOW controller cycles passes with no ALERT_N, and the write leaves the replay buffer. -/
  | replayWindowClose (d : Die) (sub : Nat) (seq : Nat)
  /-- TRAINING_RANK_DONE (R49): A rank's training sequence ends and the CFE judges the outcome by Table 2.5. -/
  | trainingRankDone (d : Die) (sub : Nat) (rank : Nat) (point : Nat) (res : TrainResult)
  /-- DRIFT_MEASURE (R54): Every PERIOD ms the CFE runs the DQS oscillators of a rank and corrects or retrains by Table 2.8. -/
  | driftMeasure (d : Die) (sub : Nat) (rank : Nat) (dev : Nat) (drift : Nat)
  /-- RETRAIN_REQUEST (R54): Software sets REQ_A or REQ_B of CFE_TRAIN_CTRL to request a quick or full retrain, which is dropped with REFUSED if one is running. -/
  | retrainRequest (d : Die) (chan : Nat) (value : Word)
  /-- RETRAIN_DONE (R54): A run-time retrain of a rank completes, its training row is restored and the rank serves again. -/
  | retrainDone (d : Die) (sub : Nat) (rank : Nat) (edge : Bool) (res : TrainResult)
  /-- TREC_DATA_READ (R53): A read of CFE_TREC_DATA returns the selected training record word and advances WORD. -/
  | trecDataRead (d : Die) (chan : Nat)
  /-- CWU_ERASE_WRITE (R101): Software writes CWU_ERASE to set an erasure mark, which is refused if the rank already carries one. -/
  | cwuEraseWrite (d : Die) (chan : Nat) (value : Word)
  /-- CWU_INJ_ARM (R102): Software arms a one-shot flip-mask or fold-skew injection for the next matching encoded line. -/
  | cwuInjArm (d : Die) (chan : Nat) (value : Word)
  /-- CWU_INJ_DISARM (R104): Software disarms an armed CWU injection. -/
  | cwuInjDisarm (d : Die) (chan : Nat)
  /-- DEVCNT_CLEAR (R123): Software sets CWU_DEVCNT_SEL.CLEAR to zero the selected device's corrected-symbol count. -/
  | devcntClear (d : Die) (chan : Nat) (value : Word)
  /-- SCRUB_STEP (R106): Lantern's step timer falls due and it issues the next scrub read or adds to its owed count. -/
  | scrubStep (d : Die) (sub : Nat)
  /-- REMAP_APPLIED (R117): The copy of a line to a remap spare line has entered the write queue, the entry becomes valid and held requests proceed. -/
  | remapApplied (d : Die) (sub : Nat) (entry : Nat) (row : Unit := ())
  /-- SPARE_ROW_APPLIED (R119): A run-time soft post-package repair of a row completes, its lines are written back and the bank is released. -/
  | spareRowApplied (d : Die) (sub : Nat) (rank : Nat) (bank : Nat) (rowFree : Bool) (flips : List (Nat × Flips) := [])
  /-- ERASE_WINDOW (R123): An erasure window of WINDOW_S seconds ends and the SRU marks any device whose count rose by THRESH. -/
  | eraseWindow (d : Die)
  /-- SRU_EVAC_START (R125): Software writes START_A or START_B of SRU_EVAC_CTRL to request an evacuation. -/
  | sruEvacStart (d : Die) (chan : Nat) (value : Word)
  /-- EVAC_COPY (R126): The SRU copies the next block of the failing subchannel to the spare at RATE. -/
  | evacCopy (d : Die)
  /-- EVAC_DONE (R127): The copy completes, the spare takes the live-list position, the failing subchannel is RETIRED and 0x0C09 is posted. -/
  | evacDone (d : Die)
  /-- MIRROR_REBUILT (R129): The lines of mirrored regions are all copied from the other die, and 0x0C0B is posted. -/
  | mirrorRebuilt (d : Die) (region : Nat) (flips : List (Nat × Flips) := [])
  /-- DIE_REMAPPED (R130): Salvage ends, the die switches to L = 11, re-carves its areas and posts 0x0C0A. -/
  | dieRemapped (d : Die) (rowFree : Bool := false)
  /-- SALVAGE_RELEASE (R130): Software writes SRU_RETIRE_CTRL.RELEASE to clear SALVAGE_HOLD. -/
  | salvageRelease (d : Die)
  /-- RGN_WRITE (R136): A write to a region descriptor register is applied, or refused with REASON 10 where it would change a locked field. -/
  | rgnWrite (region : Nat) (off : Nat) (value : Word) (sess : Option Nat)
  /-- REGION_ENABLE (R137): Software writes RGN_CTRL.ENABLE = 1, the descriptor is checked by Table 6.1 and the enabling fill starts. -/
  | regionEnable (region : Nat) (sess : Option Nat)
  /-- REGION_FILL_DONE (R138): The blank fill of an enabling region completes, BUSY clears and the RRM begins to decode the region. -/
  | regionFillDone (region : Nat)
  /-- REGION_DISABLE (R139): Software writes ENABLE = 0, the region stops decoding and its recall and moves are aborted. -/
  | regionDisable (region : Nat) (sess : Option Nat)
  /-- REGION_DISABLE_DONE (R139): Every request bound to a disabled descriptor has completed and BUSY clears. -/
  | regionDisableDone (region : Nat)
  /-- HEAT_EPOCH (R147): The heat epoch advances every EPOCH_MS milliseconds. -/
  | heatEpoch (d : Die)
  /-- SWEEP_VISIT (R148): The TME sweep visits a map entry and demotes, promotes or clears its heat by its effective heat. -/
  | sweepVisit (d : Die) (region : Nat) (dla : Nat)
  /-- MOVE_COMMIT (R152): Every destination write has been accepted and the entry is updated atomically with a new placement and epoch. -/
  | moveCommit (d : Die) (slot : Nat)
  /-- MOVE_DRAIN_DONE (R154): A move slot's drain count reaches zero, the old placement is freed and the slot released. -/
  | moveDrainDone (d : Die) (slot : Nat)
  /-- PROMOTE_WAIT_EXPIRE (R145): A promotion waits WAIT_US with no free frame, its write is discarded and 0x0602 is posted. -/
  | promoteWaitExpire (d : Die) (region : Nat) (dla : Nat)
  /-- REHOME_DONE (R155): After the switch to L = 11 the TME rebuilds the page-map area from the staged copy and posts 0x0605. -/
  | rehomeDone (d : Die)
  /-- INIT_FILL_BLOCK (R156): The fill's blank writes of block W − 1 have entered the write queue and W is lowered by one. -/
  | initFillBlock (d : Die) (sub : Nat)
  /-- DEMAND_WRITE_RELEASE (R159): A write held for an uninitialised block proceeds once the fill has written the block blank. -/
  | demandWriteRelease (d : Die) (sub : Nat)
  /-- MIGRATE (R162): Descriptor 0x50 moves a range of tiered pages to a target tier. -/
  | migrate (d : Die) (sq : Nat) (seq : Nat)
  /-- QUERY_PAGE (R162): Descriptor 0x51 returns a page's tier, state, heat and epoch. -/
  | queryPage (d : Die) (sq : Nat) (seq : Nat)
  /-- PIN (R162): Descriptor 0x52 pins and promotes, or unpins, a range of tiered pages. -/
  | pin (d : Die) (sq : Nat) (seq : Nat)
  /-- KEY_GENERATE (R183): Opcode 0x60 generates keys for an EMPTY slot and makes it ACTIVE with its binding. -/
  | keyGenerate (d : Die) (sq : Nat) (seq : Nat)
  /-- KEY_ROTATE (R201): Opcode 0x61 generates new keys for an ACTIVE slot, raises its epoch and starts the rotation walk. -/
  | keyRotate (d : Die) (sq : Nat) (seq : Nat)
  /-- KEY_DESTROY (R183): Opcode 0x62 zeroises the keys of an unused ACTIVE slot and empties it. -/
  | keyDestroy (d : Die) (sq : Nat) (seq : Nat)
  /-- KEY_BIND (R185): Opcode 0x63 changes the port, fabric and domain binding of a slot. -/
  | keyBind (d : Die) (sq : Nat) (seq : Nat)
  /-- KEY_QUERY (R183): Opcode 0x64 reports a slot's state, binding, domain and rotation cursor. -/
  | keyQuery (d : Die) (sq : Nat) (seq : Nat)
  /-- SANITIZE (R211): Opcode 0x65 moves the device to SANITIZE, destroys every key and region and optionally overwrites DRAM. -/
  | sanitize (d : Die) (sq : Nat) (seq : Nat)
  /-- SANITIZE_DONE (R213): The SANITIZE overwrite fill finishes, the descriptor completes and 0x0807 is posted. -/
  | sanitizeDone
  /-- ROTATION_BLOCK (R202): A rotation re-encrypts one 256-B block under the new keys and moves its cursor past it. -/
  | rotationBlock (slot : Nat)
  /-- DRBG_RESEED (R181): After 2^20 generate requests a die's DRBG is reseeded from its entropy source. -/
  | drbgReseed (d : Die)
  /-- ENTROPY_FAIL (R181): A continuous health test of a die's entropy source fails, its DRBG stops and 0x0806 is posted. -/
  | entropyFail (d : Die) (test : Nat)
  /-- LOCKDOWN (R208): Software sets SEC_POLICY.LOCKDOWN, restricting key opcodes and RGN and SEC writes to owner SPDM sessions. -/
  | lockdown (sess : Option Nat)
  /-- IDE_KM_KEY_PROG (R204): An IDE_KM message inside an SPDM session programs a host port's IDE stream keys. -/
  | ideKmKeyProg (port : Die) (session : Nat) (key : Key) (offers : Bool)
  /-- MKA_FRAME (R265): An EAPOL frame received on a fabric port goes to the senior management core for MKA. -/
  | mkaFrame (d : Die) (node : Nat) (joined : Bool)
  /-- SAK_REKEY (R205): A SAK is replaced before its packet number reaches 2^62. -/
  | sakRekey (d : Die)
  /-- SPDM_GET_VERSION (R207): The senior die's SPDM responder answers GET_VERSION. -/
  | spdmGetVersion (port : Die)
  /-- SPDM_GET_CAPABILITIES (R207): The SPDM responder answers GET_CAPABILITIES. -/
  | spdmGetCapabilities (port : Die) (limit : Nat)
  /-- SPDM_NEGOTIATE_ALGORITHMS (R207): The SPDM responder answers NEGOTIATE_ALGORITHMS. -/
  | spdmNegotiateAlgorithms (port : Die) (asym : Nat) (hash : Nat) (dhe : Nat) (aead : Nat)
  /-- SPDM_GET_DIGESTS (R207): The SPDM responder returns the digests of its certificate slots. -/
  | spdmGetDigests (port : Die)
  /-- SPDM_GET_CERTIFICATE (R207): The SPDM responder returns a certificate chain from a slot of Table 8.6. -/
  | spdmGetCertificate (port : Die) (slot : Nat) (offset : Nat) (len : Nat)
  /-- SPDM_CHALLENGE (R207): The SPDM responder signs a challenge with the alias key. -/
  | spdmChallenge (port : Die) (slot : Nat) (nonce : Nat)
  /-- SPDM_GET_MEASUREMENTS (R207): The SPDM responder returns the measurements of Table 8.6. -/
  | spdmGetMeasurements (port : Die) (index : Nat) (signed : Bool)
  /-- SPDM_KEY_EXCHANGE (R207): The SPDM responder begins a secure session with mutual authentication. -/
  | spdmKeyExchange (port : Die) (session : Nat) (slot : Nat)
  /-- SPDM_FINISH (R207): The SPDM responder completes the establishment of a secure session. -/
  | spdmFinish (port : Die) (session : Nat) (valid : Bool) (root : Option Nat)
  /-- SPDM_HEARTBEAT (R207): The SPDM responder answers a session HEARTBEAT. -/
  | spdmHeartbeat (port : Die) (session : Nat)
  /-- SPDM_KEY_UPDATE (R207): The SPDM responder updates the session keys. -/
  | spdmKeyUpdate (port : Die) (session : Nat) (op : Nat) (tag : Nat)
  /-- SPDM_END_SESSION (R207): The SPDM responder ends a secure session. -/
  | spdmEndSession (port : Die) (session : Nat)
  /-- SPDM_GET_CSR (R207): The SPDM responder returns a certificate signing request. -/
  | spdmGetCsr (port : Die)
  /-- SPDM_SET_CERTIFICATE (R207): The SPDM responder stores an owner chain in certificate slot 2–7 inside a session. -/
  | spdmSetCertificate (port : Die) (session : Nat) (slot : Nat) (chain : List Byte)
  /-- SPDM_CHUNK_SEND (R207): The SPDM responder takes one chunk of a large request. -/
  | spdmChunkSend (port : Die) (handle : Nat) (seq : Nat) (last : Bool) (bytes : List Byte)
  /-- SPDM_CHUNK_GET (R207): The SPDM responder returns one chunk of a large response. -/
  | spdmChunkGet (port : Die) (handle : Nat) (seq : Nat)
  /-- VENDOR_DEFINED_REQUEST (R208): A vendor-defined SPDM request in a secure session carries a 64-B key or setup descriptor and returns its completion. -/
  | vendorDefinedRequest (port : Die) (session : Nat) (desc : Line)
  /-- CAK_INSTALL (R206): A vendor-defined SPDM request in a secure session installs the CAK and seals it in flash. -/
  | cakInstall (port : Die) (session : Nat) (cak : Key)
  /-- DEBUG_TOKEN (R210): A Skovhan-signed debug token by vendor-defined request sanitizes the device and opens scan and debug access. -/
  | debugToken (port : Die) (session : Nat) (signed : Bool)
  /-- SNOOP_ANSWER (R222): A host's BIRsp answer to a back-invalidate snoop is applied to the directory entry by Table 9.4 and Table 9.5. -/
  | snoopAnswer (port : Die) (agent : Nat) (hpa : Nat) (ans : SnoopAns) (pend : Unit := ())
  /-- AWAIT_WB_TIMEOUT (R229): An entry waits AWAIT_US in AWAIT_WB without the write-back, the line is written as poison and 0x0501 is posted. -/
  | awaitWbTimeout (d : Die) (dla : Nat)
  /-- SNOOP_TIMEOUT (R231): A snoop stays unanswered for SNP_TO × 8 µs and the sharer is dropped or the owned line poisoned. -/
  | snoopTimeout (d : Die) (dla : Nat) (agent : Nat)
  /-- BICONFLICT (R230): A host answers a snoop with BIConflict and the HPC sends BIConflictAck after the completions already owed. -/
  | biconflict (port : Die) (hpa : Nat)
  /-- CDR_RETRY (R237): A request refused with retry is presented again to the CDR after RETRY_CC cc. -/
  | cdrRetry (d : Die) (port : Port) (set : Nat)
  /-- AGENTS_DROPPED (R232): The CDR's walk for a downed host port's agents ends, sharer bits cleared and owned lines poisoned, and 0x0504 is posted. -/
  | agentsDropped (d : Die) (port : Die)
  /-- AGENT_MAP_WRITE (R219): A write to CDR_AGENT_MAP sets decoder agents, or is ignored when it reuses the other port's agent, posting 0x0506. -/
  | agentMapWrite (d : Die) (value : Word)
  /-- CDR_PROBE (R217): Software sets CDR_PROBE_HI.GO and the directory state of a line is returned in CDR_PROBE_RESULT. -/
  | cdrProbe (d : Die) (value : Word)
  /-- FLIT_RETRY (R256): A received flit fails its CRC or FEC, or the partner asks for replay, and the link layer replays from its buffer. -/
  | flitRetry (port : Die) (same : Bool) (hit : Bool) (x8 : Bool)
  /-- RETRAIN_ABANDON (R256): A retrain not complete at 24 ms is abandoned and the port falls back. -/
  | retrainAbandon (port : Die)
  /-- FALLBACK_ABANDON (R256): A fallback that has not reached L0 at 30 ms is abandoned and the port goes down. -/
  | fallbackAbandon (port : Die)
  /-- PORT_UP (R259): A host link reaches L0 with its flit mode and coherence model settled, and 0x0105 is posted. -/
  | portUp (port : Die) (cxl3 : Bool) (rate : Nat) (ext : Bool) (lo : Bool) (x8 : Bool)
  /-- REUP_TIMER (R259): Every REUP_S seconds a down port with EN = 1 trains from Detect. -/
  | reupTimer (port : Die)
  /-- LINK_CTRL_RETRAIN (R256): Software sets HPC_LINK_CTRL.RETRAIN to enter the retrain rung. -/
  | linkCtrlRetrain (port : Die) (x8 : Bool)
  /-- LINK_CTRL_DOWN (R256): Software sets HPC_LINK_CTRL.DOWN to take the port down. -/
  | linkCtrlDown (port : Die)
  /-- LINK_CTRL_REUP (R259): Software sets HPC_LINK_CTRL.REUP to train a down port from Detect. -/
  | linkCtrlReup (port : Die)
  /-- LINK_CFG_EN (R259): A write of HPC_LINK_CFG.EN enables a port, starting training at once, or holds it down. -/
  | linkCfgEn (port : Die) (value : Word)
  /-- VIRAL_RX (R253): A viral indication received from a host sets VIRAL_RX and posts 0x0108. -/
  | viralRx (port : Die)
  /-- HPC_INJ_ARM (R260): Software arms a one-shot or rate flit injection. -/
  | hpcInjArm (port : Die) (value : Word)
  /-- HPC_INJ_DISARM (R260): Software disarms a flit injection. -/
  | hpcInjDisarm (port : Die)
  /-- CDAT_TABLE_ACCESS (R255): A DOE table access request returns CDAT entries for the regions the port binds. -/
  | cdatTableAccess (port : Die) (handle : Nat)
  /-- IDENTIFY (R250): Mailbox command 0x0001 returns the component identity. -/
  | identify (port : Die)
  /-- GET_EVENT_RECORDS (R254): Mailbox command 0x0100 returns records of one CXL event log. -/
  | getEventRecords (port : Die) (log : Nat)
  /-- CLEAR_EVENT_RECORDS (R254): Mailbox command 0x0101 clears records of one CXL event log. -/
  | clearEventRecords (port : Die) (log : Nat) (all : Bool) (handles : List Nat)
  /-- GET_EVENT_INTERRUPT_POLICY (R254): Mailbox command 0x0102 returns the event interrupt policy. -/
  | getEventInterruptPolicy (port : Die)
  /-- SET_EVENT_INTERRUPT_POLICY (R254): Mailbox command 0x0103 sets the event interrupt policy and vectors. -/
  | setEventInterruptPolicy (port : Die) (policy : List Nat)
  /-- GET_FW_INFO (R250): Mailbox command 0x0200 reports the two firmware slots. -/
  | getFwInfo (port : Die)
  /-- TRANSFER_FW (R250): Mailbox command 0x0201 starts writing the inactive firmware slot as a background command. -/
  | transferFw (port : Die) (slot : Nat)
  /-- TRANSFER_FW_DONE (R250): A background firmware transfer finishes writing the inactive slot. -/
  | transferFwDone (signed : Bool)
  /-- ACTIVATE_FW (R250): Mailbox command 0x0202 selects firmware for the next cold reset. -/
  | activateFw (port : Die) (slot : Nat) (online : Bool)
  /-- GET_TIMESTAMP (R250): Mailbox command 0x0300 returns the CXL timestamp. -/
  | getTimestamp (port : Die)
  /-- SET_TIMESTAMP (R250): Mailbox command 0x0301 sets the time base of CXL records. -/
  | setTimestamp (port : Die) (ns : Nat)
  /-- GET_SUPPORTED_LOGS (R250): Mailbox command 0x0400 lists the command effects and freeze-record logs. -/
  | getSupportedLogs (port : Die)
  /-- GET_LOG (R250): Mailbox command 0x0401 returns a log, including freeze records. -/
  | getLog (port : Die) (log : Nat) (offset : Nat) (len : Nat)
  /-- IDENTIFY_MEMORY_DEVICE (R250): Mailbox command 0x4000 reports 8 TiB volatile capacity and poison limits. -/
  | identifyMemoryDevice (port : Die)
  /-- GET_HEALTH_INFO (R250): Mailbox command 0x4200 returns health, temperature and corrected-error counts. -/
  | getHealthInfo (port : Die)
  /-- GET_ALERT_CONFIGURATION (R250): Mailbox command 0x4201 returns the alert configuration. -/
  | getAlertConfiguration (port : Die)
  /-- SET_ALERT_CONFIGURATION (R250): Mailbox command 0x4202 sets temperature and corrected-error alerts. -/
  | setAlertConfiguration (port : Die) (config : List Byte)
  /-- GET_POISON_LIST (R250): Mailbox command 0x4300 lists lines known poisoned in regions bound to the port. -/
  | getPoisonList (port : Die) (dla : Nat) (len : Nat)
  /-- INJECT_POISON (R251): Mailbox command 0x4301 writes a writable DLA line as poison. -/
  | injectPoison (port : Die) (dla : Nat)
  /-- CLEAR_POISON (R251): Mailbox command 0x4302 writes supplied data over a writable DLA line. -/
  | clearPoison (port : Die) (dla : Nat) (data : Line)
  /-- MAILBOX_UNSUPPORTED (R250): Any other mailbox command returns Unsupported. -/
  | mailboxUnsupported (port : Die) (opcode : Nat)
  /-- READ_REQ (R275): A READ_REQ frame is served on the home die and answered with data in response frames. -/
  | readReq (d : Die) (f : Frame) (sciOk : Bool) (macBad : Bool)
  /-- READ_RESP (R277): A READ_RESP frame delivers data to the request that issued it. -/
  | readResp (d : Die) (f : Frame) (sciOk : Bool) (macBad : Bool)
  /-- WRITE_REQ (R275): A WRITE_REQ frame's lines are written and one response is sent after the last enters a write queue. -/
  | writeReq (d : Die) (f : Frame) (sciOk : Bool) (macBad : Bool)
  /-- WRITE_RESP (R277): A WRITE_RESP frame completes a remote write request. -/
  | writeResp (d : Die) (f : Frame) (sciOk : Bool) (macBad : Bool)
  /-- ENQ_REQ (R343): A remote enqueue is gathered, checked and placed into a local queue, and ENQ_RESP is sent. -/
  | enqReq (d : Die) (f : Frame) (sciOk : Bool) (macBad : Bool)
  /-- ENQ_RESP (R342): An ENQ_RESP frame completes a REMOTE_ENQUEUE and may free its local cells. -/
  | enqResp (d : Die) (f : Frame) (sciOk : Bool) (macBad : Bool)
  /-- T2_PUT (R275): A T2_PUT frame writes a tier-2 page at the peer like a WRITE_REQ. -/
  | t2Put (d : Die) (f : Frame) (sciOk : Bool) (macBad : Bool)
  /-- T2_PUT_RESP (R275): A T2_PUT_RESP frame acknowledges a tier-2 transfer to the requesting TME. -/
  | t2PutResp (d : Die) (f : Frame) (sciOk : Bool) (macBad : Bool)
  /-- T2_GET (R275): A T2_GET frame reads a tier-2 page at the peer like a READ_REQ. -/
  | t2Get (d : Die) (f : Frame) (sciOk : Bool) (macBad : Bool)
  /-- T2_GET_RESP (R153): A T2_GET_RESP frame delivers page data to its read or move, and late data installs nothing. -/
  | t2GetResp (d : Die) (f : Frame) (sciOk : Bool) (macBad : Bool)
  /-- ACK (R272): An ACK frame acknowledges sequenced frames by ACK and SACK. -/
  | ack (d : Die) (f : Frame) (sciOk : Bool) (macBad : Bool)
  /-- HELLO (R273): A HELLO ends any present session, adopts the new session and is answered with HELLO_ACK. -/
  | hello (d : Die) (f : Frame) (sciOk : Bool) (macBad : Bool)
  /-- HELLO_ACK (R273): A HELLO_ACK brings the context UP, and 0x0203 is posted. -/
  | helloAck (d : Die) (f : Frame) (sciOk : Bool) (macBad : Bool)
  /-- HEARTBEAT (R274): An IFT HEARTBEAT from a peer counts as a sign of life. -/
  | heartbeat (d : Die) (f : Frame) (sciOk : Bool) (macBad : Bool)
  /-- RETRANSMIT_TIMEOUT (R272): A context's retransmit timer reaches RTO_US and unacknowledged frames are sent again. -/
  | retransmitTimeout (d : Die) (node : Nat)
  /-- ACK_DELAY_EXPIRE (R272): ACK_DELAY_US passes after an unreported arrival and an ACK frame is sent. -/
  | ackDelayExpire (d : Die) (node : Nat)
  /-- HELLO_TIMER (R273): A CONNECTING context sends a new HELLO every 100 µs. -/
  | helloTimer (d : Die) (node : Nat)
  /-- HEARTBEAT_SEND (R274): An UP context that has sent nothing for HB_MS sends a HEARTBEAT. -/
  | heartbeatSend (d : Die) (node : Nat)
  /-- PEER_SILENCE (R278): No frame arrives from a peer for HB_MISS × HB_MS and the context becomes UNREACHABLE. -/
  | peerSilence (d : Die) (node : Nat)
  /-- PROBE_TIMER (R280): An UNREACHABLE context sends a HELLO every PROBE × 25 ms. -/
  | probeTimer (d : Die) (node : Nat)
  /-- ETH_LINK_DOWN (R278): A fabric port's Ethernet link goes down, every context of the port becomes UNREACHABLE and 0x0201 is posted. -/
  | ethLinkDown (d : Die)
  /-- ETH_LINK_UP (R278): A fabric port's Ethernet link comes up, and 0x0202 is posted. -/
  | ethLinkUp (d : Die)
  /-- MACSEC_SC_LOST (R278): A port's MACsec secure channel with a peer is lost and its context becomes UNREACHABLE. -/
  | macsecScLost (d : Die) (node : Nat)
  /-- REMOTE_READ (R277): Opcode 0x90 reads a range of a peer's memory into a host buffer or local DLA. -/
  | remoteRead (d : Die) (sq : Nat) (seq : Nat)
  /-- REMOTE_WRITE (R277): Opcode 0x91 writes a local range to a peer's memory. -/
  | remoteWrite (d : Die) (sq : Nat) (seq : Nat) (host : List LineData)
  /-- PEER_QUERY (R276): Opcode 0x92 reports a peer context's state, session and requests in flight. -/
  | peerQuery (d : Die) (sq : Nat) (seq : Nat)
  /-- PEER_RESET (R280): Opcode 0x93 ends a context's session, aborts requests in flight and reconnects. -/
  | peerReset (d : Die) (sq : Nat) (seq : Nat)
  /-- PEER_CTRL_RESET (R280): Software sets FPC_PEER_CTRL.RESET, acting as PEER_RESET. -/
  | peerCtrlReset (d : Die) (value : Word)
  /-- PEER_ENABLE (R273): Software sets FPC_PEER_CTRL.EN and the context enters CONNECTING. -/
  | peerEnable (d : Die) (value : Word)
  /-- PEER_DISABLE (R280): Software clears FPC_PEER_CTRL.EN, requests in flight fail with ABORTED and the context is DOWN. -/
  | peerDisable (d : Die) (value : Word)
  /-- NODE_WRITE (R269): A write to FPC_NODE through either window sets the node ID in both. -/
  | nodeWrite (d : Die) (value : Word)
  /-- FPC_INJ_ARM (R283): Software arms a one-shot or rate frame injection. -/
  | fpcInjArm (d : Die) (value : Word)
  /-- FPC_INJ_DISARM (R283): Software disarms a frame injection. -/
  | fpcInjDisarm (d : Die)
  /-- REORDER_HOLD_EXPIRE (R283): A frame held for reorder injection sees no later frame within 100 µs and is sent alone. -/
  | reorderHoldExpire (d : Die)
  /-- INJ_DELAY_EXPIRE (R283): A frame held by delay injection is released after DELAY_US. -/
  | injDelayExpire (d : Die)
  /-- SQ_TAIL_DOORBELL (R289): A write of a new SQ tail announces descriptors to the CPR, or is ignored and posts 0x0F01. -/
  | sqTailDoorbell (port : Die) (n : Nat) (value : Nat) (size : Nat)
  /-- CQ_HEAD_DOORBELL (R289): A write of a new CQ head releases completion entries to the CPR. -/
  | cqHeadDoorbell (port : Die) (n : Nat) (value : Nat) (size : Nat)
  /-- EQ_HEAD_DOORBELL (R300): A write of a new EQ head releases event entries, writing EQ_OVERFLOW first if records were lost. -/
  | eqHeadDoorbell (port : Die) (n : Nat) (value : Nat) (size : Nat)
  /-- DESCRIPTOR_FETCH (R291): The CPR fetches descriptors of an SQ over CXL.io, checks them by Table 12.4 and starts them in ring order. -/
  | descriptorFetch (d : Die) (sq : Nat) (lines : List (Option Line))
  /-- COMPLETION_WRITE (R297): Once a descriptor's effects are visible the CPR writes its completion to the CQ. -/
  | completionWrite (d : Die) (cq : Nat) (ok : Bool)
  /-- IRQ_TIME_EXPIRE (R298): TIME_US passes since the first unsignalled completion or event and the ring sends its interrupt. -/
  | irqTimeExpire (d : Die) (event : Bool) (ring : Nat)
  /-- CQ_STALL (R296): A CQ stays full for 1 ms, and 0x0F06 is posted. -/
  | cqStall (d : Die) (cq : Nat)
  /-- SQ_ENABLE (R287): Software sets CPR_SQ_CTRL.EN, and the SQ is enabled or refused with a REASON. -/
  | sqEnable (d : Die) (sq : Nat)
  /-- SQ_DISABLE (R301): Software clears CPR_SQ_CTRL.EN, unstarted descriptors complete ABORTED and BUSY holds until completions are written. -/
  | sqDisable (d : Die) (sq : Nat)
  /-- CQ_ENABLE (R285): Software sets CPR_CQ_CTRL.EN and the CQ starts its first pass with PHASE 1. -/
  | cqEnable (d : Die) (cq : Nat)
  /-- CQ_DISABLE (R287): Software clears CPR_CQ_CTRL.EN, refused while an enabled SQ names the CQ. -/
  | cqDisable (d : Die) (cq : Nat)
  /-- EQ_ENABLE (R285): Software sets CPR_EQ_CTRL.EN and the EQ starts taking event records. -/
  | eqEnable (d : Die) (eq : Nat)
  /-- EQ_DISABLE (R301): Software clears CPR_EQ_CTRL.EN and the EQ stops once BUSY clears. -/
  | eqDisable (d : Die) (eq : Nat)
  /-- NOP (R293): Opcode 0x00 completes returning bytes 8–11. -/
  | nop (d : Die) (sq : Nat) (seq : Nat)
  /-- MEM_COPY (R303): Opcode 0x01 copies a range between host memory and local DLA or within local DLA. -/
  | memCopy (d : Die) (sq : Nat) (seq : Nat) (host : List LineData)
  /-- MEM_FILL (R303): Opcode 0x02 writes an 8-byte value over a local DLA range. -/
  | memFill (d : Die) (sq : Nat) (seq : Nat)
  /-- TIMESTAMP (R293): Opcode 0x03 returns the die and ns since reset. -/
  | timestamp (d : Die) (sq : Nat) (seq : Nat)
  /-- RING_QUERY (R293): Opcode 0x04 returns the pointers and state of a ring. -/
  | ringQuery (d : Die) (sq : Nat) (seq : Nat)
  /-- EM_LOOKUP (R312): Opcode 0x10 looks up one key in an exact-match table under a sampled PUB. -/
  | emLookup (d : Die) (sq : Nat) (seq : Nat)
  /-- EM_LOOKUP_BATCH (R321): Opcode 0x11 looks up up to 16 keys in an exact-match table. -/
  | emLookupBatch (d : Die) (sq : Nat) (seq : Nat) (host : List LineData)
  /-- LPM_LOOKUP (R317): Opcode 0x12 finds the longest stored prefix covering an address. -/
  | lpmLookup (d : Die) (sq : Nat) (seq : Nat)
  /-- LPM_LOOKUP_BATCH (R321): Opcode 0x13 looks up up to 16 addresses in a longest-prefix table. -/
  | lpmLookupBatch (d : Die) (sq : Nat) (seq : Nat) (host : List LineData)
  /-- EM_UPDATE (R318): Opcode 0x18 inserts, replaces or deletes a key in the open stage of an exact-match table. -/
  | emUpdate (d : Die) (sq : Nat) (seq : Nat)
  /-- LPM_UPDATE (R318): Opcode 0x19 adds, replaces or deletes a prefix in the open stage of a longest-prefix table. -/
  | lpmUpdate (d : Die) (sq : Nat) (seq : Nat)
  /-- TABLE_CREATE (R308): Opcode 0x20 checks a new table and zero-fills its range. -/
  | tableCreate (d : Die) (sq : Nat) (seq : Nat)
  /-- TABLE_FILL_DONE (R308): A new table's zero fill completes and the table is marked valid on both dies. -/
  | tableFillDone (table : Nat)
  /-- TABLE_DESTROY (R309): Opcode 0x21 marks a table invalid once its operations in flight complete. -/
  | tableDestroy (d : Die) (sq : Nat) (seq : Nat)
  /-- TABLE_PUBLISH (R319): Opcode 0x22 raises PUB in both descriptor copies, making the stage visible. -/
  | tablePublish (d : Die) (sq : Nat) (seq : Nat)
  /-- TABLE_QUERY (R323): Opcode 0x23 returns a table's descriptor, key count, PUB and stage log use. -/
  | tableQuery (d : Die) (sq : Nat) (seq : Nat)
  /-- LKE_CLEANUP (R320): No lookup under the previous PUB remains, and the LKE settles staged slots, direct copies and freed nodes. -/
  | lkeCleanup (table : Nat)
  /-- POOL_CREATE (R327): Opcode 0x30 checks and creates a free pool with its free stack. -/
  | poolCreate (d : Die) (sq : Nat) (seq : Nat)
  /-- POOL_DESTROY (R334): Opcode 0x31 destroys a pool not bound to an enabled queue. -/
  | poolDestroy (d : Die) (sq : Nat) (seq : Nat)
  /-- POOL_QUERY (R334): Opcode 0x32 returns a pool's region, low state and free count. -/
  | poolQuery (d : Die) (sq : Nat) (seq : Nat)
  /-- QUEUE_SET (R339): Opcode 0x33 enables, disables or sets the threshold of a queue. -/
  | queueSet (d : Die) (sq : Nat) (seq : Nat)
  /-- QUEUE_QUERY (R334): Opcode 0x34 returns a queue's depths, state and pool. -/
  | queueQuery (d : Die) (sq : Nat) (seq : Nat)
  /-- ALLOCATE (R335): Opcode 0x38 takes k cells from the free stack and chains them. -/
  | allocate (d : Die) (sq : Nat) (seq : Nat)
  /-- FREE (R338): Opcode 0x39 returns cells to the free stack from a list or a chain. -/
  | free (d : Die) (sq : Nat) (seq : Nat) (host : List LineData)
  /-- ENQUEUE (R336): Opcode 0x3A appends a packet to a queue, or drops it at the threshold. -/
  | enqueue (d : Die) (sq : Nat) (seq : Nat)
  /-- DEQUEUE (R337): Opcode 0x3B removes the first packet of a queue and returns its header. -/
  | dequeue (d : Die) (sq : Nat) (seq : Nat)
  /-- PEEK (R337): Opcode 0x3C returns the first packet's header without removing it. -/
  | peek (d : Die) (sq : Nat) (seq : Nat)
  /-- FLUSH (R340): Opcode 0x3D detaches a queue's whole chain and starts returning its cells. -/
  | flush (d : Die) (sq : Nat) (seq : Nat)
  /-- FLUSH_DONE (R340): A FLUSH walk has pushed its last cell and the descriptor completes. -/
  | flushDone (d : Die) (sq : Nat) (seq : Nat)
  /-- REMOTE_ENQUEUE (R342): Opcode 0x3E sends one packet as an ENQ_REQ to a queue of a peer. -/
  | remoteEnqueue (d : Die) (sq : Nat) (seq : Nat) (host : List LineData)
  /-- STACK_FILL (R328): Fewer than 256 free indices are held on die and the QUE reads 256 more from DRAM. -/
  | stackFill (owner : Die) (pool : Nat)
  /-- STACK_SPILL (R328): More than 768 free indices are held on die and the QUE writes 256 back. -/
  | stackSpill (owner : Die) (pool : Nat)
  /-- READ_AHEAD (R333): The QUE reads the header and next link of a queue's leading packets onto the die. -/
  | readAhead (owner : Die) (queue : Nat)
  /-- CKS_COMMIT (R352): A commit copies a synthesizer's staged values into its live set as a relock, output switch or delay step. -/
  | cksCommit (d : Die) (m : Nat) (value : Word)
  /-- DELAY_STEP (R352): Every 64 output cycles an output delay steps one eighth VCO period toward its staged value. -/
  | delayStep (d : Die) (m : Nat) (out : Nat)
  /-- LOCK_DECLARED (R354): After 256 consecutive PFD cycles inside the window a synthesizer declares lock. -/
  | lockDeclared (d : Die) (m : Nat) (band : Nat)
  /-- OUTPUT_RELEASE (R356): 64 PFD cycles after lock the outputs are released together and 0x1041 is posted after a loss. -/
  | outputRelease (d : Die) (m : Nat)
  /-- CKS_LOCK_LOST (R358): Four consecutive excursions declare loss of lock, the synthesizer responds by Table 15.5 and 0x1040 is posted. -/
  | cksLockLost (d : Die) (m : Nat)
  /-- CKM_QUIESCE_DONE (R359): The channels of a CKS-M have put every rank into self-refresh and the outputs are gated for the relock. -/
  | ckmQuiesceDone (d : Die) (m : Nat)
  /-- STORED_BAND_TIMEOUT (R355): A relock on a stored band does not lock within 20 µs and a full search starts. -/
  | storedBandTimeout (d : Die) (m : Nat)
  /-- CKS_FULL_SEARCH (R355): A full band search ends, updating the band memory on success, and 0x1042 is posted. -/
  | cksFullSearch (d : Die) (m : Nat) (band : Option Nat) (temp : Int)
  /-- CKS_INJ_ARM (R364): Software arms a loss-of-lock injection. -/
  | cksInjArm (d : Die) (m : Nat)
  /-- CKS_INJ_DISARM (R364): Software disarms a loss-of-lock injection. -/
  | cksInjDisarm (d : Die) (m : Nat)
  /-- REFCLK_LOST (R362): The REFCLK monitor sees no edge for 5 oscillator cycles and the bypasses switch to the auxiliary oscillator. -/
  | refclkLost
  /-- REFCLK_PRESENT (R362): After 100 µs of clean edges the monitor declares REFCLK present again. -/
  | refclkPresent
  /-- REFCLK_FAIL_TIMER (R450): 1 ms after REFCLK is declared lost each synthesizer becomes FAILED. -/
  | refclkFailTimer
  /-- FREF_LOST (R450): A loss of FREFn takes fabric port n's Ethernet link down. -/
  | frefLost (d : Die)
  /-- POWER_GOOD (R448): PWR_OK rises, straps are sampled and the boot sequence starts. -/
  | powerGood (seniorWest : Bool) (popDen : Nat) (popRank : Nat) (pop3ds : Nat) (testEn : Bool) (prog : Option FlashProg)
  /-- PWR_OK_FALL (R449): PWR_OK falls, the device resets and drives DRAM reset low. -/
  | pwrOkFall
  /-- PERST_ASSERT (R452): PERSTn_N falls, taking host port n down, or resetting the device when both are low. -/
  | perstAssert (port : Die)
  /-- PERST_RELEASE (R452): PERSTn_N rises and port n trains from Detect, or the boot restarts after a device reset. -/
  | perstRelease (port : Die)
  /-- BOOT_DONE (R377): Firmware and image are loaded and the synthesizers locked, and the device enters TRAIN. -/
  | bootDone
  /-- TRAIN_EXIT (R367): Training finishes and the device forms live lists, carves areas and enters SERVE or DEGRADED. -/
  | trainExit
  /-- COPY_B_CHECK (R377): After entry to SERVE the management core checks image copy B in the background. -/
  | copyBCheck
  /-- REQ_THRIFT (R380): A write of REQ_THRIFT moves the device from SERVE or DEGRADED toward THRIFT. -/
  | reqThrift
  /-- REQ_SERVE (R380): A write of REQ_SERVE leaves THRIFT or wakes the device from HOLD. -/
  | reqServe
  /-- REQ_HOLD (R381): A write of REQ_HOLD drains the device into HOLD. -/
  | reqHold
  /-- REQ_FREEZE (R383): A write of REQ_FREEZE moves the device to FROZEN. -/
  | reqFreeze
  /-- MODE_TRANSITION_DONE (R379): A THRIFT or HOLD entry or exit finishes its steps and BUSY clears. -/
  | modeTransitionDone
  /-- HOLD_DRAIN_TIMEOUT (R381): Requests in flight do not finish within 10 ms and HOLD entry is refused with REASON 2. -/
  | holdDrainTimeout
  /-- L1_EXIT (R382): A link exit from L1 on an enabled host port wakes the device from HOLD. -/
  | l1Exit (port : Die)
  /-- PASSAGE_HEARTBEAT_SEND (R384): Every 1 ms each die sends its seniority claim over the Passage. -/
  | passageHeartbeatSend (d : Die)
  /-- PASSAGE_HEARTBEAT (R384): A die receives the other die's seniority claim and checks it for agreement. -/
  | passageHeartbeat (d : Die) (ok : Bool)
  /-- HEARTBEAT_MISSED (R385): A die misses three consecutive heartbeats with the link up and forces a Passage reset, posting 0x1006. -/
  | heartbeatMissed (d : Die)
  /-- PASSAGE_RESET_DONE (R385): The Passage link retrains after a reset and held crossings are sent again. -/
  | passageResetDone (strapEast : Bool) (strapWest : Bool)
  /-- PASSAGE_LOST (R385): The Passage link is down or no heartbeat arrives within 10 ms of a reset, and the senior continues DEGRADED. -/
  | passageLost (linkDown : Bool)
  /-- IMAGE_UPDATE (R376): A new image received through the sideband or SPDM is written to copy B and then copy A. -/
  | imageUpdate (session : Option (Die × Nat)) (bytes : List Byte)
  /-- FLASH_UPDATE_DONE (R376): A flash copy update is read back and checked, and a failed read-back posts 0x1003. -/
  | flashUpdateDone (ok : Bool)
  /-- CHANNEL_THAWED (R397): Freeze capture ends, the channel thaws unless held, retries its reads and posts 0x0911. -/
  | channelThawed (d : Die) (chan : Nat)
  /-- EVT_FREEZE (R394): Software sets EVT_FRZ_CTRL.FREEZE to freeze a channel with cause 4. -/
  | evtFreeze (d : Die) (mask : Nat)
  /-- EVT_THAW (R397): Software sets EVT_FRZ_CTRL.THAW to thaw a held channel. -/
  | evtThaw (d : Die) (mask : Nat)
  /-- FREEZE_DATA_READ (R396): A read of EVT_FRZ_DATA returns the selected freeze record word and advances WORD. -/
  | freezeDataRead (d : Die)
  /-- POSTING_INTERVAL_END (R462): A posting interval ends with occurrences held back and one event is posted carrying their count. -/
  | postingIntervalEnd (d : Die) (code : Nat) (scope : Nat)
  /-- COUNTER_WRAP (R408): A counter reaches 2^48 and wraps, setting its overflow bit and feeding its chain partner. -/
  | counterWrap (d : Die) (n : Nat) (past : Nat)
  /-- CTRG_SNAP (R414): Software sets CTRG_CTRL.SNAP to request a snapshot of both dies' counters. -/
  | ctrgSnap
  /-- SNAPSHOT_COPY (R414): A die's cycle counter reaches the snapshot target and its counters are copied into the shadow bank. -/
  | snapshotCopy (d : Die)
  /-- COUNTER_FREEZE (R417): Software writes CTRG_CTRL.FREEZE = 1 to stop every programmable counter of both dies on one edge. -/
  | counterFreeze
  /-- COUNTER_UNFREEZE (R417): Software writes CTRG_CTRL.FREEZE = 0 to restart the counters on one edge. -/
  | counterUnfreeze
  /-- CLEAR_ALL (R417): Software sets CTRG_CTRL.CLEAR_ALL to zero every counter and overflow flag on both dies. -/
  | clearAll
  /-- PMC_SNAPSHOT (R418): Opcode 0x80 takes a snapshot and writes its layout to a destination. -/
  | pmcSnapshot (d : Die) (sq : Nat) (seq : Nat)
  /-- PMC_TELEMETRY (R418): Opcode 0x81 writes both dies' telemetry registers to a destination. -/
  | pmcTelemetry (d : Die) (sq : Nat) (seq : Nat)
  /-- COUNTER_LO_READ (R410): A read of PMC_CNT_LO or PMC_CYC_LO returns the low bits and latches the high bits. -/
  | counterLoRead (d : Die) (n : Option Nat)
  /-- COUNTER_STAGE_WRITE (R411): A write of PMC_CNT_HI stores the high bits in the counter's write stage. -/
  | counterStageWrite (d : Die) (n : Nat) (value : Word)
  /-- REPROGRAMMING_WRITE (R411): A write of PMC_CNT_LO sets the counter to the staged and written value. -/
  | reprogrammingWrite (d : Die) (n : Nat) (value : Word)
  /-- SENSOR_SAMPLE (R419): Every 1 ms each junction sensor is sampled and TJ_MAX updated. -/
  | sensorSample (d : Die) (temps : List Int) (failed : Nat)
  /-- THERMAL_EVAL (R422): Every 1 ms the senior die compares temperatures with the limits and raises or releases the thermal request. -/
  | thermalEval
  /-- THERMAL_TRIP (R423): A sensor comparator reaches 115 °C, THERMTRIP_N is asserted and the device enters FROZEN. -/
  | thermalTrip (d : Die) (sensor : Nat) (temp : Int)
  /-- POWER_ESTIMATE (R421): Every 1 ms each die estimates the power of each rail. -/
  | powerEstimate (d : Die) (rails : List Nat)
  /-- REGISTER_WRITE (R434): A BAR0 write to a register with no behaviour of its own is applied by its access types and acceptance rules. -/
  | registerWrite (port : Die) (offset : Nat) (value : BitVec 64) (size : Nat) (sess : Option Nat)
  /-- SIDEBAND_READ (R455): Sideband command 0x01 reads a permitted register. -/
  | sidebandRead (offset : Nat)
  /-- SIDEBAND_WRITE (R455): Sideband command 0x02 writes REQ_SERVE or REQ_FREEZE. -/
  | sidebandWrite (offset : Nat) (value : Word)
  /-- SIDEBAND_EVENT (R455): Sideband command 0x10 returns the oldest unread record of the sideband buffer. -/
  | sidebandEvent
  /-- SIDEBAND_TRANSFER (R455): Sideband commands 0x20–0x2F carry image and firmware transfers. -/
  | sidebandTransfer (code : Nat) (bytes : List Byte) (fin : XferEnd)
  /-- IDCODE (R457): TAP instruction 0x01 selects the IDCODE register. -/
  | idcode (d : Die)
  /-- SAMPLE_PRELOAD (R457): TAP instruction 0x02 samples or preloads the boundary cells. -/
  | samplePreload (d : Die) (pins : Nat) (cells : Nat)
  /-- EXTEST (R458): TAP instruction 0x03 drives the pins from the boundary cells when TEST_EN was 1. -/
  | extest (d : Die) (pins : Nat)
  /-- CLAMP (R458): TAP instruction 0x04 clamps the pins with BYPASS selected, when TEST_EN was 1. -/
  | clamp (d : Die)
  /-- HIGHZ (R458): TAP instruction 0x05 puts the pins at high impedance when TEST_EN was 1. -/
  | highz (d : Die)
  /-- EXTEST_PULSE (R458): TAP instruction 0x06 runs IEEE 1149.6 pulse testing of lanes and clocks when TEST_EN was 1. -/
  | extestPulse (d : Die) (pins : Nat)
  /-- EXTEST_TRAIN (R458): TAP instruction 0x07 runs IEEE 1149.6 train testing of lanes when TEST_EN was 1. -/
  | extestTrain (d : Die) (pins : Nat)
  /-- BYPASS (R457): TAP instruction 0xFF, and any unassigned code, selects the bypass register. -/
  | bypass (d : Die)
  /-- DRIP_DATA_READ (R112): A read of SRU_DRIP_DATA returns the selected word of a drip log entry and advances WORD, then ENTRY. -/
  | dripDataRead (d : Die) (chan : Nat)
  /-- HDM_DECODER_COMMIT (R246): Software commits an HDM decoder, which takes effect in increasing DLA order under CXL commit rules or fails with Commit Error beyond 8 TiB. -/
  | hdmDecoderCommit (port : Die) (dec : Nat) (base : Nat) (size : Nat) (ways : Nat) (gran : Nat) (skip : Nat) (isp : Nat)
  /-- LINK_LAYER_TIMEOUT (R256): A host port's link-layer timeout expires and the port enters the retrain rung. -/
  | linkLayerTimeout (port : Die) (x8 : Bool)
  /-- LINK_CONTROL_RETRAIN (R245): Software directs a retrain through the PCIe Link Control register, at the present or a higher Target Link Speed. -/
  | linkControlRetrain (port : Die) (rate : Nat)
  /-- LINK_RETRAIN_L0 (R257): A host-port retrain or fallback reaches L0, the rung returns to normal, held requests resume, and after a rate change the CDAT is updated. -/
  | linkRetrainL0 (port : Die)
  deriving DecidableEq, Repr

end Sys2Proof
end

