-- ==== Sys2Proof/Machine/Bits.lean ====
section
/-!
DEFINITION. Sys2Proof/Machine/Bits.lean: the sparse map's operations, and the bit-field and byte-order helpers
(R7, R8) that every other file uses.
-/

namespace Sys2Proof.Machine

/-! ### Sparse maps -/

/-- The value at a key. -/
def nget {α : Type} : NMap α → Nat → Option α
  | [], _ => none
  | (k, v) :: m, i => if i = k then some v else nget m i

/-- The value at a key, or the value an unlisted key reads as. -/
def ngetD {α : Type} (m : NMap α) (i : Nat) (d : α) : α := (nget m i).getD d

/-- Write a key, keeping the keys in strictly rising order. -/
def nset {α : Type} : NMap α → Nat → α → NMap α
  | [], i, x => [(i, x)]
  | (k, v) :: m, i, x =>
    if i < k then (i, x) :: (k, v) :: m
    else if i = k then (k, x) :: m
    else (k, v) :: nset m i x

/-- Remove a key. -/
def nerase {α : Type} (m : NMap α) (i : Nat) : NMap α := m.filter (fun p => p.1 != i)

/-- Remove every key of `[lo, lo + n)`. -/
def neraseRange {α : Type} (m : NMap α) (lo n : Nat) : NMap α :=
  m.filter (fun p => p.1 < lo || lo + n ≤ p.1)

/-- Change the value at a key, an unlisted key reading as `d`. -/
def nmod {α : Type} (m : NMap α) (i : Nat) (d : α) (f : α → α) : NMap α := nset m i (f (ngetD m i d))

/-- Change the value at a key where it is listed. -/
def nupd {α : Type} (m : NMap α) (i : Nat) (f : α → α) : NMap α :=
  match nget m i with
  | some v => nset m i (f v)
  | none => m

/-- The keys rise strictly: the canonical form. -/
def nwf {α : Type} : NMap α → Bool
  | [] => true
  | [_] => true
  | (k, _) :: (j, w) :: m => decide (k < j) && nwf ((j, w) :: m)

/-- The least natural number below `n` that is no key of the map. -/
def nfree {α : Type} (m : NMap α) (n : Nat) : Option Nat :=
  (List.range n).find? (fun i => (nget m i).isNone)

/-! ### Bit fields (R7) -/

/-- Bits [lo+w-1:lo] of a number. -/
def fld (v lo w : Nat) : Nat := (v >>> lo) % 2 ^ w

/-- Bit i of a number. -/
def bitn (v i : Nat) : Bool := fld v i 1 == 1

/-- A number with bits [lo+w-1:lo] replaced. -/
def setFld (v lo w x : Nat) : Nat := v - (fld v lo w) <<< lo + (x % 2 ^ w) <<< lo

/-- A truth value as a bit. -/
def b2n (b : Bool) : Nat := if b then 1 else 0

/-- Add, saturating at the width of the field. -/
def satAdd (w v n : Nat) : Nat := min (v + n) (2 ^ w - 1)

/-- Clamp a number to a range. -/
def clamp (lo hi v : Nat) : Nat := max lo (min hi v)

/-! ### Bytes (R8: little-endian) -/

/-- The n little-endian bytes of a number. -/
def leBytes (n v : Nat) : List Byte := (List.range n).map (fun i => BitVec.ofNat 8 (v >>> (8 * i)))

/-- The n big-endian bytes of a number. -/
def beBytes (n v : Nat) : List Byte := (leBytes n v).reverse

/-- The number that little-endian bytes spell. -/
def fromLe : List Byte → Nat
  | [] => 0
  | b :: bs => b.toNat + 256 * fromLe bs

/-- Byte b of a line. -/
def lineByte (l : Line) (b : Nat) : Byte := l.extractLsb' (8 * b) 8

/-- n bytes of a line from offset o, as a little-endian number. -/
def lineNum (l : Line) (o n : Nat) : Nat := fld l.toNat (8 * o) (8 * n)

/-- A line with n bytes at offset o replaced by a little-endian number. -/
def lineSet (l : Line) (o n v : Nat) : Line := BitVec.ofNat 512 (setFld l.toNat (8 * o) (8 * n) v)

/-- The 64 bytes of a line. -/
def lineBytes (l : Line) : List Byte := (List.range 64).map (lineByte l)

/-- The line whose bytes begin with the bytes given, zeros after them. -/
def lineOf (bs : List Byte) : Line := BitVec.ofNat 512 (fromLe (bs.take 64))

/-- Pad with zero bytes to a length, or cut to it. -/
def padTo (n : Nat) (bs : List Byte) : List Byte := (bs ++ List.replicate (n - bs.length) 0).take n

/-- An 8-byte value repeated eight times (PATTERN, MEM_FILL). -/
def patternLine (v : BitVec 64) : Line :=
  (List.range 8).foldl (fun l k => l ||| (v.zeroExtend 512 <<< (64 * k))) 0

/-- Split a list of bytes into lines. -/
def toLines (n : Nat) (bs : List Byte) : List Line := (List.range n).map (fun k => lineOf (bs.drop (64 * k)))

/-! ### Dies and ports -/

/-- 0 for East, 1 for West. -/
def dieNum : Die → Nat
  | .east => 0
  | .west => 1

/-- The die of a number's low bit. -/
def dieOf (n : Nat) : Die := if n % 2 = 0 then .east else .west

/-- The other die. -/
def otherDie : Die → Die
  | .east => .west
  | .west => .east

/-- The requester port numbers of Table 17.3. -/
def portNum : Port → Nat
  | .hp0 => 0 | .hp1 => 1 | .fp0 => 2 | .fp1 => 3 | .lke => 4 | .que => 5 | .tme => 6 | .sru => 7 | .cpr => 8

/-- The host port of a die, as a requester port. -/
def hostPort : Die → Port
  | .east => .hp0
  | .west => .hp1

/-- The fabric port of a die, as a requester port. -/
def fabPort : Die → Port
  | .east => .fp0
  | .west => .fp1

/-- A number as a signed byte (two's complement), for temperatures. -/
def sbyte (t : Int) : Nat := (t % 256).toNat

/-- The signed value of a byte. -/
def unsbyte (n : Nat) : Int := if n % 256 < 128 then ((n % 256 : Nat) : Int) else ((n % 256 : Nat) : Int) - 256

end Sys2Proof.Machine
end

