-- ==== Sys2Proof/Machine/Crc.lean ====
section
/-!
DEFINITION. Sys2Proof/Machine/Crc.lean: CRC-32C, with its register's first value as a parameter (R310, R373, R375).
-/

namespace Sys2Proof.Machine

/-- One bit of CRC-32C, least significant bit first. -/
def crc32Bit (c : BitVec 32) : BitVec 32 := if c.getLsbD 0 then (c >>> 1) ^^^ 0x82F63B78 else c >>> 1

/-- One byte of CRC-32C. -/
def crc32Byte (c : BitVec 32) (b : Byte) : BitVec 32 :=
  (List.range 8).foldl (fun x _ => crc32Bit x) (c ^^^ b.setWidth 32)

/-- CRC-32C of bytes in order: the register starts at a seed and the result is complemented. -/
def crc32c (seed : BitVec 32) (bs : List Byte) : BitVec 32 := ~~~ (bs.foldl crc32Byte seed)

/-- The standard CRC-32C. -/
def crc32Std (bs : List Byte) : Nat := (crc32c 0xFFFFFFFF bs).toNat

end Sys2Proof.Machine
end

