-- ==== Sys2Proof/Config.lean ====
section
/-!
DEFINITION. Sys2Proof/Config.lean: what an implementation fixes and the free values. Every constant here is opaque:
nothing can evaluate one, so no statement rests on its value.
-/

namespace Sys2Proof

/-- The contents of a DRAM line that nothing has written since reset and that is reached through a fault (R156;
"cells not written since reset hold undefined contents", chapter 4): by die and location. -/
opaque Config.undefinedCells : Nat → BitVec 704

/-- What the physical entropy source of a die (0 East, 1 West) gives its DRBG for each of its seeds (R181). -/
opaque Config.entropy : Nat → Nat → BitVec 384

/-- The PUF response and the OTP secret of a die (Table 8.1). -/
opaque Config.pufResponse : Nat → BitVec 256
opaque Config.otpSecret : Nat → BitVec 256

/-- A key made from the root key and further numbers: 0 the identity key, 1 the alias key, 2 the sealing key (Table 8.1). -/
opaque Config.derivedKey : Nat → BitVec 256 → List Nat → BitVec 384

/-- Sealing under the sealing key, and wrapping under the Passage wrap key: a permutation for every key (R180, R206). -/
opaque Config.sealing : BitVec 384 → Equiv.Perm Key
opaque Config.wrapping : BitVec 256 → Equiv.Perm Key

/-- The wrap key that the dies agree on at their n-th boot (Table 8.1). -/
opaque Config.agreement : Nat → BitVec 256

/-- A signature, certificate chain or exchange value of the SPDM responder over what it is made from (R207, log entry 29). -/
opaque Config.spdmCrypto : Nat → List Nat → List (BitVec 8)

/-- The code of a detail item of an event whose encoding the spec does not give, by event and meaning (log entry 7). -/
opaque Config.detailCode : Nat → Nat → Nat

/-- Whether the SIGNATURE section of an image verifies against the key whose hash the owner has fused (R373). -/
opaque Config.imageSigned : List (BitVec 8) → Bool

/-- The factory's identity values: die identifiers and steppings ("silicon", chapter 20). -/
opaque Config.silicon : Nat → BitVec 64

/-- Constants that a CXL or PCIe structure holds and the spec does not give: UUIDs, identity values, revision texts, command effects
(log entry 28). -/
opaque Config.cxlConst : Nat → BitVec 128

/-- A free value: the n-th value that the spec leaves open (log entry 6). -/
opaque Config.free : Nat → BitVec 64

end Sys2Proof
end

