-- ==== Sys2Proof/Machine/Aes.lean ====
section
/-!
DEFINITION. Sys2Proof/Machine/Aes.lean: AES-256 (FIPS 197) and what the CIE makes of it: XTS-AES-256 (IEEE 1619, R189), AES-256-CMAC
(NIST SP 800-38B, R194) and the CTR_DRBG with derivation function (NIST SP 800-90A, R181). A block is the list of its sixteen bytes.
-/

namespace Sys2Proof.Machine

/-! ### The cipher -/

/-- The S-box, byte x at bits [8x+7:8x]. -/
def aesBox : Nat :=
  0x16bb54b00f2d99416842e6bf0d89a18cdf2855cee9871e9b948ed9691198f8e19e1dc186b95735610ef6034866b53e708a8bbd4b1f74dde8c6b4a61c2e2578ba08ae7a65eaf4566ca94ed58d6d37c8e779e4959162acd3c25c2406490a3a32e0db0b5ede14b8ee4688902a22dc4f816073195d643d7ea7c41744975fec130ccdd2f3ff1021dab6bcf5389d928f40a351a89f3c507f02f94585334d43fbaaefd0cf584c4a39becb6a5bb1fc20ed00d153842fe329b3d63b52a05a6e1b1a2c830975b227ebe28012079a059618c323c7041531d871f1e5a534ccf73f362693fdb7c072a49cafa2d4adf04759fa7dc982ca76abd7fe2b670130c56f6bf27b777c63

/-- The inverse S-box. -/
def aesUnbox : Nat :=
  0x7d0c2155631469e126d677ba7e042b17619953833cbbebc8b0f52aae4d3be0a0ef9cc9939f7ae52d0d4ab519a97f51605fec8027591012b131c7078833a8dd1ff45acd78fec0db9a2079d2c64b3e56fc1bbe18aa0e62b76f89c5291d711af1476edf751ce837f9e28535ade72274ac9673e6b4f0cecff297eadc674f4111913a6b8a130103bdafc1020f3fca8f1e2cd00645b3b80558e4f70ad3bc8c00abd890849d8da75746155edab9edfd5048706c92b6655dcc5ca4d41698688664f6f87225d18b6d49a25b76b224d92866a12e084ec3fa420b954cee3d23c2a632947b54cbe9dec444438e3487ff2f9b8239e37cfbd7f3819ea340bf38a53630d56a0952

/-- A byte of an S-box. -/
def boxAt (t x : Nat) : Nat := (t >>> (8 * x)) % 256

/-- Multiply by x in the field of AES. -/
def aesX (a : Nat) : Nat := if a < 128 then 2 * a else Nat.xor (2 * a) 0x11B

/-- Multiply in the field of AES by a constant below 16. -/
def aesMul (k a : Nat) : Nat :=
  let b := aesX a
  let c := aesX b
  let d := aesX c
  let part := fun (i v : Nat) => if bitn k i then v else 0
  Nat.xor (Nat.xor (part 0 a) (part 1 b)) (Nat.xor (part 2 c) (part 3 d))

/-- Exclusive or of two lists of bytes. -/
def xorBytes (a b : List Nat) : List Nat := List.zipWith Nat.xor a b

/-- The words of the key schedule of AES-256 that follow `i` others, latest first. -/
def aesWords : Nat → Nat → List (List Nat) → List (List Nat)
  | 0, _, ws => ws
  | fuel + 1, i, ws =>
    let last := ws.headD []
    let turned := (last.drop 1 ++ last.take 1).map (boxAt aesBox)
    let t := if i % 8 = 0 then xorBytes turned [2 ^ (i / 8 - 1), 0, 0, 0] else if i % 8 = 4 then last.map (boxAt aesBox) else last
    aesWords fuel (i + 1) (xorBytes (ws.getD 7 []) t :: ws)

/-- A list in groups of n. -/
def groups {α : Type} (n count : Nat) (l : List α) : List (List α) := (List.range count).map (fun k => (l.drop (n * k)).take n)

/-- The fifteen round keys of a 32-byte key. -/
def aesKeys (key : List Nat) : List (List Nat) := groups 16 15 (aesWords 52 8 (groups 4 8 key).reverse).reverse.flatten

/-- ShiftRows, by the number of columns that each row moves. -/
def aesShift (by_ : Nat → Nat) (b : List Nat) : List Nat := (List.range 16).map (fun i => b.getD (4 * ((i / 4 + by_ (i % 4)) % 4) + i % 4) 0)

/-- MixColumns with the coefficients of a row. -/
def aesMix (m : List Nat) (b : List Nat) : List Nat :=
  (List.range 16).map (fun i => (List.range 4).foldl (fun v j => Nat.xor v (aesMul (m.getD ((j + 4 - i % 4) % 4) 0) (b.getD (4 * (i / 4) + j) 0))) 0)

/-- Encrypt a block under a key schedule. -/
def aesEnc (ks : List (List Nat)) (b : List Nat) : List Nat :=
  let sub := fun (x : List Nat) => aesShift id (x.map (boxAt aesBox))
  let mid := ((ks.drop 1).take 13).foldl (fun x k => xorBytes (aesMix [2, 3, 1, 1] (sub x)) k) (xorBytes b (ks.headD []))
  xorBytes (sub mid) (ks.getD 14 [])

/-- Decrypt a block under a key schedule. -/
def aesDec (ks : List (List Nat)) (b : List Nat) : List Nat :=
  let sub := fun (x : List Nat) => (aesShift (fun r => 4 - r) x).map (boxAt aesUnbox)
  let mid := ((ks.drop 1).take 13).reverse.foldl (fun x k => aesMix [14, 11, 13, 9] (xorBytes (sub x) k)) (xorBytes b (ks.getD 14 []))
  xorBytes (sub mid) (ks.headD [])

/-! ### Numbers and blocks -/

/-- The n little-endian bytes of a number, as numbers. -/
def leNums (n v : Nat) : List Nat := (List.range n).map (fun i => (v >>> (8 * i)) % 256)

/-- The n big-endian bytes of a number. -/
def beNums (n v : Nat) : List Nat := (leNums n v).reverse

/-- The number that little-endian bytes spell. -/
def leVal (bs : List Nat) : Nat := bs.foldr (fun b v => b + 256 * v) 0

/-- The number that big-endian bytes spell. -/
def beVal (bs : List Nat) : Nat := bs.foldl (fun v b => 256 * v + b) 0

/-! ### XTS (IEEE 1619) -/

/-- The tweak of each of n blocks, from that of the first. -/
def xtsTweaks : Nat → Nat → List Nat
  | 0, _ => []
  | n + 1, t => t :: xtsTweaks n (if t < 2 ^ 127 then 2 * t else Nat.xor (2 * t) (2 ^ 128 + 0x87))

/-- The two halves of a key pair as XTS uses them: the data key is bits [255:0], the tweak key bits [511:256], each with its bytes in
little-endian order (DESIGN CHOICE, log entry 4). -/
def xtsKeys (k : Key) : List (List Nat) × List (List Nat) := (aesKeys (leNums 32 k.toNat), aesKeys (leNums 32 (k.toNat / 2 ^ 256)))

/-- One data unit of n blocks through XTS, with the block cipher's direction. -/
def xtsUnit (go : List (List Nat) → List Nat → List Nat) (n : Nat) (k : Key) (tweak : BitVec 128) (v : Nat) : Nat :=
  let ks := xtsKeys k
  let ts := xtsTweaks n (leVal (aesEnc ks.2 (leNums 16 tweak.toNat)))
  leVal (ts.zipIdx.flatMap (fun p =>
    let t := leNums 16 p.1
    xorBytes t (go ks.1 (xorBytes t (leNums 16 (v >>> (128 * p.2)))))))

/-- XTS-AES-256 of a 64-B data unit, and its inverse (R189). -/
def xtsLine (k : Key) (tweak : BitVec 128) (l : Line) : Line := BitVec.ofNat 512 (xtsUnit aesEnc 4 k tweak l.toNat)
def xtsUnline (k : Key) (tweak : BitVec 128) (l : Line) : Line := BitVec.ofNat 512 (xtsUnit aesDec 4 k tweak l.toNat)

/-- XTS-AES-256 of a 256-B data unit, a T1 sector, and its inverse (R189). -/
def xtsSector (k : Key) (tweak : BitVec 128) (l : BitVec 2048) : BitVec 2048 := BitVec.ofNat 2048 (xtsUnit aesEnc 16 k tweak l.toNat)
def xtsUnsector (k : Key) (tweak : BitVec 128) (l : BitVec 2048) : BitVec 2048 := BitVec.ofNat 2048 (xtsUnit aesDec 16 k tweak l.toNat)

/-! ### CMAC (NIST SP 800-38B) -/

/-- A subkey from the last one. -/
def cmacDouble (b : List Nat) : List Nat :=
  let v := beVal b
  beNums 16 (if v < 2 ^ 127 then 2 * v else Nat.xor (2 * v - 2 ^ 128) 0x87)

/-- The 16 bytes of the CMAC of a message under a 32-byte key. -/
def cmac (key msg : List Nat) : List Nat :=
  let ks := aesKeys key
  let k1 := cmacDouble (aesEnc ks (List.replicate 16 0))
  let n := max 1 ((msg.length + 15) / 16)
  let whole := decide (0 < msg.length) && decide (msg.length % 16 = 0)
  let tail := msg.drop (16 * (n - 1))
  let last := if whole then xorBytes tail k1 else xorBytes ((tail ++ [0x80] ++ List.replicate 15 0).take 16) (cmacDouble k1)
  let x := (groups 16 (n - 1) msg).foldl (fun x b => aesEnc ks (xorBytes x b)) (List.replicate 16 0)
  aesEnc ks (xorBytes x last)

/-- The bytes of a 256-bit key held in a key's bits [255:0]. -/
def lowKey (k : Key) : List Nat := leNums 32 k.toNat

/-- The n most significant bytes of a message's CMAC, as a number. -/
def cmacTop (n : Nat) (k : Key) (msg : List Byte) : Nat := beVal ((cmac (lowKey k) (msg.map (·.toNat))).take n)

/-! ### CTR_DRBG (NIST SP 800-90A) -/

/-- The working state of a DRBG: the key and V, with its bytes big-endian. -/
structure DrbgSt where
  key : BitVec 256
  v : BitVec 128
  deriving DecidableEq, Repr

/-- n blocks of output of the counter under a key, from V on. -/
def ctrBlocks (ks : List (List Nat)) (v : Nat) (n : Nat) : List Nat := (List.range n).flatMap (fun i => aesEnc ks (beNums 16 ((v + i + 1) % 2 ^ 128)))

/-- CTR_DRBG_Update with 48 bytes. -/
def drbgUpdate (data : List Nat) (x : DrbgSt) : DrbgSt :=
  let t := xorBytes (ctrBlocks (aesKeys (beNums 32 x.key.toNat)) x.v.toNat 3) data
  ⟨BitVec.ofNat 256 (beVal (t.take 32)), BitVec.ofNat 128 (beVal (t.drop 32))⟩

/-- CBC-MAC under a key schedule (BCC). -/
def bcc (ks : List (List Nat)) (msg : List Nat) : List Nat :=
  (groups 16 (msg.length / 16) msg).foldl (fun x b => aesEnc ks (xorBytes x b)) (List.replicate 16 0)

/-- Block_Cipher_df: 48 bytes out of an input. -/
def drbgDf (input : List Nat) : List Nat :=
  let body := beNums 4 input.length ++ beNums 4 48 ++ input ++ [0x80]
  let s := body ++ List.replicate ((16 - body.length % 16) % 16) 0
  let ks := aesKeys (List.range 32)
  let temp := (List.range 3).flatMap (fun i => bcc ks (beNums 4 i ++ List.replicate 12 0 ++ s))
  let k2 := aesKeys (temp.take 32)
  let x1 := aesEnc k2 ((temp.drop 32).take 16)
  let x2 := aesEnc k2 x1
  x1 ++ x2 ++ aesEnc k2 x2

/-- Instantiate with the bytes of the entropy source. -/
def drbgSeed (entropy : List Nat) : DrbgSt := drbgUpdate (drbgDf entropy) ⟨0, 0⟩

/-- Reseed with the bytes of the entropy source. -/
def drbgMix (entropy : List Nat) (x : DrbgSt) : DrbgSt := drbgUpdate (drbgDf entropy) x

/-- A generate request for 64 bytes: the output, and the state after it. -/
def drbgOut (x : DrbgSt) : List Nat × DrbgSt :=
  let ks := aesKeys (beNums 32 x.key.toNat)
  (ctrBlocks ks x.v.toNat 4, drbgUpdate (List.replicate 48 0) { x with v := x.v + 4 })

end Sys2Proof.Machine
end

