-- ==== Sys2Proof/Machine/WordCode.lean ====
section
/-!
DEFINITION. Sys2Proof/Machine/WordCode.lean: the word code with address fold, poison and erasure (chapter 4,
R90 to R98), as functions over a stored line.
-/

namespace Sys2Proof.Machine

/-! ### The field GF(2^8) of polynomial 0x11D (R90) -/

/-- Multiply by α = 0x02. -/
def gfX (a : Byte) : Byte := (a <<< 1) ^^^ (if a.getLsbD 7 then 0x1D else 0)

/-- Multiply two field elements. -/
def gfMul (a b : Byte) : Byte :=
  ((List.range 8).foldl (fun (p : Byte × Byte) i => (if b.getLsbD i then p.1 ^^^ p.2 else p.1, gfX p.2)) (0, a)).1

/-- α^k. -/
def gfExp : Nat → Byte
  | 0 => 1
  | k + 1 => gfX (gfExp k)

/-- α^k for k from 0 to 254. -/
def gfTable : List Byte := ((List.range 254).foldl
  (fun (p : List Byte × Byte) _ => (gfX p.2 :: p.1, gfX p.2)) ([1], 1)).1.reverse

/-- α^k with the exponent taken modulo 255, the order of α. -/
def gfPow (k : Nat) : Byte := gfTable.getD (k % 255) 1

/-- The exponent of a non-zero element. -/
def gfLog (a : Byte) : Nat := gfTable.idxOf a

/-- Divide by a non-zero element. -/
def gfDiv (a b : Byte) : Byte := if a = 0 then 0 else gfPow (gfLog a + 255 - gfLog b)

/-! ### The fold (R92) -/

/-- Σ of α^(k+8) over the bits k set in a message. -/
def foldSym (bits m : Nat) : Byte :=
  (List.range bits).foldl (fun acc k => if bitn m k then acc ^^^ gfPow (k + 8) else acc) 0

/-- V0 of word w of home line index H: the message is `{w[2:0], H[17:0]}`. -/
def foldV0 (h w : Nat) : Byte := foldSym 21 (fld h 0 18 + (w % 8) <<< 18)

/-- V1 of home line index H: the message is H[35:18]. -/
def foldV1 (h : Nat) : Byte := foldSym 18 (fld h 18 18)

/-! ### Stored words -/

/-- Symbol i of word k of a stored line. -/
def sym (st : Stored) (k i : Nat) : Byte := st.extractLsb' (88 * k + 8 * i) 8

/-- The 88 bits of word k of a stored line. -/
def wordOf (st : Stored) (k : Nat) : BitVec 88 := st.extractLsb' (88 * k) 88

/-- Eleven symbols as 88 bits. -/
def packWord (c : List Byte) : BitVec 88 := BitVec.ofNat 88 (fromLe (c.take 11))

/-- Eight stored words as a stored line. -/
def packLine (ws : List (BitVec 88)) : Stored :=
  (List.range 8).foldl (fun acc k => acc ||| ((ws.getD k 0).zeroExtend 704 <<< (88 * k))) 0

/-- Σ of c_i α^(j·i) over positions and symbols. -/
def synSum (j : Nat) (cs : List (Nat × Byte)) : Byte :=
  cs.foldl (fun acc p => acc ^^^ gfMul p.2 (gfPow (j * p.1))) 0

/-- The check symbols c8, c9 and c10 of R94, from T0, T1 and T2. -/
def checkSyms (t0 t1 t2 : Byte) : Byte × Byte × Byte :=
  (gfMul (gfPow 164) (t2 ^^^ gfMul (gfPow 34) t1 ^^^ gfMul (gfPow 19) t0),
   gfMul (gfPow 188) (t2 ^^^ gfMul (gfPow 58) t1 ^^^ gfMul (gfPow 18) t0),
   gfMul (gfPow 163) (t2 ^^^ gfMul (gfPow 33) t1 ^^^ gfMul (gfPow 17) t0))

/-- Encode word w of a line (R94), with the fold symbols given; `poison` XORs the poison pattern of R95. -/
def encodeWordWith (v0 v1 : Byte) (data : List Byte) (poison : Bool) : BitVec 88 :=
  let ps := (data.zipIdx.map (fun p => (p.2, p.1))) ++ [(11, v0), (12, v1)]
  let c := checkSyms (synSum 0 ps) (synSum 1 ps) (synSum 2 ps)
  let x := fun (a b : Byte) => if poison then a ^^^ b else a
  packWord (data ++ [x c.1 0xC6, x c.2.1 0xA5, x c.2.2 0x63])

/-- The eight data symbols of word w of a line (R91). -/
def lineWord (l : Line) (w : Nat) : List Byte := (List.range 8).map (fun b => lineByte l (8 * w + b))

/-- An armed injection's effect on one word (R102). -/
structure WordInj where
  word : Nat
  flip : Option (BitVec 88)
  skew : Option (BitVec 16)
  deriving DecidableEq, Repr

/-- Encode a line for home line index H, poisoned or not, under an injection or none (R94, R95, R102). -/
def encodeLine (h : Nat) (l : Line) (poison : Bool) (inj : Option WordInj) : Stored :=
  packLine ((List.range 8).map (fun w =>
    let hit := match inj with
      | some i => if i.word = w then some i else none
      | none => none
    let skew : BitVec 16 := ((hit.bind (·.skew)).getD 0)
    let v0 := foldV0 h w ^^^ skew.extractLsb' 0 8
    let v1 := foldV1 h ^^^ skew.extractLsb' 8 8
    encodeWordWith v0 v1 (lineWord l w) poison ^^^ (hit.bind (·.flip)).getD 0))

/-- The word and line outcomes, worst last (R98). -/
inductive Outc where
  | none | corrected | poison | address | uncorrectable
  deriving DecidableEq, Repr

/-- The order of R98, and the code of CWU_LAST.OUTCOME (0 for NONE). -/
def outcNum : Outc → Nat
  | .none => 0 | .corrected => 1 | .poison => 2 | .address => 3 | .uncorrectable => 4

/-- One decoded word: its outcome, the position that the outcome names (15 for none), the syndromes, and the data. -/
structure WordDec where
  outc : Outc
  pos : Nat
  s0 : Byte
  s1 : Byte
  s2 : Byte
  data : List Byte
  deriving DecidableEq, Repr

/-- XOR a value into the symbol at a position. -/
def fixSym (c : List Byte) (p : Nat) (e : Byte) : List Byte := c.set p (c.getD p 0 ^^^ e)

/-- Decode one word for home line index H with no erasure mark (R96). -/
def decodeClean (c : List Byte) (s0 s1 s2 : Byte) : WordDec :=
  let mk := fun o p d => (⟨o, p, s0, s1, s2, d⟩ : WordDec)
  if s0 = 0 ∧ s1 = 0 ∧ s2 = 0 then mk .none 15 c
  else if s0 = 0 ∧ s1 = 0 ∧ s2 = 1 then mk .poison 15 c
  else if s0 ≠ 0 ∧ s1 ≠ 0 ∧ gfMul s1 s1 = gfMul s0 s2 then
    let p := gfLog (gfDiv s1 s0)
    if p ≤ 10 then mk .corrected p (fixSym c p s0)
    else if p ≤ 12 then mk .address p c
    else mk .uncorrectable 15 c
  else mk .uncorrectable 15 c

/-- Decode one word with an erasure mark for device a (R97). -/
def decodeErased (a : Nat) (c : List Byte) (s0 s1 s2 : Byte) : WordDec :=
  let mk := fun o p d => (⟨o, p, s0, s1, s2, d⟩ : WordDec)
  let aa := gfPow a
  let t0 := s1 ^^^ gfMul aa s0
  let t1 := s2 ^^^ gfMul aa s1
  if t0 = 0 ∧ t1 = 0 then mk .none 15 (fixSym c a s0)
  else if t0 = 0 ∧ t1 = 1 then mk .poison 15 c
  else if t0 ≠ 0 ∧ t1 ≠ 0 then
    let p := gfLog (gfDiv t1 t0)
    if p = a ∨ 12 < p then mk .uncorrectable 15 c
    else
      let e := gfDiv t0 (gfPow p ^^^ aa)
      if p ≤ 10 then mk .corrected p (fixSym (fixSym c p e) a (s0 ^^^ e))
      else mk .address p c
  else mk .uncorrectable 15 c

/-- Decode word w of a stored line for home line index H, under the erasure mark of its rank or none (R96, R97). -/
def decodeWord (h : Nat) (mark : Option Nat) (st : Stored) (w : Nat) : WordDec :=
  let c := (List.range 11).map (sym st w)
  let ps := (c.zipIdx.map (fun p => (p.2, p.1))) ++ [(11, foldV0 h w), (12, foldV1 h)]
  let s0 := synSum 0 ps
  let s1 := synSum 1 ps
  let s2 := synSum 2 ps
  match mark with
  | none => decodeClean c s0 s1 s2
  | some a => decodeErased a c s0 s1 s2

/-- A decoded line: the line outcome, the eight words, and the data as Table 4.2 delivers it. -/
structure LineDec where
  outc : Outc
  words : List WordDec
  line : Line
  deriving DecidableEq, Repr

/-- The worse of two outcomes. -/
def worse (a b : Outc) : Outc := if outcNum a ≤ outcNum b then b else a

/-- Decode a stored line (R98). -/
def decodeLine (h : Nat) (mark : Option Nat) (st : Stored) : LineDec :=
  let ws := (List.range 8).map (decodeWord h mark st)
  ⟨ws.foldl (fun acc w => worse acc w.outc) .none, ws, lineOf (ws.flatMap (fun w => w.data.take 8))⟩

/-- Whether a line outcome is delivered marked poison (R98, Table 4.2). -/
def outcPoison : Outc → Bool
  | .none | .corrected => false
  | .poison | .address | .uncorrectable => true

/-- The first word of a decoded line with the line's outcome, with its index. Which word CWU_LAST, CWU_SYND, 0x0B02 and 0x0B03 name where
several share the worst outcome, the spec does not say (DESIGN CHOICE, log entry 121). -/
def worstWord (d : LineDec) : Nat × WordDec :=
  match d.words.zipIdx.find? (fun p => p.1.outc == d.outc) with
  | some p => (p.2, p.1)
  | none => (0, ⟨.none, 15, 0, 0, 0, []⟩)

end Sys2Proof.Machine
end

