-- ==== Sys2Proof/Machine/State.lean ====
section
/-!
DEFINITION. Sys2Proof/Machine/State.lean: the state of the device, as plain data, and the state after reset.
Each structure's docstring cites the rules that name what it holds. A sparse map lists what differs from the reset
contents; what an unlisted key reads as is said by the accessor in Machine/Ops.lean or beside the structure.
-/

namespace Sys2Proof.Machine

/-! ### The register map's names (chapter 20) -/

/-- The register blocks of Table 20.2. -/
inductive RegBlock where
  | IDENT | CKS | HPC | FPC | PSG | RRM | CDR | TME | CMP | CIE | CPR | LKE | QUE | EVT | PMC
  | MSC | CFE | CWU | SRU | DEV | SEC | CFG | CTRG | RGN
  deriving DecidableEq, Repr

/-- The setup registers by name (the index of Table 20.2). -/
inductive RegName where
  | CFE_POP | CFE_STATUS | CFE_TRAIN_CTRL | CFE_TRAIN_CRIT | CFE_DRIFT_CFG | CFE_WCRC_CFG | CFE_RESULT_A | CFE_RESULT_B
  | CFE_ERR_STATUS | CFE_CAPAR_COUNT | CFE_WCRC_COUNT | CFE_TREC_SEL | CFE_TREC_DATA | MSC_PORT_PRIO | MSC_ARB_CFG | MSC_REF_CFG
  | MSC_REF_STATUS | MSC_DRAM_TEMP | MSC_QSTAT | MSC_TIMING | MSC_ECHO_CFG | MSC_ECHO_COUNT | MSC_ADJ_XOR | MSC_ADJ_MAP0
  | MSC_ADJ_MAP1 | MSC_ADJ_MAP2 | CWU_ERASE | CWU_STATUS | CWU_INJ_CTRL | CWU_INJ_MASK0 | CWU_INJ_MASK1 | CWU_INJ_MASK2
  | CWU_INJ_ADDR_LO | CWU_INJ_ADDR_HI | CWU_INJ_STATUS | CWU_INJ_HIT_LO | CWU_INJ_HIT_HI | CWU_LAST_A | CWU_LAST_B | CWU_SYND_A
  | CWU_SYND_B | CWU_UE_COUNT | CWU_DEVCNT_SEL | CWU_DEVCNT_DATA | SRU_CFG | SRU_SCRUB_CFG | SRU_SCRUB_POS_A | SRU_SCRUB_POS_B
  | SRU_STAT | SRU_STATUS | SRU_REPAIR_CFG | SRU_ERASE_CFG | SRU_DRIP_SEL | SRU_DRIP_DATA | SRU_REMAP_SEL | SRU_REMAP_DATA
  | SRU_EVAC_CTRL | SRU_EVAC_POS | SRU_RETIRE_CTRL | RGN_RANGE | RGN_ATTR | RGN_PLACE | RGN_MAP | RGN_CTRL
  | TME_MAP_CFG | TME_POLICY | TME_EPOCH_CFG | TME_T2_CFG | TME_T2_SIZE | TME_POOL_CFG | TME_STAGE_CFG | TME_STAGE_HOST_LO
  | TME_STAGE_HOST_HI | TME_STATUS | TME_FREE_FRAMES | TME_INIT_CFG | TME_INIT_SEL | TME_INIT_DATA | CMP_CFG | CMP_STATUS
  | CMP_STAT_SEL | CMP_STAT_DATA | SEC_POLICY | SEC_STATUS | SEC_ROT_CFG | SEC_DENY_COUNT | SEC_SLOT_SEL | SEC_SLOT_INFO
  | SEC_SLOT_DOM | SEC_SLOT_ROT | CIE_INT_CFG | CIE_STATUS | CIE_FAIL_COUNT | CDR_CFG | CDR_AGENT_MAP | CDR_STATUS
  | CDR_STAT_SEL | CDR_STAT_DATA | CDR_PROBE_LO | CDR_PROBE_HI | CDR_PROBE_RESULT | HPC_LINK_CFG | HPC_LINK_STATUS | HPC_LADDER_CFG
  | HPC_LINK_CTRL | HPC_STATUS | HPC_COUNT_SEL | HPC_COUNT_DATA | HPC_INJ_CTRL | HPC_INJ_COUNT | FPC_NODE | FPC_MAC_LO
  | FPC_MAC_HI | FPC_PORT_CFG | FPC_TIMER_CFG | FPC_PEER_SEL | FPC_PEER_MAC_LO | FPC_PEER_CTRL | FPC_PEER_STAT | FPC_STATUS
  | FPC_LINK_STATUS | FPC_COUNT_SEL | FPC_COUNT_DATA | FPC_INJ_CTRL | FPC_INJ_FILTER | FPC_INJ_COUNT | CPR_STATUS | CPR_COUNT_SEL
  | CPR_COUNT_DATA | CPR_SQ_BASE_LO | CPR_SQ_BASE_HI | CPR_CQ_BASE_LO | CPR_CQ_BASE_HI | CPR_EQ_BASE_LO | CPR_EQ_BASE_HI | CPR_SQ_CTRL
  | CPR_SQ_PTR | CPR_CQ_PTR | CPR_EQ_PTR | CPR_CQ_CTRL | CPR_EQ_CTRL | CPR_CQ_MOD | CPR_EQ_MOD | CPR_EQ_LOST
  | LKE_CFG | LKE_STATUS | LKE_TBL_SEL | LKE_TBL_INFO | LKE_TBL_BASE | LKE_TBL_SIZE | LKE_TBL_PUB | LKE_TBL_KEYS
  | LKE_COUNT_SEL | LKE_COUNT_DATA | QUE_STATUS | QUE_POOL_SEL | QUE_POOL_INFO | QUE_POOL_BASE | QUE_POOL_FREE | QUE_Q_SEL
  | QUE_Q_INFO | QUE_Q_DEPTH | QUE_Q_THRESH | QUE_Q_DROPS | QUE_COUNT_SEL | QUE_COUNT_DATA | CKS_PLAN | CKS_COMMIT
  | CKS_STATUS | CKS_LIVE | CKS_OUT0 | CKS_OUT1 | CKS_OUT2 | CKS_OUT3 | CKS_OUT4 | CKS_OUT5
  | CKS_BAND_SEL | CKS_BAND_DATA | CKS_INJ | CKS_COUNT | DEV_MODE | DEV_MODE_CTRL | DEV_STATUS | CFG_STATUS
  | PSG_STATUS | PSG_COUNT | EVT_FRZ_CFG | EVT_FRZ_CTRL | EVT_STATUS | EVT_FRZ_SEL | EVT_FRZ_DATA | EVT_FRZ_INFO
  | EVT_PERM_CFG | EVT_PERM_SEL | EVT_PERM_DATA | PMC_CYC_LO | PMC_CYC_HI | PMC_OVF_LO | PMC_OVF_HI | PMC_THERM_CFG
  | PMC_TJ_A | PMC_TJ_B | PMC_TJ_SUM | PMC_THROTTLE | PMC_PWR_A | PMC_PWR_B | PMC_PWR_C | PMC_PWR_DIE
  | PMC_CNT_CFG | PMC_CNT_LO | PMC_CNT_HI | PMC_SHD_LO | PMC_SHD_HI | CTRG_CTRL | CTRG_STATUS | IDENT_DIE
  | IDENT_UNITS | IDENT_UID_LO | IDENT_UID_HI | DEV_ID | DEV_CAP | DEV_IGNORED_COUNT | RRM_COUNT_SEL | RRM_COUNT_DATA
  | RRM_RGN_RANGE | RRM_RGN_ATTR | RRM_RGN_PLACE | RRM_RGN_MAP | RRM_RGN_CTRL
  deriving DecidableEq, Repr

/-- Where a register lies: its block, its offset there, and the stride and number of its copies. -/
structure RegPlace where
  block : RegBlock
  off : Nat
  stride : Nat
  count : Nat
  deriving DecidableEq, Repr

/-- The access types of Table 20.3 (RSV is the absence of a field). -/
inductive Acc where
  | RW | RO | W1C | W1S | WO | RWL
  deriving DecidableEq, Repr

/-- A field: its register, its lowest bit and width, its access type and its reset value. -/
structure Fld where
  reg : RegName
  lo : Nat
  w : Nat
  acc : Acc
  rst : Nat
  deriving DecidableEq, Repr

/-! ### Events (chapter 17) -/

/-- An event record (R388); the EQ phase bit is added where it is written into a ring. -/
structure EventRec where
  ns : Nat
  code : Nat
  sev : Nat
  locator : Nat
  details : List Byte
  deriving DecidableEq, Repr

/-- A posting limit of R462 in one scope: the last posting, and what is held back since. -/
structure PostLim where
  lastNs : Nat
  held : Nat
  sev : Nat
  locator : Nat
  first : List Byte
  acc : List Nat
  deriving DecidableEq, Repr

/-! ### Channels and subchannels (chapters 2 to 5, 17) -/

/-- The integrity metadata of a line (R193, R197): its version, or leaf counter, and its MAC, none where the metadata line was read as
poison. -/
structure LineMeta where
  ver : Nat
  mac : Option (BitVec 56)
  deriving DecidableEq, Repr

/-- Blank metadata (R195). -/
def LineMeta.blank : LineMeta := ⟨0, some 0⟩

/-- What a line request is for. -/
inductive Why where
  /-- line k of read operation n -/
  | op (n : Nat) (k : Nat)
  /-- a Lantern read; `again` on the second read of R110 -/
  | scrub (again : Bool)
  /-- the verify read of Table 5.2 -/
  | verify
  /-- retry `t` of a read that joined a freeze (R398), for line k of operation n, or for nobody -/
  | retry (t : Nat) (n : Option (Nat × Nat))
  /-- a write of operation n: the k-th copy or line of it -/
  | opw (n : Nat) (k : Nat)
  /-- nobody waits for it -/
  | post
  /-- the write-back of a Lantern correction (R109) -/
  | wb
  /-- a poison write of Lantern (R110) or after two failed retries (R399), discarded where a later write overtook its read -/
  | wbPoison (lantern : Bool)
  /-- the copy read of remap entry k (R117) -/
  | remap (k : Nat)
  /-- the copy read of line l of the block that an evacuation copies (R126) -/
  | evac (l : Nat)
  /-- the read of the other die's copy for line k of operation n (R140, R129 to R131); `heal` where this die's copy failed and is rewritten -/
  | mirror (n : Nat) (k : Nat) (heal : Bool)
  deriving DecidableEq, Repr

/-- A line request in a crossing or a queue (R59 to R66). `loc` is 4·Q + line of the location accessed, after remap
steering; `home` is the home line index H (R92); a read carries the integrity metadata that its line has when the
read is made (the line's requests keep their order, R65); a write carries its line as the CIE left it and, once the CWU has
encoded it, the stored bits; `late` is set when a later write of another requester to the line has entered the
write queue (R109, R110, R399); `reread` when the read was already issued again by R360; `second` on the second read of R196; `acted`
when a PRE or ACT was issued for it, so that its column command is no row hit. -/
structure Req where
  seq : Nat
  port : Port
  write : Bool
  sub : Nat
  loc : Nat
  home : Nat
  cls : Nat
  close : Bool
  capped : Bool
  enterNs : Nat
  region : Nat
  dla : Nat
  line : Line
  poison : Bool
  expect : LineMeta
  enc : Option Stored
  late : Bool
  reread : Bool
  second : Bool
  acted : Bool
  why : Why
  deriving DecidableEq, Repr

/-- An entry of the CFE replay buffer (R43): the write, its retries, and whether its window is open. -/
structure Replay where
  req : Req
  retries : Nat
  open_ : Bool
  deriving DecidableEq, Repr

/-- A bank (R64, R78, R80): its open row, its echo table, the mitigations queued and those done in this window. -/
structure BankSt where
  row : Option Nat
  echo : List (Nat × Nat)
  mitig : List Nat
  mitigDone : Nat
  heavyPosted : Bool
  held : Bool
  deriving DecidableEq, Repr

/-- The kinds of run-time retrain (Table 2.8). -/
inductive RetrainKind where
  | quick | full
  deriving DecidableEq, Repr

/-- A rank (R69 to R77, R54): owed REFs, those of a tick that must come before any ACT (`due`, R70), those of a forced
catch-up (`forced`, R72), the interval timer, whether MR4 must be read before the first ACT (`woke`, R77), the temperature, the retrain and self-refresh
states, and whether MR4 polls wait. -/
structure RankSt where
  owed : Nat
  due : Nat
  forced : Nat
  hot : Bool
  temp : Int
  ticks : Nat
  nextNs : Nat
  leftNs : Option Nat
  selfRefresh : Bool
  woke : Bool
  retrain : Option RetrainKind
  retrainWanted : Option RetrainKind
  mr4Wanted : Bool
  crcOn : Bool
  trained : Bool
  deriving DecidableEq, Repr

/-- Lantern's place on a subchannel (R105 to R108), with the second reads and verify reads that wait for a state in which it issues
nothing to end. -/
structure ScrubSt where
  q : Nat
  line : Nat
  outstanding : Nat
  owed : Nat
  held : List Req
  behindPosted : Bool
  deriving DecidableEq, Repr

/-- A remap table entry (R116, R117): the home line, the failing device, and whether it is valid or its copy still
runs. -/
structure RemapEnt where
  home : Nat
  dev : Nat
  valid : Bool
  deriving DecidableEq, Repr

/-- Whether a subchannel serves, is held as spare, or is RETIRED. -/
inductive SubState where
  | live | spare | retired
  deriving DecidableEq, Repr

/-- What a read of a line that nothing has written since a takeover or a switch of mapping is answered with
(R129, R131): the table of flat, mirrored and other lines, or nothing special. `SubSt.freshFrom` is the first block
that it holds for. -/
inductive FreshKind where
  | none | takeover | switched
  deriving DecidableEq, Repr

/-- One subchannel. `isolating` counts the tries of the write at the head of the replay buffer while R46 isolates;
`trainFail` is the step that failed at the present rate; `retCause` the cause and rate code of 0x0A08; `preaDue` whether the first REF
after a command error is still to come, which a precharge-all goes before (R75); `cells` lists the DRAM lines written since reset, by 4·Q + line. -/
structure SubSt where
  st : SubState
  rdq : List Req
  wrq : List Req
  writeMode : Bool
  retryq : List Req
  returning : List Req
  replay : List Replay
  replaying : Bool
  isolating : Option Nat
  trainFail : Option Nat
  retCause : Option (Nat × Nat)
  cmdHeld : Bool
  preaDue : Bool
  r0 : RankSt
  r1 : RankSt
  banks : NMap BankSt
  cells : NMap Stored
  fresh : FreshKind
  freshFrom : Nat
  devcnt : NMap Nat
  devSnap : NMap Nat
  scrub : ScrubSt
  remap : NMap RemapEnt
  initW : Nat
  demand : List Nat
  demandHeld : List Req
  permFails : List Nat
  permTotal : Nat
  permanent : Bool
  trec : NMap (List Byte)
  lastWrNs : Nat
  deriving DecidableEq, Repr

/-- An armed injection of the CWU (R102): the settings as armed, and whether it waits for the line that CWU_INJ_ADDR names. -/
structure InjSt where
  sub : Nat
  word : WordInj
  matching : Bool
  deriving DecidableEq, Repr

/-- A channel in the FROZEN channel state (R394 to R397): the record's cause and slot, since when, the subchannel, the command errors that
the thaw has to deal with, as subchannel and cause (R42, R46), and the reads that wait for their retries. -/
structure FrzSt where
  cause : Nat
  slot : Nat
  ns : Nat
  sub : Nat
  cmdErrs : List (Nat × Nat)
  joined : List Req
  held : Bool
  captured : Bool
  deriving DecidableEq, Repr

/-- The row-save buffer of R56: the rank it serves and the raw lines of the training row. -/
structure RowSave where
  sub : Nat
  rank : Nat
  lines : List Stored
  deriving DecidableEq, Repr

/-- One channel: what its two subchannels share. `clockRec` is CLOCK_RECOVERY (R359), `released` its part after the outputs
have been released; `noDrfm` whether training found DRAM without directed refresh management, `echoFallback` whether 0x0905 has been posted for
it, and `adjBad` whether the adjacency map was refused at TRAIN entry (R82). -/
structure ChanSt where
  mxin : List Req
  frozen : Option FrzSt
  clockRec : Bool
  fallback : Bool
  tFallback : Bool
  inj : Option InjSt
  cmdLog : List Nat
  rowSave : Option RowSave
  echoFallback : Bool
  noDrfm : Bool
  adjBad : Bool
  released : Bool
  deriving DecidableEq, Repr

/-- A slot of the freeze-record memory (R396). -/
structure FrzRec where
  chan : Nat
  cause : Nat
  seq : Nat
  held : Bool
  bytes : List Byte
  deriving DecidableEq, Repr

/-- The states of a drip log entry (Table 5.1). -/
inductive DripState where
  | free | seen | watch | hard
  deriving DecidableEq, Repr

/-- A drip log entry (Table 5.1). -/
structure DripEnt where
  h : Nat
  word : Nat
  rank : Nat
  dev : Nat
  sub : Nat
  st : DripState
  demand : Nat
  firstMs : Nat
  lastMs : Nat
  exhausted : Bool
  deriving DecidableEq, Repr

/-- An evacuation, or the rebuild of mirrored lines on a spare (R125 to R129): the next block to copy, whether its copy has begun and
whether a copy read of it has entered the read queue, from when requests to the block wait, the lines still to be read and those to be
written to the spare, and the lines found uncorrectable so far. -/
structure EvacSt where
  failing : Nat
  spare : Nat
  q : Nat
  begun : Bool
  entered : Bool
  left : List Nat
  got : NMap LineData
  poisoned : Nat
  rebuild : Bool
  deriving DecidableEq, Repr

/-- The salvage phase of a die (R130). -/
structure SalvageSt where
  sub : Nat
  startNs : Nat
  deriving DecidableEq, Repr

/-- A spare-row repair that is under way (R119): the word's entry and the place. -/
structure RowRepair where
  sub : Nat
  rank : Nat
  bg : Nat
  bank : Nat
  row : Nat
  dev : Nat
  drip : Nat
  deriving DecidableEq, Repr

/-- A remap copy that is under way (R117): whether its read has entered the read queue, from when requests to the line wait, and what it has
brought: a line, or nothing to write where the line is still answered from the other die's copy. -/
structure RemapCopy where
  sub : Nat
  entry : Nat
  drip : Nat
  entered : Bool
  got : Option (Option LineData)
  deriving DecidableEq, Repr

/-- The repair units of a die (chapter 5): drip log, repairs under way, evacuation, salvage and
live list; `rebuilt` the regions whose lines a takeover or a switch of mapping left unwritten and that have been copied back or filled since (R129, R131, R138). -/
structure SruSt where
  drip : NMap DripEnt
  rowRepairs : List RowRepair
  remapCopies : List RemapCopy
  evac : Option EvacSt
  salvage : Option SalvageSt
  liveList : List Nat
  positions : Nat
  memoryLost : Bool
  spareSub : Option Nat
  rebuilt : List Nat
  deriving DecidableEq, Repr

/-! ### Rings (chapter 12) -/

/-- A fetched descriptor (R291): its ring, its place in the ring's order, and its 64 bytes; and of one that has started: the part
of its work it has come to, how many of its accesses and peer requests are not answered, the lines that have come, by their place
in its work, the bad statuses by place, and the values that its work has left for later. -/
structure Desc where
  sq : Nat
  seq : Nat
  bytes : Line
  phase : Nat
  left : Nat
  got : NMap LineData
  fails : NMap Nat
  vals : NMap Nat
  deriving DecidableEq, Repr

/-- A completion (Table 12.6) before its phase is known. -/
structure Comp where
  sq : Nat
  seq : Nat
  tag : Nat
  status : Nat
  res0 : Nat
  res1 : Nat
  quiet : Bool
  irqNow : Bool
  deriving DecidableEq, Repr

/-- A submission ring beyond its registers (R291, R292): the descriptors fetched and not started, those started, the
next fetch and the oldest slot not free, counted from the enable. -/
structure SqSt where
  fetched : List Desc
  started : List Desc
  next : Nat
  oldest : Nat
  tailSeq : Nat
  deriving DecidableEq, Repr

/-- A completion or event ring beyond its registers (R295 to R300): what waits, and the moderation. -/
structure CqSt where
  waiting : List Comp
  sinceIrq : Nat
  firstNs : Nat
  fullNs : Option Nat
  stallPosted : Bool
  deriving DecidableEq, Repr

/-- The command processor of a die. -/
structure CprSt where
  sqs : NMap SqSt
  cqs : NMap CqSt
  eqs : NMap CqSt
  deriving DecidableEq, Repr
/-- The device modes (DEV_MODE.MODE, Table 16.1). -/
inductive Mode where
  | boot | train | serve | degraded | thrift | hold | frozen | sanitize
  deriving DecidableEq, Repr

/-- One record of a CXL event log (R254, R403): the device's record, its handle, its CXL timestamp, the DLA it carries
if any. -/
structure LogRec where
  ev : EventRec
  handle : Nat
  cxlNs : Nat
  dla : Option Nat
  deriving DecidableEq, Repr

/-- One CXL event log of a port (R254): at most 256 records, and the overflow report. -/
structure LogSt where
  recs : List LogRec
  nextHandle : Nat
  overflow : Nat
  firstOverNs : Nat
  lastOverNs : Nat
  deriving DecidableEq, Repr

/-- An HDM decoder of a host port (R246): its base and size in host physical addresses, its interleave ways and granularity, its
DLA base, and its interleave set position (PRESUMED from CXL, log entry 9). -/
structure HdmDec where
  base : Nat
  size : Nat
  ways : Nat
  gran : Nat
  dla : Nat
  isp : Nat
  deriving DecidableEq, Repr

/-- The kinds of request of Table 9.2; a host write is WB or WrNC by the recorded owner. -/
inductive ReqKind where
  | rdS | rdX | inv | rdNC | wr
  deriving DecidableEq, Repr

/-- A CXL.mem request that a host port holds in its HX-in crossing (R35, R361): the fields of HOST_MEM_READ, HOST_MEM_WRITE or HOST_MEM_INV. -/
structure HxEntry where
  tag : Nat
  hpa : Nat
  kind : ReqKind
  metaS : Bool
  data : LineData
  mask : BitVec 64
  deriving DecidableEq, Repr

/-- A completion of a host request (Table 9.2). -/
inductive Cmp where
  | plain | shared | exclusive
  deriving DecidableEq, Repr

/-- What a host port holds, beside requests, while its link retrains (R257): an agent's answer to a snoop about a host address, or a BIConflict. -/
inductive LinkIn where
  | answer (agent hpa : Nat) (ans : SnoopAns)
  | conflict (hpa : Nat)
  deriving DecidableEq, Repr

/-- A host port (chapter 10): its CXL event logs and their interrupt policy, its MSI-X mask and pending bits, whether it
signals viral (R253), its committed HDM decoders, the decoders whose commit failed, the times of its latest retrains (R256), the rate extension DVSEC's RATE128_EN,
PARTNER_128 and RATE128_LOST (Table 10.3), the alert configuration, what the partner offers (its highest rate,
and whether it is a CXL 3.x host), the width and the rate that a retrain, a fallback or a training aims at, the width outside THRIFT (R380), the consecutive replays of one
flit, whether the port trains from Detect, the keys of its IDE stream, the requests that its HX-in crossing holds, oldest first, whether the
partner advertises the extension and allows latency-optimized flits, and, while the link retrains or falls back, what else the host has sent and
the completions that wait for L0 (R257). -/
structure HpcSt where
  hxin : List HxEntry
  logs : NMap LogSt
  irqPolicy : NMap Nat
  msixMask : List Nat
  msixPend : List Nat
  viralTx : Bool
  hdm : NMap HdmDec
  hdmErr : List Nat
  retrains : List Nat
  rate128En : Bool
  partner128 : Bool
  rate128Lost : Bool
  alerts : List Byte
  pmax : Nat
  cxl3 : Bool
  width : Nat
  fullW : Nat
  replays : Nat
  target : Nat
  training : Bool
  ide : Option Key
  extOffer : Bool
  lo : Bool
  lin : List LinkIn
  cpls : List (Nat × Option LineData × Cmp)
  deriving DecidableEq, Repr

/-- A replay-tree node that failed its check (R199): the region that it failed for, its level and its index. -/
structure BadNode where
  region : Nat
  level : Nat
  index : Nat
  deriving DecidableEq, Repr

/-- The states of a key slot (Table 8.2). -/
inductive SlotState where
  | empty | active | rotating
  deriving DecidableEq, Repr

/-- A key slot (R183, R185, R201): state, binding (bit 0 HP0, 1 HP1, 2 FABRIC), domain mask, key epoch, present and
previous keys, and the rotation cursor (region, block from the start of the region's data or backing). -/
structure SlotSt where
  st : SlotState
  bind : Nat
  domain : Nat
  epoch : Nat
  xts : Key
  mac : Key
  pxts : Key
  pmac : Key
  curRegion : Nat
  curBlock : Nat
  deriving DecidableEq, Repr
/-! ### Clock synthesizers, counters, temperatures, seniority (chapters 15, 16, 18) -/

/-- A live output of a synthesizer (R352): divider, delay with the delay it steps toward, enable. -/
structure OutSt where
  div : Nat
  delay : Nat
  want : Nat
  en : Bool
  deriving DecidableEq, Repr

/-- A staged set (R352): the point it is of, N, PFD_SEL, the outputs, and the commit's output mask. -/
structure CksStage where
  point : Nat
  n : Nat
  pfd : Nat
  outs : List OutSt
  mask : Nat
  deriving DecidableEq, Repr

/-- What a synthesizer is doing: stopped; locked with its outputs running; quiescing its channels before the outputs are
gated (R359); relocking on a stored band, or in the k-th full search (R355); with a band found and not yet qualified;
locked with its outputs held until release (R356); FAILED (R363). -/
inductive CksPhase where
  | off | locked | quiesce | stored | search (k : Nat) | qualify | relocked | failed
  deriving DecidableEq, Repr

/-- A band memory slot (R355): the search's settings, its band and junction temperature, and when it was last used. -/
structure BandSt where
  pfd : Nat
  n : Nat
  band : Nat
  temp : Int
  used : Nat
  deriving DecidableEq, Repr

/-- A synthesizer: its live set, the commit that waits for release (R353), its band memory, whether a loss of lock is being
recovered from, since when, and whether by a stored band. -/
structure SynthSt where
  phase : CksPhase
  n : Nat
  pfd : Nat
  outs : List OutSt
  pend : Option CksStage
  bands : NMap BandSt
  uses : Nat
  lost : Bool
  sinceNs : Nat
  byStored : Bool
  deriving DecidableEq, Repr

/-- The counters of a die (R406 to R415): values and configurations by counter, read latches, write stages, the cycle
counter's latch, the shadow bank by entry, and whether a pending snapshot has been copied. -/
structure PmcSt where
  cnt : NMap Nat
  cfg : NMap Nat
  latch : NMap Nat
  stage : NMap Nat
  cycLatch : Nat
  shadow : NMap Nat
  copied : Bool
  deriving DecidableEq, Repr

/-- The thermal request (R422): since when it stands, the time it stood before, the cool samples in a row, and whether it
took the device to THRIFT with no REQ_THRIFT written since, and whether it waits for a transition to end. -/
structure ThermSt where
  since : Option Nat
  underNs : Nat
  cool : Nat
  took : Bool
  waits : Bool
  deriving DecidableEq, Repr

/-- A change of mode that takes time (R379): entry to or exit from THRIFT or HOLD. -/
inductive Trans where
  | toThrift | fromThrift | toHold | fromHold
  deriving DecidableEq, Repr

/-- A register write that waits for the end of a Passage reset (R440): its port, offset, value, size and session. -/
structure BarAcc where
  port : Die
  addr : Nat
  value : BitVec 64
  size : Nat
  sess : Option Nat
  deriving DecidableEq, Repr

/-- The Passage and seniority (R384, R385): whether a Passage reset runs, whether the Passage is lost, whether the dies
disagree, when disagreement was found, whether each die claims SENIOR, the heartbeats on the Passage, by sender, with their
claims, the wrap key that the dies have agreed on, the wrapped key that the Passage last carried (R180), and the register writes that wait
for the end of a Passage reset, oldest first (R432, R440). -/
structure PsgSt where
  resetting : Bool
  lost : Bool
  disagree : Bool
  found : List Nat
  claimEast : Bool
  claimWest : Bool
  fly : List (Die × Bool)
  wrap : Option (BitVec 256)
  keyMsg : Option Key
  barHeld : List BarAcc
  deriving DecidableEq, Repr

/-- The keys of the senior die's MSX (Table 8.1): identity, alias and sealing key once they have been derived, and the CAK. The root key is no
state: it is discarded as soon as these are derived (R179). -/
structure MsxSt where
  identity : Option (BitVec 384)
  alias_ : Option (BitVec 384)
  sealing : Option (BitVec 384)
  cak : Option Key
  deriving DecidableEq, Repr

/-! ### Memory requests, the directory, tiers and peers (chapters 1, 6, 9, 11) -/

/-- Who waits for a request. -/
inductive Asker where
  /-- a CXL.mem request of a host port, by its tag -/
  | host (port : Die) (tag : Nat)
  /-- line k of a request that the device serves for a peer -/
  | peer (id : Nat) (k : Nat)
  /-- access k of a started descriptor of a submission ring of a die (R303) -/
  | desc (d : Die) (sq : Nat) (seq : Nat) (k : Nat)
  /-- access k of a piece of an engine's own work on a die -/
  | work (d : Die) (id : Nat) (k : Nat)
  /-- line k of the page that a move of a die's TME reads, by its slot and the move's number -/
  | move (d : Die) (slot : Nat) (id : Nat) (k : Nat)
  /-- a copy read of a die's SRU, which goes to its subchannel once the directory lets it through (R30) -/
  | copy (d : Die) (q : Req)
  /-- nobody, as when the port of the request has gone down (R258) -/
  | nobody
  deriving DecidableEq, Repr


/-- A request for one line, bound to the descriptor it matched (R20): who asks, what, the issuing die, the port tag (R22), the
agent of a host request, whether a write has MetaValue S, the data and bytes of a write, the directory line whose transaction
it is, if any (R223), whether it has been counted toward heat (R147), and whether its page map entry has been looked up (R143). -/
structure MemReq where
  asker : Asker
  kind : ReqKind
  issuer : Die
  port : Port
  agent : Option Nat
  metaS : Bool
  region : Nat
  attr : Nat
  dla : Nat
  data : LineData
  mask : BitVec 64
  track : Option (Die × Nat)
  counted : Bool := false
  looked : Bool := false
  deriving DecidableEq, Repr

/-- The back-invalidate snoops. -/
inductive SnoopKind where
  | data | inv | cur
  deriving DecidableEq, Repr

/-- A snoop that is not answered. -/
structure Snoop where
  agent : Nat
  kind : SnoopKind
  deriving DecidableEq, Repr

/-- An open transaction of a line (R223): its request, or none for an eviction or a recall; the request that an eviction makes
room for; the snoops not answered; the agents whose write-back has been taken as a snoop's data; those whose write-back is
awaited; how many write-backs are not yet accepted; whether an awaited write-back never came, so that the entry is freed; and whether
the line is being accessed; and what has come for the line that an eviction makes room for, behind its request. -/
structure CdrTr where
  req : Option MemReq
  forReq : Option MemReq
  out : List Snoop
  taken : List Nat
  await : List Nat
  wbs : Nat
  failed : Bool
  running : Bool
  behind : List MemReq
  deriving DecidableEq, Repr

/-- A directory entry (R217): the line (tag and set together), X or S, owner, sharers, recency, the open transaction, and the
requests that wait behind it. -/
structure DirEnt where
  line : Nat
  x : Bool
  owner : Nat
  sharers : List Nat
  recent : Bool
  tr : Option CdrTr
  waiting : List MemReq
  region : Nat
  dla : Nat
  deriving DecidableEq, Repr

/-- The directory of a die: entries by 16 · set + way, the requests held at full sets, those that wait for their retry, the
write-backs that may still come after a poisoning (R229), and the walks of R232 that run, by port, with the lines
poisoned at once, the recalls of R234, and the open transactions of lines in I that take no way, with the requests behind each. -/
structure CdrSt where
  dir : NMap DirEnt
  held : List MemReq
  retry : List MemReq
  late : List (Nat × Nat)
  walks : List (Die × Nat)
  recalls : List Nat
  loose : NMap (List MemReq)
  deriving DecidableEq, Repr

/-- Who waits for an answer of a peer. -/
inductive Waiter where
  /-- a read of a T2 page's line, for an operation -/
  | op (n : Nat)
  /-- a tier-2 transfer of a move -/
  | move (d : Die) (slot : Nat)
  /-- a part of a descriptor's remote read or write, from an offset of its range -/
  | desc (d : Die) (sq : Nat) (seq : Nat) (off : Nat)
  /-- a remote enqueue -/
  | enq (d : Die) (sq : Nat) (seq : Nat)
  deriving DecidableEq, Repr

/-- The packet of an ENQ_REQ as gathered (R343): the fabric port, the peer with its session and tag, the queue and pool that it names, its
length, whether any of it is poison, and its bytes. -/
structure Packet where
  port : Die
  node : Nat
  session : Nat
  tag : Nat
  queue : Nat
  pool : Nat
  len : Nat
  poison : Bool
  bytes : List Byte
  deriving DecidableEq, Repr

/-- Work that a step leaves to be done before it ends: the next request of a directory line whose transaction has closed, a
request that may now be carried out, a request held at a directory set that may be presented again, or a line of a peer's
request that has been done; a descriptor of which an access is done; the end of a request to a peer, for whom, with its status, data and node; and a packet that a peer has
sent to a queue (R275), with the port, the peer, what it names and whether any of it is poison; a job of a die's TME that may go on; the
read of the other die's copy for line k of operation n, a visit of the sweep, the end of a promotion's wait, a QUERY_PAGE, a walk of a rotation and
the freeing of a run of sectors, which have waited for a line of metadata; and an operation whose line of the page map, or record of a sector frame, has
come. -/
inductive Todo where
  | line (d : Die) (key : Nat)
  | served (id : Nat)
  | carry (r : MemReq)
  | present (r : MemReq)
  | takeIn (d : Die) (r : MemReq)
  | desc (d : Die) (sq seq : Nat)
  | peer (w : Waiter) (status : Nat) (lines : List LineData) (node : Nat)
  | enq (p : Packet)
  | work (d : Die) (id : Nat)
  | moved (d : Die) (slot : Nat) (id : Nat)
  | merged (n : Nat)
  | sector (n : Nat)
  | rotated (slot : Nat)
  | coreBack (d : Die)
  | job (d : Die) (id : Nat)
  | other (d : Die) (n k : Nat) (heal : Bool) (r : Req)
  | sweep (d : Die) (region dla : Nat)
  | expire (d : Die) (region dla : Nat)
  | query (d : Die) (sq seq : Nat)
  | loaded (n : Nat)
  | rotGo (slot : Nat)
  | freeRun (d : Die) (sect k : Nat)
  deriving DecidableEq, Repr

/-- The request that a piece of work carries on with. -/
def Todo.req : Todo → Option MemReq
  | .carry r | .present r | .takeIn _ r => some r
  | _ => none

/-- A piece of work with its request changed. -/
def Todo.onReq (f : MemReq → MemReq) : Todo → Todo
  | .carry r => .carry (f r)
  | .present r => .present (f r)
  | .takeIn d r => .takeIn d (f r)
  | t => t

/-- A page map entry (Table 6.2); `place` is FRAME, SECT, RPAGE or VALUE. -/
structure PageEnt where
  tier : Nat
  moving : Bool
  pin : Bool
  incomp : Bool
  heat : Nat
  hstamp : Nat
  iepoch : Nat
  epoch : Nat
  cls : Nat
  node : Nat
  place : Nat
  deriving DecidableEq, Repr

/-- What started a move: the sweep, a write that promotes, or a descriptor of the TME (its job). -/
inductive MoveWhy where
  | sweep | write | job (id : Nat)
  deriving DecidableEq, Repr

/-- What a move does with the page's lines (Table 6.3): they are coded, an incompressible page going to T2 where `far` allows it; they go to
its T2 pool page; they go to its frame; or none are needed. -/
inductive MoveGoal where
  | code (far : Bool) | send | fill | value
  deriving DecidableEq, Repr

/-- A move slot (R149 to R154): the move's number, what it does, the region, page map entry and DLA page, the entry as the commit will make
it and whether its placement has been allocated, the lines that its reads have brought, whether it
awaits a page from a peer, whether every destination write has been accepted, whether it has been committed, the placement
before it, and the requests that wait for the commit. -/
structure MoveSt where
  id : Nat
  goal : MoveGoal
  held : Bool
  got : NMap LineData
  region : Nat
  page : Nat
  dla : Nat
  dest : PageEnt
  old : PageEnt
  waitsPeer : Bool
  accepted : Bool
  committed : Bool
  waiting : List MemReq
  why : MoveWhy
  deriving DecidableEq, Repr

/-- A MIGRATE or PIN that runs (R162): the die of its ring, its descriptor, first page and count, the target tier, PIN's value, the
next page, the counts, and whether the next page waits for a frame (R145). -/
structure TmeJob where
  ring : Die
  sq : Nat
  seq : Nat
  region : Nat
  dla : Nat
  count : Nat
  target : Nat
  pin : Option Bool
  next : Nat
  done : Nat
  skipped : Nat
  noFrame : Bool
  noPool : Bool
  stuck : Bool
  deriving DecidableEq, Repr

/-- The staged copy of a die's map slices (R155): whether it is in a host buffer, its base (a line of the other die, or a host bus address), the runs of
entries that it holds one after another, the tag of each of its lines that has been written, and, of a host buffer, what was written there. -/
structure StageCopy where
  host : Bool
  base : Nat
  runs : List (Nat × Nat)
  tags : NMap Nat
  sent : NMap Line
  deriving DecidableEq, Repr

/-- The TME of a die: the page map by entry (an unlisted entry is blank), the move slots, the frames in use by DPA frame (the
mask of a sector frame's record, or 65,536 for a whole frame), the open sector frames, the T2 pool pages in use, the accesses
counted toward heat, the pages not to be demoted in an epoch, the writes that wait for a frame, the pages (region and DLA) whose promotion by the sweep waits for
one, the jobs, whether free frames have fallen below the limit and not risen past twice it (R145), what REHOME_DONE is to report (R155: pages kept, pages
lost, and the regions all of whose pages are), the runs of entries that are LOST where they are not listed, the entries that the page map cache
holds and whether they have changed, those whose map line was read as poison, and what waits for a way of the cache, by entry (R143), and the copy of the map that
salvage has staged, if it has come to it and a target took it (R155: none before the copy; none inside it where no target took it). -/
structure TmeSt where
  pages : NMap PageEnt
  moves : NMap MoveSt
  frames : NMap Nat
  opened : List Nat
  pool : NMap Unit
  accesses : Nat
  spared : List (Nat × Nat)
  starved : List MemReq
  stuck : List (Nat × Nat)
  jobs : NMap TmeJob
  pressure : Bool
  rehome : Option (Nat × Nat × List Nat)
  lostRuns : List (Nat × Nat)
  cached : NMap Bool
  unread : List Nat
  full : List (Nat × Todo)
  staged : Option (Option StageCopy)
  deriving DecidableEq, Repr

/-- The states of a peer context (R270). -/
inductive CtxState where
  | down | connecting | up | unreachable
  deriving DecidableEq, Repr

/-- A request in flight to a peer: its tag, operation code, who waits, its first DLA and bytes, and the data so far. -/
structure PeerReq where
  tag : Nat
  op : Nat
  waiter : Waiter
  dla : Nat
  len : Nat
  got : List LineData
  deriving DecidableEq, Repr

/-- A request of a peer that is partly received: operation, tag, first DLA or queue fields, the sequence number of its first
frame, the frames' data, and whether any of it is poison. -/
structure PeerPart where
  op : Nat
  tag : Nat
  arg : Nat
  id : Nat
  bytes : List Byte
  poison : Bool
  deriving DecidableEq, Repr

/-- A peer context of a fabric port (R270). -/
structure CtxSt where
  st : CtxState
  en : Bool
  mac : Nat
  port : Nat
  big : Bool
  session : Nat
  nextSeq : Nat
  unacked : List Frame
  waiting : List Frame
  timeouts : Nat
  expect : Nat
  held : NMap Frame
  unreported : Nat
  reqs : List PeerReq
  nextTag : Nat
  part : Option PeerPart
  retx : Nat
  heardNs : Nat
  sentNs : Nat
  deriving DecidableEq, Repr

/-- A request that the device serves for a peer (R275): the port and context with its session, operation, tag, first DLA and
lines, the lines done, whether all its frames have come, and a status that a failing frame gave it. -/
structure ServeSt where
  port : Die
  node : Nat
  session : Nat
  op : Nat
  tag : Nat
  dla : Nat
  lines : Nat
  got : NMap LineData
  closed : Bool
  status : Nat
  deriving DecidableEq, Repr

/-- A frame held by an injection (R283): its direction, its context's node, the frame, and whether the SCI of a received one is its peer's. -/
structure HeldFrame where
  rx : Bool
  node : Nat
  frame : Frame
  sciOk : Bool
  deriving DecidableEq, Repr

/-- A request that waits because the port has 8,192 in flight (R276): its node, the request and its frames. -/
structure WaitReq where
  node : Nat
  req : PeerReq
  frames : List Frame
  deriving DecidableEq, Repr

/-- A fabric port: its contexts by node, the frames that an injection delays or swaps and the matching frames seen since it was armed
(R283), the requests that wait for the port's limit (R276), the generation of its SAK and the packet number that the SAK has come to
(R205), the nodes that a secure channel joins, and the frames that its FX-in crossing holds (R361), oldest first. -/
structure FpcSt where
  ctxs : NMap CtxSt
  delayed : List HeldFrame
  swapped : Option HeldFrame
  injSeen : Nat
  outq : List WaitReq
  sakGen : Nat
  pn : Nat
  channels : List Nat
  fxin : List (Frame × Bool × Bool)
  deriving DecidableEq, Repr


/-- The stage log of a table (R318): the lines changed, counted from the table base, and the node pairs, line runs and key records
released, with the node pairs allocated in the open stage. -/
structure StageLog where
  lines : List Nat
  pairs : List Nat
  runs : List (Nat × Nat)
  recs : List Nat
  fresh : List Nat
  deriving DecidableEq, Repr

/-- A lookup table (R305, R308), the same in both dies' copies: whether it is valid or still being filled, and for which descriptor;
type 0 EM, 1 LPM4, 2 LPM6; the keys visible under PUB and in the staged view; whether a stage is open and whether the cleanup of R320
is due. -/
structure TblSt where
  valid : Bool
  maker : Option (Die × Nat × Nat)
  type : Nat
  hint : Nat
  region : Nat
  keyLen : Nat
  log2nb : Nat
  base : Nat
  size : Nat
  pub : Nat
  seeds : List Nat
  seeded : Bool
  stageOpen : Bool
  cleanup : Bool
  keys : Nat
  staged : Nat
  log : StageLog
  deriving DecidableEq, Repr

/-- Who carries out the operation that a pool is at: a started descriptor, or a piece of the engine's own work. -/
inductive Holder where
  | desc (d : Die) (sq : Nat) (seq : Nat)
  | work (id : Nat)
  deriving DecidableEq, Repr

/-- A free pool of a die (R326 to R328): its region, base, cells, reserve and LOW, the free count F, the indices of the top of the
free stack that are held on die (the top first), whether F has fallen below LOW and not yet exceeded twice it (R346), and the operation on
it that is not done (R332). -/
structure PoolSt where
  region : Nat
  base : Nat
  cells : Nat
  reserve : Nat
  low : Nat
  free : Nat
  held : List Nat
  below : Bool
  lock : Option Holder
  deriving DecidableEq, Repr

/-- The states of a queue (Table 14.4). -/
inductive QueState where
  | disabled | enabled | fault
  deriving DecidableEq, Repr

/-- A queue (Table 14.4): the header of its first packet, the head cell of the second and its header, where they have been read
ahead (R333), as numbers of 16 bytes. -/
structure QueueSt where
  st : QueState
  pool : Nat
  thresh : Nat
  head : Nat
  tailLast : Nat
  pkts : Nat
  cells : Nat
  bytes : Nat
  drops : Nat
  hdr : Option Nat
  next : Option Nat
  nextHdr : Option Nat
  deriving DecidableEq, Repr

/-- What an engine does on its own: the cleanup of a table (R320), a stack fill of a pool (R328), the read-ahead of a queue (R333), a
peer's packet on its way into a queue of the die (R343). -/
inductive WorkKind where
  | cleanup (table : Nat)
  | fill (pool : Nat)
  | ahead (queue : Nat)
  | packet (p : Packet)
  deriving DecidableEq, Repr

/-- A piece of an engine's own work: what it is, how many of its accesses are not answered, the lines that have come, by line, and whether
its writes have been issued. -/
structure EngWork where
  kind : WorkKind
  left : Nat
  got : NMap LineData
  written : Bool
  deriving DecidableEq, Repr

/-- One die: everything that exists once per die; `psgHeld` is what the other die holds of its Passage traffic toward it (R361). Of the
integrity metadata: `lmeta` the entries and leaf counters by line, `nodes` the lines that the node cache holds and whether they are dirty,
`ctrs` the counters that cover tree nodes, the on-die root's among them, and the GiB units of the two parts of the integrity metadata area that
regions have, by unit: the region and which of its GiB (R197, R198, R200). -/
structure DieSt where
  subs : NMap SubSt
  chans : NMap ChanSt
  sru : SruSt
  cpr : CprSt
  frz : NMap FrzRec
  frzSeq : Nat
  counts : NMap Nat
  posts : NMap PostLim
  hpc : HpcSt
  cyc : Nat
  lmeta : NMap LineMeta
  badNodes : List BadNode
  nodes : NMap Bool
  ctrs : NMap Nat
  macUnits : NMap (Nat × Nat)
  treeUnits : NMap (Nat × Nat)
  drbg : DrbgSt
  drbgUsed : Nat
  drbgSeeds : Nat
  drbgStopped : Bool
  pmc : PmcSt
  cks : NMap SynthSt
  refLost : Bool
  cdr : CdrSt
  tme : TmeSt
  fpc : FpcSt
  pools : NMap PoolSt
  queues : NMap QueueSt
  work : NMap EngWork
  psgHeld : List MemReq
  deriving DecidableEq, Repr

/-- What an operation does with its lines. -/
inductive OpJob where
  /-- lines are decrypted as they come and returned in order -/
  | read
  /-- a write: complete when every copy is accepted -/
  | write
  /-- lines 0 to 3 are the header sector of a T1 page and 4 to 7 the sector of the line wanted, `line` of the page, coded with size code `cls`;
  `home` and `home2` are the home line indices of the two sectors (Table 1.9), the second once the header has come -/
  | tier1 (line : Nat) (cls : Nat) (home : Nat) (home2 : Option Nat)
  /-- the destination writes of a move of a die's TME -/
  | move (d : Die) (slot : Nat)
  /-- the sectors of the T1 page that a move reads, as they are stored; the number of the move tells it from a later one of its slot -/
  | gather (d : Die) (slot : Nat) (id : Nat)
  /-- the line that a write of a part of it is merged onto (R225, Table 1.8) -/
  | merge (r : MemReq)
  /-- the block that the rotation of a key slot reads on a die, a sector as it is stored; the number tells it from a later one (R202) -/
  | rot (slot : Nat) (id : Nat) (d : Die) (raw : Bool)
  /-- a tree node or metadata line of a die that is brought into the node cache, by its key there (R198) -/
  | node (d : Die) (key : Nat)
  /-- the map line that a die's page map cache needs for an entry (R143) -/
  | map (d : Die) (key : Nat)
  /-- the record of a closed sector frame, for a run that is freed: its first sector and its sectors (R177) -/
  | record (d : Die) (sect k : Nat)
  deriving DecidableEq, Repr

/-- The block that a key slot's rotation is at (R202): its number, its region and place, the dies whose lines have not come, the lines that have
(4 times the die's number and the line's place), whether a move has written to it meanwhile, and the requests to it that wait. -/
structure RotSt where
  id : Nat
  region : Nat
  block : Nat
  need : List Die
  got : NMap LineData
  stale : Bool
  waiting : List MemReq
  deriving DecidableEq, Repr

/-- An operation in flight: a request of a requester port whose lines the memory system is carrying out. `attr` is
the RGN_ATTR word of the region it was bound to (R20); `want` names the lines or copies awaited, `got` those that have
come; `cmp` is the completion due to a host (Table 9.2), `track` the directory line whose transaction the operation
carries out, `page` the die, page map entry and epoch of a tiered access (R150), `waiting` the requests for the line of a merge
that came after it (R31), and `after` what waits for a line of metadata. -/
structure OpSt where
  asker : Asker
  job : OpJob
  port : Port
  region : Nat
  attr : Nat
  dla : Nat
  cmp : Cmp
  track : Option (Die × Nat)
  page : Option (Die × Nat × Nat)
  want : List Nat
  got : NMap LineData
  waiting : List MemReq := []
  after : List Todo := []
  deriving DecidableEq, Repr

/-- A message that leaves the device. -/
inductive OutMsg where
  /-- a CXL completion of a host port, with data or without (R26, R221, R252) -/
  | hostCpl (port : Die) (tag : Nat) (data : Option LineData) (cmp : Cmp)
  /-- a posted CXL.io write to host memory through a die's port (R297, R303) -/
  | hostWrite (port : Die) (addr : Nat) (data : List Byte) (poison : Bool)
  /-- an MSI-X message of a port's function (R298) -/
  | msix (port : Die) (vector : Nat)
  /-- the value that a read of a register returns: BAR0 offset and value -/
  | regData (addr : Nat) (value : Word)
  /-- a back-invalidate snoop to an agent on a host port, for a host physical address (R218) -/
  | snoop (port : Die) (agent : Nat) (kind : SnoopKind) (hpa : Nat)
  /-- BIConflictAck on a host port (R230) -/
  | conflictAck (port : Die) (hpa : Nat)
  /-- an IFT frame from a fabric port and its bytes from DA to the end of the payload as MACsec takes them (R266), with an encrypted bit inverted by an
  injection where `corrupt` (R283) -/
  | frame (port : Die) (f : Frame) (corrupt : Bool) (image : List Byte)
  /-- the viral indication on a host port (R253) -/
  | viral (port : Die)
  /-- a mailbox command's return code and payload on a host port (R250) -/
  | mbox (port : Die) (ret : Nat) (payload : List Byte)
  /-- an SPDM response on a host port's DOE mailbox: its code, its two parameters and what follows (R207) -/
  | spdm (port : Die) (code p1 p2 : Nat) (body : List Byte)
  /-- a DOE table access response (R255) -/
  | doe (port : Die) (entries : List Byte)
  /-- the data that a sideband read returns (R455) -/
  | sideband (data : List Byte)
  /-- the sideband's in-band interrupt with the severity code of a record (R455) -/
  | sidebandIrq (sev : Nat)
  /-- the register that a die's test access port has selected between TDI and TDO: its length and what it has captured (R457) -/
  | tdo (d : Die) (bits : Nat) (value : Nat)
  deriving DecidableEq, Repr

/-- The board straps, sampled at power good (R448). -/
structure Straps where
  seniorWest : Bool
  popDen : Nat
  popRank : Nat
  pop3ds : Nat
  testEn : Bool
  deriving DecidableEq, Repr

/-- The repair area of an image copy (R375): whether its header and check word hold, its SEQUENCE and its records. -/
structure RepairArea where
  valid : Bool
  seq : Nat
  recs : List (BitVec 64)
  deriving DecidableEq, Repr

/-- A flash update under way (R376): a repair area, an image, a secret, or a firmware slot. -/
inductive FlashJob where
  | repair (recs : List (BitVec 64))
  | image (bytes : List Byte)
  | secrets (cak : Option Key) (certs : NMap (List Byte))
  | firmware (slot : Nat)
  deriving DecidableEq, Repr

/-- The SPI flash (R372): both image copies and their repair areas, which firmware slots hold a signed image and which
is marked active, and the secrets area; `jobs` are the updates not finished, that under way first, and `half`
whether the first of its two copies is done (R376). -/
structure FlashSt where
  imgA : List Byte
  imgB : List Byte
  repA : RepairArea
  repB : RepairArea
  fw0 : Bool
  fw1 : Bool
  fwActive : Nat
  cak : Option Key
  certs : NMap (List Byte)
  jobs : List FlashJob
  half : Bool
  deriving DecidableEq, Repr

/-- An SPDM secure session (R207, R208): whether it is established, whether its requester's chain ends in an owner root of slots 2 to
7, and how often its keys have been updated. -/
structure SpdmSess where
  open_ : Bool
  owner : Bool
  updates : Nat
  deriving DecidableEq, Repr

/-- The SPDM responder (R207): how far the connection's negotiation has come (1 version, 2 capabilities, 3 algorithms), the sessions
by number, the transcript so far, the longest response that the requester takes, the chunks of a large request that have come, a large response with its handle, and whether a
debug token has opened scan and debug access (R210). -/
structure SpdmSt where
  stage : Nat
  sessions : NMap SpdmSess
  transcript : List Nat
  limit : Nat
  chunkIn : Option (Nat × Nat × List Byte)
  chunkOut : Option (Nat × Nat × List Byte)
  debug : Bool
  deriving DecidableEq, Repr

/-- What a die's test access port makes of the pins (Table 21.6). -/
inductive TapDrive where
  | normal | cells | clamp | highz | pulse | train
  deriving DecidableEq, Repr

/-- The test access port of a die (R457): its instruction register as it acts, the boundary cells, and the pins. -/
structure TapSt where
  ir : Nat
  cells : Nat
  drive : TapDrive
  deriving DecidableEq, Repr

/-- Pins (chapter 21): PWR_OK, whether each PERSTn_N is low, whether THERMTRIP_N is asserted, and whether MEMnn_RESET_N are driven
low. -/
structure PinSt where
  pwrOk : Bool
  perst0 : Bool
  perst1 : Bool
  thermTrip : Bool
  dramReset : Bool
  deriving DecidableEq, Repr

/-- Firmware transfers (Table 10.5): the port and slot of a transfer that runs, and the slot whose firmware runs. -/
structure FwSt where
  xfer : Option (Die × Nat)
  running : Nat
  deriving DecidableEq, Repr

/-- A SANITIZE that runs (R211 to R213): its descriptor, or none for one of an SPDM session, with the port and session that asked;
whether it overwrites DRAM, purges the secrets and then opens debug access (R210), whether the senior's DRBG had stopped, and whether
the keys have been destroyed. -/
structure SaniSt where
  desc : Option (Die × Nat × Nat)
  session : Option (Die × Nat)
  overwrite : Bool
  purge : Bool
  debug : Bool
  entropy : Bool
  destroyed : Bool
  deriving DecidableEq, Repr

/-- The device as a whole: its part, its straps, its mode machine, its flash, and the fuse map it works with (R120); the
change of mode that runs, its trigger, the mode left for HOLD or SANITIZE, the trigger of a wake that came during the entry to HOLD
(Table 16.11), and whether the owner has fused an image-signing key hash into OTP (R373); and the
image that has been booted, where one was valid. -/
structure DevSt where
  part : Part
  straps : Straps
  mode : Mode
  flash : FlashSt
  fuse : List (BitVec 64)
  trans : Option Trans
  trig : Nat
  left : Mode
  wake : Option Nat
  signKey : Bool
  image : Option (List Byte)
  deriving DecidableEq, Repr

/-- The words of a descriptor as the requests bound to it know them (R20). -/
structure BoundDesc where
  range : Nat
  attr : Nat
  place : Nat
  map : Nat
  deriving DecidableEq, Repr

/-- The state of the device. `bound` holds the descriptors that are being disabled as what is bound to them keeps them (R20, R139); `regs` is the setup register file by BAR0 offset, an unlisted register holding its reset
value; `out` is what the device has sent, newest last; `freeCtr` numbers the free values used so far (the model's own
field, log entry 6); `pending` is the queue of the commands that wait, first in first out (the model's own field). -/
structure State where
  bound : NMap BoundDesc
  regs : NMap Word
  east : DieSt
  west : DieSt
  ops : NMap OpSt
  seq : Nat
  nowNs : Nat
  upNs : Nat
  dev : DevSt
  sideband : List EventRec
  cxlOffset : Int
  snapTarget : Option Nat
  ctrgWait : List Nat
  slots : NMap SlotSt
  rots : NMap RotSt
  metaKey : Option (Key × Key)
  msx : MsxSt
  therm : ThermSt
  psg : PsgSt
  todo : List Todo
  serves : NMap ServeSt
  tables : NMap TblSt
  spdm : SpdmSt
  tap : NMap TapSt
  pins : PinSt
  fw : FwSt
  sani : Option SaniSt
  sbXfer : List Byte
  injected : List Nat
  out : List OutMsg
  freeCtr : Nat
  pending : List Instr
  deriving DecidableEq, Repr

/-- Why a step stops with a fault: no command of this block does, so there is no constructor. -/
inductive Fault where
  deriving DecidableEq, Repr

/-- Why a command is refused. -/
inductive Refusal where
  /-- Raised by an arm of `exec` whose command has no meaning yet (safe: the model stops). -/
  | notModelled (mnemonic : String)
  deriving DecidableEq, Repr

/-! ### Reset -/

/-- A bank after reset: closed, with an empty echo table. -/
def BankSt.reset : BankSt := ⟨none, [], [], 0, false, false⟩

/-- A rank after reset: cool, nothing owed, not in self-refresh. The temperature at reset is a DESIGN CHOICE (log
entry 3). -/
def RankSt.reset : RankSt := ⟨0, 0, 0, false, 0, 0, 0, none, false, false, none, none, false, true, false⟩

/-- Lantern's place after reset. -/
def ScrubSt.reset : ScrubSt := ⟨0, 0, 0, 0, [], false⟩

/-- A subchannel after reset. -/
def SubSt.reset : SubSt :=
  { st := .live, rdq := [], wrq := [], writeMode := false, retryq := [], returning := [], replay := [],
    replaying := false, isolating := none, trainFail := none, retCause := none, cmdHeld := false, preaDue := false, r0 := RankSt.reset, r1 := RankSt.reset, banks := [],
    cells := [], fresh := .none, freshFrom := 0, devcnt := [], devSnap := [], scrub := ScrubSt.reset, remap := [], initW := 0,
    demand := [], demandHeld := [], permFails := [], permTotal := 0, permanent := false, trec := [], lastWrNs := 0 }

/-- A channel after reset. -/
def ChanSt.reset : ChanSt :=
  { mxin := [], frozen := none, clockRec := false, fallback := false, tFallback := false, inj := none,
    cmdLog := [], rowSave := none, echoFallback := false, noDrfm := false, adjBad := false, released := false }

/-- The repair units after reset: no live list is formed before TRAIN exit (R134). -/
def SruSt.reset : SruSt :=
  { drip := [], rowRepairs := [], remapCopies := [], evac := none, salvage := none, liveList := [], positions := 0,
    memoryLost := false, spareSub := none, rebuilt := [] }

/-- A submission ring after reset or enable. -/
def SqSt.reset : SqSt := ⟨[], [], 0, 0, 0⟩

/-- A completion or event ring after reset or enable. -/
def CqSt.reset : CqSt := ⟨[], 0, 0, none, false⟩

/-- A CXL event log after reset. -/
def LogSt.reset : LogSt := ⟨[], 1, 0, 0, 0⟩

/-- A host port after reset. -/
def HpcSt.reset : HpcSt :=
  { hxin := [], logs := [], irqPolicy := [], msixMask := [], msixPend := [],
    viralTx := false, hdm := [], hdmErr := [], retrains := [], rate128En := false, partner128 := false, rate128Lost := false,
    alerts := [], pmax := 0, cxl3 := false, width := 0, fullW := 0, replays := 0, target := 0, training := false, ide := none, extOffer := false, lo := false,
    lin := [], cpls := [] }

/-- A flash with no valid copy of anything, as before it is programmed (log entry 3). -/
def FlashSt.reset : FlashSt :=
  ⟨[], [], ⟨false, 0, []⟩, ⟨false, 0, []⟩, false, false, 0, none, [], [], false⟩

/-- A key slot after reset: EMPTY, holding no key (R182). -/
def SlotSt.reset : SlotSt := ⟨.empty, 0, 0, 0, 0, 0, 0, 0, 0, 0⟩

/-- A synthesizer before power good. -/
def SynthSt.reset : SynthSt := ⟨.off, 0, 0, [], none, [], 0, false, 0, false⟩

/-- The counters after reset (R413). -/
def PmcSt.reset : PmcSt := ⟨[], [], [], [], 0, [], false⟩

/-- The thermal request after reset. -/
def ThermSt.reset : ThermSt := ⟨none, 0, 0, false, false⟩

/-- The Passage after reset: the claims are taken from the straps at power good. -/
def PsgSt.reset : PsgSt := ⟨false, false, false, [], true, false, [], none, none, []⟩


/-- An empty directory. -/
def CdrSt.reset : CdrSt := ⟨[], [], [], [], [], [], []⟩

/-- A blank page map entry (R142). -/
def PageEnt.blank : PageEnt := ⟨0, false, false, false, 0, 0, 0, 0, 0, 0, 0⟩

/-- The TME after reset. -/
def TmeSt.reset : TmeSt := ⟨[], [], [], [], [], 0, [], [], [], [], false, none, [], [], [], [], none⟩

/-- A peer context that is not enabled. -/
def CtxSt.reset : CtxSt := ⟨.down, false, 0, 0, false, 0, 0, [], [], 0, 0, [], 0, [], 0, none, 0, 0, 0⟩

/-- A fabric port after reset. -/
def FpcSt.reset : FpcSt := ⟨[], [], none, 0, [], 0, 0, [], []⟩

/-- The SPDM responder after reset. -/
def SpdmSt.reset : SpdmSt := ⟨0, [], [], 4096, none, none, false⟩

/-- The pins before power good (R448). -/
def PinSt.reset : PinSt := ⟨false, false, false, false, true⟩

/-- A test access port after TAP reset: IDCODE is selected (Table 21.6). -/
def TapSt.reset : TapSt := ⟨1, 0, .normal⟩

/-- A queue after reset: DISABLED. -/
def QueueSt.reset : QueueSt := ⟨.disabled, 0, 0, 0, 0, 0, 0, 0, 0, none, none, none⟩

/-- A stage log with nothing in it. -/
def StageLog.empty : StageLog := ⟨[], [], [], [], []⟩

/-- A die after reset. -/
def DieSt.reset : DieSt :=
  { subs := [], chans := [], sru := SruSt.reset, cpr := ⟨[], [], []⟩, frz := [], frzSeq := 0, counts := [], posts := [],
    hpc := HpcSt.reset, cyc := 0, lmeta := [], badNodes := [], nodes := [], ctrs := [], macUnits := [], treeUnits := [], drbg := ⟨0, 0⟩, drbgUsed := 0, drbgSeeds := 0, drbgStopped := false, pmc := PmcSt.reset, cks := [], refLost := false,
    cdr := CdrSt.reset, tme := TmeSt.reset, fpc := FpcSt.reset, pools := [], queues := [], work := [], psgHeld := [] }

/-- The device after reset: before power good, in BOOT, with no command waiting. -/
def State.reset : State :=
  { bound := [], rots := [], regs := [], east := DieSt.reset, west := DieSt.reset, ops := [], seq := 0, nowNs := 0, upNs := 0,
    dev := ⟨.km1624, ⟨false, 3, 1, 1, false⟩, .boot, FlashSt.reset, [], none, 0, .boot, none, false, none⟩, sideband := [], cxlOffset := 0, snapTarget := none,
    ctrgWait := [],
    slots := [], metaKey := none, msx := ⟨none, none, none, none⟩, therm := ThermSt.reset, psg := PsgSt.reset, todo := [], serves := [],
    tables := [], spdm := SpdmSt.reset, tap := [], pins := PinSt.reset, fw := ⟨none, 0⟩, sani := none, sbXfer := [], injected := [],
    out := [], freeCtr := 0, pending := [] }

end Sys2Proof.Machine
end

