-- ==== Sys2Proof/Machine/RegMap.lean ====
section
/-!
DEFINITION. Sys2Proof/Machine/RegMap.lean: the setup register map (chapter 20 and the register sections of every
chapter): the place of every register in BAR0, and the range, access type and reset value of every field.
A field whose reset is "image" carries its factory default here, or 0 where the spec states none (log entry 3).
-/

namespace Sys2Proof.Machine

/-- The offset of a block in its window, Table 20.2. -/
def blockBase : RegBlock → Nat
  | .IDENT => 0x000000 | .CKS => 0x010000 | .HPC => 0x020000 | .FPC => 0x030000 | .PSG => 0x040000
  | .RRM => 0x050000 | .CDR => 0x060000 | .TME => 0x070000 | .CMP => 0x080000 | .CIE => 0x090000
  | .CPR => 0x0A0000 | .LKE => 0x0B0000 | .QUE => 0x0C0000 | .EVT => 0x0D0000 | .PMC => 0x0E0000
  | .MSC => 0x100000 | .CFE => 0x104000 | .CWU => 0x108000 | .SRU => 0x10C000
  | .DEV => 0x800000 | .SEC => 0x810000 | .CFG => 0x820000 | .CTRG => 0x830000 | .RGN => 0x840000

/-- The blocks of the common window (Table 20.1). -/
def blockCommon : RegBlock → Bool
  | .DEV | .SEC | .CFG | .CTRG | .RGN => true
  | .IDENT | .CKS | .HPC | .FPC | .PSG | .RRM | .CDR | .TME | .CMP | .CIE | .CPR | .LKE | .QUE | .EVT | .PMC
  | .MSC | .CFE | .CWU | .SRU => false

/-- The blocks that exist once per channel (R430). -/
def blockChannel : RegBlock → Bool
  | .MSC | .CFE | .CWU | .SRU => true
  | .IDENT | .CKS | .HPC | .FPC | .PSG | .RRM | .CDR | .TME | .CMP | .CIE | .CPR | .LKE | .QUE | .EVT | .PMC
  | .DEV | .SEC | .CFG | .CTRG | .RGN => false

/-- The block, the offset in it, and the stride and number of copies in it, of every register. -/
def regPlace : RegName → RegPlace
  | .CFE_POP => ⟨.CFE, 0x0, 0x0, 1⟩
  | .CFE_STATUS => ⟨.CFE, 0x4, 0x0, 1⟩
  | .CFE_TRAIN_CTRL => ⟨.CFE, 0x8, 0x0, 1⟩
  | .CFE_TRAIN_CRIT => ⟨.CFE, 0xC, 0x0, 1⟩
  | .CFE_DRIFT_CFG => ⟨.CFE, 0x10, 0x0, 1⟩
  | .CFE_WCRC_CFG => ⟨.CFE, 0x14, 0x0, 1⟩
  | .CFE_RESULT_A => ⟨.CFE, 0x20, 0x0, 1⟩
  | .CFE_RESULT_B => ⟨.CFE, 0x24, 0x0, 1⟩
  | .CFE_ERR_STATUS => ⟨.CFE, 0x28, 0x0, 1⟩
  | .CFE_CAPAR_COUNT => ⟨.CFE, 0x2C, 0x0, 1⟩
  | .CFE_WCRC_COUNT => ⟨.CFE, 0x30, 0x0, 1⟩
  | .CFE_TREC_SEL => ⟨.CFE, 0x40, 0x0, 1⟩
  | .CFE_TREC_DATA => ⟨.CFE, 0x44, 0x0, 1⟩
  | .MSC_PORT_PRIO => ⟨.MSC, 0x0, 0x0, 1⟩
  | .MSC_ARB_CFG => ⟨.MSC, 0x4, 0x0, 1⟩
  | .MSC_REF_CFG => ⟨.MSC, 0x8, 0x0, 1⟩
  | .MSC_REF_STATUS => ⟨.MSC, 0xC, 0x0, 1⟩
  | .MSC_DRAM_TEMP => ⟨.MSC, 0x10, 0x0, 1⟩
  | .MSC_QSTAT => ⟨.MSC, 0x14, 0x0, 1⟩
  | .MSC_TIMING => ⟨.MSC, 0x18, 0x0, 1⟩
  | .MSC_ECHO_CFG => ⟨.MSC, 0x20, 0x0, 1⟩
  | .MSC_ECHO_COUNT => ⟨.MSC, 0x24, 0x0, 1⟩
  | .MSC_ADJ_XOR => ⟨.MSC, 0x28, 0x0, 1⟩
  | .MSC_ADJ_MAP0 => ⟨.MSC, 0x2C, 0x0, 1⟩
  | .MSC_ADJ_MAP1 => ⟨.MSC, 0x30, 0x0, 1⟩
  | .MSC_ADJ_MAP2 => ⟨.MSC, 0x34, 0x0, 1⟩
  | .CWU_ERASE => ⟨.CWU, 0x0, 0x0, 1⟩
  | .CWU_STATUS => ⟨.CWU, 0x4, 0x0, 1⟩
  | .CWU_INJ_CTRL => ⟨.CWU, 0x10, 0x0, 1⟩
  | .CWU_INJ_MASK0 => ⟨.CWU, 0x14, 0x0, 1⟩
  | .CWU_INJ_MASK1 => ⟨.CWU, 0x18, 0x0, 1⟩
  | .CWU_INJ_MASK2 => ⟨.CWU, 0x1C, 0x0, 1⟩
  | .CWU_INJ_ADDR_LO => ⟨.CWU, 0x20, 0x0, 1⟩
  | .CWU_INJ_ADDR_HI => ⟨.CWU, 0x24, 0x0, 1⟩
  | .CWU_INJ_STATUS => ⟨.CWU, 0x28, 0x0, 1⟩
  | .CWU_INJ_HIT_LO => ⟨.CWU, 0x2C, 0x0, 1⟩
  | .CWU_INJ_HIT_HI => ⟨.CWU, 0x30, 0x0, 1⟩
  | .CWU_LAST_A => ⟨.CWU, 0x40, 0x0, 1⟩
  | .CWU_LAST_B => ⟨.CWU, 0x44, 0x0, 1⟩
  | .CWU_SYND_A => ⟨.CWU, 0x48, 0x0, 1⟩
  | .CWU_SYND_B => ⟨.CWU, 0x4C, 0x0, 1⟩
  | .CWU_UE_COUNT => ⟨.CWU, 0x50, 0x0, 1⟩
  | .CWU_DEVCNT_SEL => ⟨.CWU, 0x58, 0x0, 1⟩
  | .CWU_DEVCNT_DATA => ⟨.CWU, 0x5C, 0x0, 1⟩
  | .SRU_CFG => ⟨.SRU, 0x0, 0x0, 1⟩
  | .SRU_SCRUB_CFG => ⟨.SRU, 0x4, 0x0, 1⟩
  | .SRU_SCRUB_POS_A => ⟨.SRU, 0x8, 0x0, 1⟩
  | .SRU_SCRUB_POS_B => ⟨.SRU, 0xC, 0x0, 1⟩
  | .SRU_STAT => ⟨.SRU, 0x10, 0x0, 1⟩
  | .SRU_STATUS => ⟨.SRU, 0x14, 0x0, 1⟩
  | .SRU_REPAIR_CFG => ⟨.SRU, 0x18, 0x0, 1⟩
  | .SRU_ERASE_CFG => ⟨.SRU, 0x1C, 0x0, 1⟩
  | .SRU_DRIP_SEL => ⟨.SRU, 0x20, 0x0, 1⟩
  | .SRU_DRIP_DATA => ⟨.SRU, 0x24, 0x0, 1⟩
  | .SRU_REMAP_SEL => ⟨.SRU, 0x28, 0x0, 1⟩
  | .SRU_REMAP_DATA => ⟨.SRU, 0x2C, 0x0, 1⟩
  | .SRU_EVAC_CTRL => ⟨.SRU, 0x30, 0x0, 1⟩
  | .SRU_EVAC_POS => ⟨.SRU, 0x34, 0x0, 1⟩
  | .SRU_RETIRE_CTRL => ⟨.SRU, 0x38, 0x0, 1⟩
  | .RGN_RANGE => ⟨.RGN, 0x0, 0x20, 64⟩
  | .RGN_ATTR => ⟨.RGN, 0x4, 0x20, 64⟩
  | .RGN_PLACE => ⟨.RGN, 0x8, 0x20, 64⟩
  | .RGN_MAP => ⟨.RGN, 0xC, 0x20, 64⟩
  | .RGN_CTRL => ⟨.RGN, 0x10, 0x20, 64⟩
  | .TME_MAP_CFG => ⟨.TME, 0x0, 0x0, 1⟩
  | .TME_POLICY => ⟨.TME, 0x4, 0x0, 1⟩
  | .TME_EPOCH_CFG => ⟨.TME, 0x8, 0x0, 1⟩
  | .TME_T2_CFG => ⟨.TME, 0xC, 0x0, 1⟩
  | .TME_T2_SIZE => ⟨.TME, 0x10, 0x0, 1⟩
  | .TME_POOL_CFG => ⟨.TME, 0x14, 0x0, 1⟩
  | .TME_STAGE_CFG => ⟨.TME, 0x18, 0x0, 1⟩
  | .TME_STAGE_HOST_LO => ⟨.TME, 0x1C, 0x0, 1⟩
  | .TME_STAGE_HOST_HI => ⟨.TME, 0x20, 0x0, 1⟩
  | .TME_STATUS => ⟨.TME, 0x24, 0x0, 1⟩
  | .TME_FREE_FRAMES => ⟨.TME, 0x28, 0x0, 1⟩
  | .TME_INIT_CFG => ⟨.TME, 0x30, 0x0, 1⟩
  | .TME_INIT_SEL => ⟨.TME, 0x34, 0x0, 1⟩
  | .TME_INIT_DATA => ⟨.TME, 0x38, 0x0, 1⟩
  | .CMP_CFG => ⟨.CMP, 0x0, 0x0, 1⟩
  | .CMP_STATUS => ⟨.CMP, 0x4, 0x0, 1⟩
  | .CMP_STAT_SEL => ⟨.CMP, 0x8, 0x0, 1⟩
  | .CMP_STAT_DATA => ⟨.CMP, 0xC, 0x0, 1⟩
  | .SEC_POLICY => ⟨.SEC, 0x0, 0x0, 1⟩
  | .SEC_STATUS => ⟨.SEC, 0x4, 0x0, 1⟩
  | .SEC_ROT_CFG => ⟨.SEC, 0x8, 0x0, 1⟩
  | .SEC_DENY_COUNT => ⟨.SEC, 0xC, 0x0, 1⟩
  | .SEC_SLOT_SEL => ⟨.SEC, 0x10, 0x0, 1⟩
  | .SEC_SLOT_INFO => ⟨.SEC, 0x14, 0x0, 1⟩
  | .SEC_SLOT_DOM => ⟨.SEC, 0x18, 0x0, 1⟩
  | .SEC_SLOT_ROT => ⟨.SEC, 0x1C, 0x0, 1⟩
  | .CIE_INT_CFG => ⟨.CIE, 0x0, 0x0, 1⟩
  | .CIE_STATUS => ⟨.CIE, 0x4, 0x0, 1⟩
  | .CIE_FAIL_COUNT => ⟨.CIE, 0x8, 0x0, 1⟩
  | .CDR_CFG => ⟨.CDR, 0x0, 0x0, 1⟩
  | .CDR_AGENT_MAP => ⟨.CDR, 0x4, 0x0, 1⟩
  | .CDR_STATUS => ⟨.CDR, 0x8, 0x0, 1⟩
  | .CDR_STAT_SEL => ⟨.CDR, 0x10, 0x0, 1⟩
  | .CDR_STAT_DATA => ⟨.CDR, 0x14, 0x0, 1⟩
  | .CDR_PROBE_LO => ⟨.CDR, 0x20, 0x0, 1⟩
  | .CDR_PROBE_HI => ⟨.CDR, 0x24, 0x0, 1⟩
  | .CDR_PROBE_RESULT => ⟨.CDR, 0x28, 0x0, 1⟩
  | .HPC_LINK_CFG => ⟨.HPC, 0x2000, 0x0, 1⟩
  | .HPC_LINK_STATUS => ⟨.HPC, 0x2004, 0x0, 1⟩
  | .HPC_LADDER_CFG => ⟨.HPC, 0x2008, 0x0, 1⟩
  | .HPC_LINK_CTRL => ⟨.HPC, 0x200C, 0x0, 1⟩
  | .HPC_STATUS => ⟨.HPC, 0x2010, 0x0, 1⟩
  | .HPC_COUNT_SEL => ⟨.HPC, 0x2014, 0x0, 1⟩
  | .HPC_COUNT_DATA => ⟨.HPC, 0x2018, 0x0, 1⟩
  | .HPC_INJ_CTRL => ⟨.HPC, 0x2020, 0x0, 1⟩
  | .HPC_INJ_COUNT => ⟨.HPC, 0x2024, 0x0, 1⟩
  | .FPC_NODE => ⟨.FPC, 0x0, 0x0, 1⟩
  | .FPC_MAC_LO => ⟨.FPC, 0x4, 0x0, 1⟩
  | .FPC_MAC_HI => ⟨.FPC, 0x8, 0x0, 1⟩
  | .FPC_PORT_CFG => ⟨.FPC, 0xC, 0x0, 1⟩
  | .FPC_TIMER_CFG => ⟨.FPC, 0x10, 0x0, 1⟩
  | .FPC_PEER_SEL => ⟨.FPC, 0x20, 0x0, 1⟩
  | .FPC_PEER_MAC_LO => ⟨.FPC, 0x24, 0x0, 1⟩
  | .FPC_PEER_CTRL => ⟨.FPC, 0x28, 0x0, 1⟩
  | .FPC_PEER_STAT => ⟨.FPC, 0x2C, 0x0, 1⟩
  | .FPC_STATUS => ⟨.FPC, 0x30, 0x0, 1⟩
  | .FPC_LINK_STATUS => ⟨.FPC, 0x34, 0x0, 1⟩
  | .FPC_COUNT_SEL => ⟨.FPC, 0x40, 0x0, 1⟩
  | .FPC_COUNT_DATA => ⟨.FPC, 0x44, 0x0, 1⟩
  | .FPC_INJ_CTRL => ⟨.FPC, 0x50, 0x0, 1⟩
  | .FPC_INJ_FILTER => ⟨.FPC, 0x54, 0x0, 1⟩
  | .FPC_INJ_COUNT => ⟨.FPC, 0x58, 0x0, 1⟩
  | .CPR_STATUS => ⟨.CPR, 0x0, 0x0, 1⟩
  | .CPR_COUNT_SEL => ⟨.CPR, 0x4, 0x0, 1⟩
  | .CPR_COUNT_DATA => ⟨.CPR, 0x8, 0x0, 1⟩
  | .CPR_SQ_BASE_LO => ⟨.CPR, 0x1000, 0x20, 256⟩
  | .CPR_SQ_BASE_HI => ⟨.CPR, 0x1004, 0x20, 256⟩
  | .CPR_CQ_BASE_LO => ⟨.CPR, 0x3000, 0x20, 256⟩
  | .CPR_CQ_BASE_HI => ⟨.CPR, 0x3004, 0x20, 256⟩
  | .CPR_EQ_BASE_LO => ⟨.CPR, 0x5000, 0x20, 4⟩
  | .CPR_EQ_BASE_HI => ⟨.CPR, 0x5004, 0x20, 4⟩
  | .CPR_SQ_CTRL => ⟨.CPR, 0x1008, 0x20, 256⟩
  | .CPR_SQ_PTR => ⟨.CPR, 0x100C, 0x20, 256⟩
  | .CPR_CQ_PTR => ⟨.CPR, 0x3010, 0x20, 256⟩
  | .CPR_EQ_PTR => ⟨.CPR, 0x5010, 0x20, 4⟩
  | .CPR_CQ_CTRL => ⟨.CPR, 0x3008, 0x20, 256⟩
  | .CPR_EQ_CTRL => ⟨.CPR, 0x5008, 0x20, 4⟩
  | .CPR_CQ_MOD => ⟨.CPR, 0x300C, 0x20, 256⟩
  | .CPR_EQ_MOD => ⟨.CPR, 0x500C, 0x20, 4⟩
  | .CPR_EQ_LOST => ⟨.CPR, 0x5014, 0x20, 4⟩
  | .LKE_CFG => ⟨.LKE, 0x0, 0x0, 1⟩
  | .LKE_STATUS => ⟨.LKE, 0x4, 0x0, 1⟩
  | .LKE_TBL_SEL => ⟨.LKE, 0x10, 0x0, 1⟩
  | .LKE_TBL_INFO => ⟨.LKE, 0x14, 0x0, 1⟩
  | .LKE_TBL_BASE => ⟨.LKE, 0x18, 0x0, 1⟩
  | .LKE_TBL_SIZE => ⟨.LKE, 0x1C, 0x0, 1⟩
  | .LKE_TBL_PUB => ⟨.LKE, 0x20, 0x0, 1⟩
  | .LKE_TBL_KEYS => ⟨.LKE, 0x24, 0x0, 1⟩
  | .LKE_COUNT_SEL => ⟨.LKE, 0x30, 0x0, 1⟩
  | .LKE_COUNT_DATA => ⟨.LKE, 0x34, 0x0, 1⟩
  | .QUE_STATUS => ⟨.QUE, 0x0, 0x0, 1⟩
  | .QUE_POOL_SEL => ⟨.QUE, 0x10, 0x0, 1⟩
  | .QUE_POOL_INFO => ⟨.QUE, 0x14, 0x0, 1⟩
  | .QUE_POOL_BASE => ⟨.QUE, 0x18, 0x0, 1⟩
  | .QUE_POOL_FREE => ⟨.QUE, 0x1C, 0x0, 1⟩
  | .QUE_Q_SEL => ⟨.QUE, 0x30, 0x0, 1⟩
  | .QUE_Q_INFO => ⟨.QUE, 0x34, 0x0, 1⟩
  | .QUE_Q_DEPTH => ⟨.QUE, 0x38, 0x0, 1⟩
  | .QUE_Q_THRESH => ⟨.QUE, 0x3C, 0x0, 1⟩
  | .QUE_Q_DROPS => ⟨.QUE, 0x40, 0x0, 1⟩
  | .QUE_COUNT_SEL => ⟨.QUE, 0x50, 0x0, 1⟩
  | .QUE_COUNT_DATA => ⟨.QUE, 0x54, 0x0, 1⟩
  | .CKS_PLAN => ⟨.CKS, 0x0, 0x100, 4⟩
  | .CKS_COMMIT => ⟨.CKS, 0x4, 0x100, 4⟩
  | .CKS_STATUS => ⟨.CKS, 0x8, 0x100, 4⟩
  | .CKS_LIVE => ⟨.CKS, 0xC, 0x100, 4⟩
  | .CKS_OUT0 => ⟨.CKS, 0x10, 0x100, 4⟩
  | .CKS_OUT1 => ⟨.CKS, 0x14, 0x100, 4⟩
  | .CKS_OUT2 => ⟨.CKS, 0x18, 0x100, 4⟩
  | .CKS_OUT3 => ⟨.CKS, 0x1C, 0x100, 4⟩
  | .CKS_OUT4 => ⟨.CKS, 0x20, 0x100, 4⟩
  | .CKS_OUT5 => ⟨.CKS, 0x24, 0x100, 4⟩
  | .CKS_BAND_SEL => ⟨.CKS, 0x30, 0x100, 4⟩
  | .CKS_BAND_DATA => ⟨.CKS, 0x34, 0x100, 4⟩
  | .CKS_INJ => ⟨.CKS, 0x38, 0x100, 4⟩
  | .CKS_COUNT => ⟨.CKS, 0x3C, 0x100, 4⟩
  | .DEV_MODE => ⟨.DEV, 0x100, 0x0, 1⟩
  | .DEV_MODE_CTRL => ⟨.DEV, 0x104, 0x0, 1⟩
  | .DEV_STATUS => ⟨.DEV, 0x108, 0x0, 1⟩
  | .CFG_STATUS => ⟨.CFG, 0x0, 0x0, 1⟩
  | .PSG_STATUS => ⟨.PSG, 0x0, 0x0, 1⟩
  | .PSG_COUNT => ⟨.PSG, 0x4, 0x0, 1⟩
  | .EVT_FRZ_CFG => ⟨.EVT, 0x0, 0x0, 1⟩
  | .EVT_FRZ_CTRL => ⟨.EVT, 0x4, 0x0, 1⟩
  | .EVT_STATUS => ⟨.EVT, 0x8, 0x0, 1⟩
  | .EVT_FRZ_SEL => ⟨.EVT, 0x10, 0x0, 1⟩
  | .EVT_FRZ_DATA => ⟨.EVT, 0x14, 0x0, 1⟩
  | .EVT_FRZ_INFO => ⟨.EVT, 0x18, 0x0, 1⟩
  | .EVT_PERM_CFG => ⟨.EVT, 0x20, 0x0, 1⟩
  | .EVT_PERM_SEL => ⟨.EVT, 0x24, 0x0, 1⟩
  | .EVT_PERM_DATA => ⟨.EVT, 0x28, 0x0, 1⟩
  | .PMC_CYC_LO => ⟨.PMC, 0x0, 0x0, 1⟩
  | .PMC_CYC_HI => ⟨.PMC, 0x4, 0x0, 1⟩
  | .PMC_OVF_LO => ⟨.PMC, 0x10, 0x0, 1⟩
  | .PMC_OVF_HI => ⟨.PMC, 0x14, 0x0, 1⟩
  | .PMC_THERM_CFG => ⟨.PMC, 0x20, 0x0, 1⟩
  | .PMC_TJ_A => ⟨.PMC, 0x100, 0x0, 1⟩
  | .PMC_TJ_B => ⟨.PMC, 0x104, 0x0, 1⟩
  | .PMC_TJ_SUM => ⟨.PMC, 0x108, 0x0, 1⟩
  | .PMC_THROTTLE => ⟨.PMC, 0x10C, 0x0, 1⟩
  | .PMC_PWR_A => ⟨.PMC, 0x110, 0x0, 1⟩
  | .PMC_PWR_B => ⟨.PMC, 0x114, 0x0, 1⟩
  | .PMC_PWR_C => ⟨.PMC, 0x118, 0x0, 1⟩
  | .PMC_PWR_DIE => ⟨.PMC, 0x11C, 0x0, 1⟩
  | .PMC_CNT_CFG => ⟨.PMC, 0x1000, 0x10, 64⟩
  | .PMC_CNT_LO => ⟨.PMC, 0x1004, 0x10, 64⟩
  | .PMC_CNT_HI => ⟨.PMC, 0x1008, 0x10, 64⟩
  | .PMC_SHD_LO => ⟨.PMC, 0x2000, 0x8, 66⟩
  | .PMC_SHD_HI => ⟨.PMC, 0x2004, 0x8, 66⟩
  | .CTRG_CTRL => ⟨.CTRG, 0x0, 0x0, 1⟩
  | .CTRG_STATUS => ⟨.CTRG, 0x4, 0x0, 1⟩
  | .IDENT_DIE => ⟨.IDENT, 0x0, 0x0, 1⟩
  | .IDENT_UNITS => ⟨.IDENT, 0x4, 0x0, 1⟩
  | .IDENT_UID_LO => ⟨.IDENT, 0x8, 0x0, 1⟩
  | .IDENT_UID_HI => ⟨.IDENT, 0xC, 0x0, 1⟩
  | .DEV_ID => ⟨.DEV, 0x0, 0x0, 1⟩
  | .DEV_CAP => ⟨.DEV, 0x4, 0x0, 1⟩
  | .DEV_IGNORED_COUNT => ⟨.DEV, 0x8, 0x0, 1⟩
  | .RRM_COUNT_SEL => ⟨.RRM, 0x1000, 0x0, 1⟩
  | .RRM_COUNT_DATA => ⟨.RRM, 0x1004, 0x0, 1⟩
  | .RRM_RGN_RANGE => ⟨.RRM, 0x0, 0x20, 64⟩
  | .RRM_RGN_ATTR => ⟨.RRM, 0x4, 0x20, 64⟩
  | .RRM_RGN_PLACE => ⟨.RRM, 0x8, 0x20, 64⟩
  | .RRM_RGN_MAP => ⟨.RRM, 0xC, 0x20, 64⟩
  | .RRM_RGN_CTRL => ⟨.RRM, 0x10, 0x20, 64⟩

def F.CFE_POP.DENSITY : Fld := ⟨.CFE_POP, 0, 2, .RWL, 0⟩
def F.CFE_POP.RANKS : Fld := ⟨.CFE_POP, 2, 1, .RWL, 0⟩
def F.CFE_POP.PKG3DS : Fld := ⟨.CFE_POP, 3, 1, .RWL, 0⟩
def F.CFE_POP.RATE_SEL : Fld := ⟨.CFE_POP, 4, 2, .RWL, 0⟩
def F.CFE_POP.THRIFT_TRAIN : Fld := ⟨.CFE_POP, 6, 1, .RWL, 0⟩
def F.CFE_STATUS.ZQ_PU : Fld := ⟨.CFE_STATUS, 0, 6, .RO, 0⟩
def F.CFE_STATUS.ZQ_PD : Fld := ⟨.CFE_STATUS, 8, 6, .RO, 0⟩
def F.CFE_STATUS.POINT : Fld := ⟨.CFE_STATUS, 16, 2, .RO, 0⟩
def F.CFE_STATUS.RATE_CLAMPED : Fld := ⟨.CFE_STATUS, 18, 1, .RO, 0⟩
def F.CFE_TRAIN_CTRL.REQ_A : Fld := ⟨.CFE_TRAIN_CTRL, 0, 1, .W1S, 0⟩
def F.CFE_TRAIN_CTRL.REQ_B : Fld := ⟨.CFE_TRAIN_CTRL, 1, 1, .W1S, 0⟩
def F.CFE_TRAIN_CTRL.FULL : Fld := ⟨.CFE_TRAIN_CTRL, 2, 1, .RW, 0⟩
def F.CFE_TRAIN_CTRL.RANK_MASK : Fld := ⟨.CFE_TRAIN_CTRL, 4, 2, .RW, 3⟩
def F.CFE_TRAIN_CTRL.BUSY : Fld := ⟨.CFE_TRAIN_CTRL, 8, 1, .RO, 0⟩
def F.CFE_TRAIN_CTRL.REFUSED : Fld := ⟨.CFE_TRAIN_CTRL, 9, 1, .W1C, 0⟩
def F.CFE_TRAIN_CRIT.DQ_WIDTH : Fld := ⟨.CFE_TRAIN_CRIT, 0, 6, .RWL, 20⟩
def F.CFE_TRAIN_CRIT.CA_WIDTH : Fld := ⟨.CFE_TRAIN_CRIT, 6, 6, .RWL, 23⟩
def F.CFE_TRAIN_CRIT.DQ_HEIGHT : Fld := ⟨.CFE_TRAIN_CRIT, 12, 8, .RWL, 40⟩
def F.CFE_TRAIN_CRIT.CA_HEIGHT : Fld := ⟨.CFE_TRAIN_CRIT, 20, 8, .RWL, 60⟩
def F.CFE_DRIFT_CFG.PERIOD : Fld := ⟨.CFE_DRIFT_CFG, 0, 8, .RW, 16⟩
def F.CFE_DRIFT_CFG.ADJ : Fld := ⟨.CFE_DRIFT_CFG, 8, 6, .RW, 2⟩
def F.CFE_DRIFT_CFG.RETRAIN : Fld := ⟨.CFE_DRIFT_CFG, 16, 6, .RW, 8⟩
def F.CFE_DRIFT_CFG.TEMP_DELTA : Fld := ⟨.CFE_DRIFT_CFG, 24, 6, .RW, 10⟩
def F.CFE_WCRC_CFG.EN : Fld := ⟨.CFE_WCRC_CFG, 0, 1, .RW, 1⟩
def F.CFE_WCRC_CFG.WINDOW : Fld := ⟨.CFE_WCRC_CFG, 8, 8, .RW, 64⟩
def F.CFE_WCRC_CFG.MAX_RETRY : Fld := ⟨.CFE_WCRC_CFG, 16, 2, .RW, 3⟩
def F.CFE_RESULT_A.RANK0_FAIL : Fld := ⟨.CFE_RESULT_A, 0, 11, .RO, 0⟩
def F.CFE_RESULT_A.T_FALLBACK : Fld := ⟨.CFE_RESULT_A, 11, 1, .RO, 0⟩
def F.CFE_RESULT_A.RANK1_FAIL : Fld := ⟨.CFE_RESULT_A, 16, 11, .RO, 0⟩
def F.CFE_RESULT_A.CA_FAIL : Fld := ⟨.CFE_RESULT_A, 28, 1, .RO, 0⟩
def F.CFE_RESULT_A.ZQ_FAIL : Fld := ⟨.CFE_RESULT_A, 29, 1, .RO, 0⟩
def F.CFE_RESULT_A.FALLBACK : Fld := ⟨.CFE_RESULT_A, 30, 1, .RO, 0⟩
def F.CFE_RESULT_A.RETIRED : Fld := ⟨.CFE_RESULT_A, 31, 1, .RO, 0⟩
def F.CFE_RESULT_B.RANK0_FAIL : Fld := ⟨.CFE_RESULT_B, 0, 11, .RO, 0⟩
def F.CFE_RESULT_B.T_FALLBACK : Fld := ⟨.CFE_RESULT_B, 11, 1, .RO, 0⟩
def F.CFE_RESULT_B.RANK1_FAIL : Fld := ⟨.CFE_RESULT_B, 16, 11, .RO, 0⟩
def F.CFE_RESULT_B.CA_FAIL : Fld := ⟨.CFE_RESULT_B, 28, 1, .RO, 0⟩
def F.CFE_RESULT_B.ZQ_FAIL : Fld := ⟨.CFE_RESULT_B, 29, 1, .RO, 0⟩
def F.CFE_RESULT_B.FALLBACK : Fld := ⟨.CFE_RESULT_B, 30, 1, .RO, 0⟩
def F.CFE_RESULT_B.RETIRED : Fld := ⟨.CFE_RESULT_B, 31, 1, .RO, 0⟩
def F.CFE_ERR_STATUS.CAPAR_A : Fld := ⟨.CFE_ERR_STATUS, 0, 1, .W1C, 0⟩
def F.CFE_ERR_STATUS.CAPAR_B : Fld := ⟨.CFE_ERR_STATUS, 1, 1, .W1C, 0⟩
def F.CFE_ERR_STATUS.WCRC_RETRY_A : Fld := ⟨.CFE_ERR_STATUS, 2, 1, .W1C, 0⟩
def F.CFE_ERR_STATUS.WCRC_RETRY_B : Fld := ⟨.CFE_ERR_STATUS, 3, 1, .W1C, 0⟩
def F.CFE_ERR_STATUS.WCRC_EXH_A : Fld := ⟨.CFE_ERR_STATUS, 4, 1, .W1C, 0⟩
def F.CFE_ERR_STATUS.WCRC_EXH_B : Fld := ⟨.CFE_ERR_STATUS, 5, 1, .W1C, 0⟩
def F.CFE_ERR_STATUS.ALERT_UNEXPL_A : Fld := ⟨.CFE_ERR_STATUS, 6, 1, .W1C, 0⟩
def F.CFE_ERR_STATUS.ALERT_UNEXPL_B : Fld := ⟨.CFE_ERR_STATUS, 7, 1, .W1C, 0⟩
def F.CFE_ERR_STATUS.DRIFT_RT_A : Fld := ⟨.CFE_ERR_STATUS, 8, 1, .W1C, 0⟩
def F.CFE_ERR_STATUS.DRIFT_RT_B : Fld := ⟨.CFE_ERR_STATUS, 9, 1, .W1C, 0⟩
def F.CFE_CAPAR_COUNT.COUNT_A : Fld := ⟨.CFE_CAPAR_COUNT, 0, 16, .RO, 0⟩
def F.CFE_CAPAR_COUNT.COUNT_B : Fld := ⟨.CFE_CAPAR_COUNT, 16, 16, .RO, 0⟩
def F.CFE_WCRC_COUNT.COUNT_A : Fld := ⟨.CFE_WCRC_COUNT, 0, 16, .RO, 0⟩
def F.CFE_WCRC_COUNT.COUNT_B : Fld := ⟨.CFE_WCRC_COUNT, 16, 16, .RO, 0⟩
def F.CFE_TREC_SEL.SUB : Fld := ⟨.CFE_TREC_SEL, 0, 1, .RW, 0⟩
def F.CFE_TREC_SEL.RANK : Fld := ⟨.CFE_TREC_SEL, 1, 1, .RW, 0⟩
def F.CFE_TREC_SEL.POINT : Fld := ⟨.CFE_TREC_SEL, 2, 1, .RW, 0⟩
def F.CFE_TREC_SEL.WORD : Fld := ⟨.CFE_TREC_SEL, 8, 8, .RW, 0⟩
def F.CFE_TREC_DATA.DATA : Fld := ⟨.CFE_TREC_DATA, 0, 32, .RO, 0⟩
def F.MSC_PORT_PRIO.LKE : Fld := ⟨.MSC_PORT_PRIO, 0, 2, .RWL, 3⟩
def F.MSC_PORT_PRIO.QUE : Fld := ⟨.MSC_PORT_PRIO, 2, 2, .RWL, 3⟩
def F.MSC_PORT_PRIO.TME : Fld := ⟨.MSC_PORT_PRIO, 4, 2, .RWL, 1⟩
def F.MSC_PORT_PRIO.SRU : Fld := ⟨.MSC_PORT_PRIO, 6, 2, .RWL, 0⟩
def F.MSC_PORT_PRIO.CPR : Fld := ⟨.MSC_PORT_PRIO, 8, 2, .RWL, 2⟩
def F.MSC_ARB_CFG.AGE_CAP : Fld := ⟨.MSC_ARB_CFG, 0, 16, .RWL, 4096⟩
def F.MSC_ARB_CFG.WR_HI : Fld := ⟨.MSC_ARB_CFG, 16, 6, .RWL, 48⟩
def F.MSC_ARB_CFG.WR_LO : Fld := ⟨.MSC_ARB_CFG, 24, 6, .RWL, 16⟩
def F.MSC_REF_CFG.POSTPONE : Fld := ⟨.MSC_REF_CFG, 0, 1, .RWL, 1⟩
def F.MSC_REF_CFG.MR4_PERIOD : Fld := ⟨.MSC_REF_CFG, 8, 8, .RWL, 32⟩
def F.MSC_REF_STATUS.OWED_A0 : Fld := ⟨.MSC_REF_STATUS, 0, 4, .RO, 0⟩
def F.MSC_REF_STATUS.HOT_A0 : Fld := ⟨.MSC_REF_STATUS, 4, 1, .RO, 0⟩
def F.MSC_REF_STATUS.OWED_A1 : Fld := ⟨.MSC_REF_STATUS, 8, 4, .RO, 0⟩
def F.MSC_REF_STATUS.HOT_A1 : Fld := ⟨.MSC_REF_STATUS, 12, 1, .RO, 0⟩
def F.MSC_REF_STATUS.OWED_B0 : Fld := ⟨.MSC_REF_STATUS, 16, 4, .RO, 0⟩
def F.MSC_REF_STATUS.HOT_B0 : Fld := ⟨.MSC_REF_STATUS, 20, 1, .RO, 0⟩
def F.MSC_REF_STATUS.OWED_B1 : Fld := ⟨.MSC_REF_STATUS, 24, 4, .RO, 0⟩
def F.MSC_REF_STATUS.HOT_B1 : Fld := ⟨.MSC_REF_STATUS, 28, 1, .RO, 0⟩
def F.MSC_DRAM_TEMP.TEMP_A0 : Fld := ⟨.MSC_DRAM_TEMP, 0, 8, .RO, 0⟩
def F.MSC_DRAM_TEMP.TEMP_A1 : Fld := ⟨.MSC_DRAM_TEMP, 8, 8, .RO, 0⟩
def F.MSC_DRAM_TEMP.TEMP_B0 : Fld := ⟨.MSC_DRAM_TEMP, 16, 8, .RO, 0⟩
def F.MSC_DRAM_TEMP.TEMP_B1 : Fld := ⟨.MSC_DRAM_TEMP, 24, 8, .RO, 0⟩
def F.MSC_QSTAT.RDQ_A : Fld := ⟨.MSC_QSTAT, 0, 7, .RO, 0⟩
def F.MSC_QSTAT.WRQ_A : Fld := ⟨.MSC_QSTAT, 8, 7, .RO, 0⟩
def F.MSC_QSTAT.DRAIN_A : Fld := ⟨.MSC_QSTAT, 15, 1, .RO, 0⟩
def F.MSC_QSTAT.RDQ_B : Fld := ⟨.MSC_QSTAT, 16, 7, .RO, 0⟩
def F.MSC_QSTAT.WRQ_B : Fld := ⟨.MSC_QSTAT, 24, 7, .RO, 0⟩
def F.MSC_QSTAT.DRAIN_B : Fld := ⟨.MSC_QSTAT, 31, 1, .RO, 0⟩
def F.MSC_TIMING.CL : Fld := ⟨.MSC_TIMING, 0, 8, .RO, 0⟩
def F.MSC_TIMING.TRCD : Fld := ⟨.MSC_TIMING, 8, 8, .RO, 0⟩
def F.MSC_TIMING.TRP : Fld := ⟨.MSC_TIMING, 16, 8, .RO, 0⟩
def F.MSC_TIMING.TRFC2 : Fld := ⟨.MSC_TIMING, 24, 8, .RO, 0⟩
def F.MSC_ECHO_CFG.EN : Fld := ⟨.MSC_ECHO_CFG, 0, 1, .RWL, 1⟩
def F.MSC_ECHO_CFG.NEIGH2 : Fld := ⟨.MSC_ECHO_CFG, 1, 1, .RWL, 0⟩
def F.MSC_ECHO_CFG.METHOD : Fld := ⟨.MSC_ECHO_CFG, 2, 1, .RWL, 0⟩
def F.MSC_ECHO_CFG.THRESH : Fld := ⟨.MSC_ECHO_CFG, 16, 15, .RWL, 2048⟩
def F.MSC_ECHO_COUNT.COUNT_A : Fld := ⟨.MSC_ECHO_COUNT, 0, 16, .RO, 0⟩
def F.MSC_ECHO_COUNT.COUNT_B : Fld := ⟨.MSC_ECHO_COUNT, 16, 16, .RO, 0⟩
def F.MSC_ADJ_XOR.XOR : Fld := ⟨.MSC_ADJ_XOR, 0, 18, .RWL, 0⟩
def F.MSC_ADJ_MAP0.SRC0 : Fld := ⟨.MSC_ADJ_MAP0, 0, 5, .RWL, 0⟩
def F.MSC_ADJ_MAP0.SRC1 : Fld := ⟨.MSC_ADJ_MAP0, 5, 5, .RWL, 1⟩
def F.MSC_ADJ_MAP0.SRC2 : Fld := ⟨.MSC_ADJ_MAP0, 10, 5, .RWL, 2⟩
def F.MSC_ADJ_MAP0.SRC3 : Fld := ⟨.MSC_ADJ_MAP0, 15, 5, .RWL, 3⟩
def F.MSC_ADJ_MAP0.SRC4 : Fld := ⟨.MSC_ADJ_MAP0, 20, 5, .RWL, 4⟩
def F.MSC_ADJ_MAP0.SRC5 : Fld := ⟨.MSC_ADJ_MAP0, 25, 5, .RWL, 5⟩
def F.MSC_ADJ_MAP1.SRC0 : Fld := ⟨.MSC_ADJ_MAP1, 0, 5, .RWL, 6⟩
def F.MSC_ADJ_MAP1.SRC1 : Fld := ⟨.MSC_ADJ_MAP1, 5, 5, .RWL, 7⟩
def F.MSC_ADJ_MAP1.SRC2 : Fld := ⟨.MSC_ADJ_MAP1, 10, 5, .RWL, 8⟩
def F.MSC_ADJ_MAP1.SRC3 : Fld := ⟨.MSC_ADJ_MAP1, 15, 5, .RWL, 9⟩
def F.MSC_ADJ_MAP1.SRC4 : Fld := ⟨.MSC_ADJ_MAP1, 20, 5, .RWL, 10⟩
def F.MSC_ADJ_MAP1.SRC5 : Fld := ⟨.MSC_ADJ_MAP1, 25, 5, .RWL, 11⟩
def F.MSC_ADJ_MAP2.SRC0 : Fld := ⟨.MSC_ADJ_MAP2, 0, 5, .RWL, 12⟩
def F.MSC_ADJ_MAP2.SRC1 : Fld := ⟨.MSC_ADJ_MAP2, 5, 5, .RWL, 13⟩
def F.MSC_ADJ_MAP2.SRC2 : Fld := ⟨.MSC_ADJ_MAP2, 10, 5, .RWL, 14⟩
def F.MSC_ADJ_MAP2.SRC3 : Fld := ⟨.MSC_ADJ_MAP2, 15, 5, .RWL, 15⟩
def F.MSC_ADJ_MAP2.SRC4 : Fld := ⟨.MSC_ADJ_MAP2, 20, 5, .RWL, 16⟩
def F.MSC_ADJ_MAP2.SRC5 : Fld := ⟨.MSC_ADJ_MAP2, 25, 5, .RWL, 17⟩
def F.CWU_ERASE.DEV_A0 : Fld := ⟨.CWU_ERASE, 0, 4, .RW, 0⟩
def F.CWU_ERASE.VALID_A0 : Fld := ⟨.CWU_ERASE, 7, 1, .W1S, 0⟩
def F.CWU_ERASE.DEV_A1 : Fld := ⟨.CWU_ERASE, 8, 4, .RW, 0⟩
def F.CWU_ERASE.VALID_A1 : Fld := ⟨.CWU_ERASE, 15, 1, .W1S, 0⟩
def F.CWU_ERASE.DEV_B0 : Fld := ⟨.CWU_ERASE, 16, 4, .RW, 0⟩
def F.CWU_ERASE.VALID_B0 : Fld := ⟨.CWU_ERASE, 23, 1, .W1S, 0⟩
def F.CWU_ERASE.DEV_B1 : Fld := ⟨.CWU_ERASE, 24, 4, .RW, 0⟩
def F.CWU_ERASE.VALID_B1 : Fld := ⟨.CWU_ERASE, 31, 1, .W1S, 0⟩
def F.CWU_STATUS.ADDR_A : Fld := ⟨.CWU_STATUS, 0, 1, .W1C, 0⟩
def F.CWU_STATUS.ADDR_B : Fld := ⟨.CWU_STATUS, 1, 1, .W1C, 0⟩
def F.CWU_STATUS.UE_A : Fld := ⟨.CWU_STATUS, 2, 1, .W1C, 0⟩
def F.CWU_STATUS.UE_B : Fld := ⟨.CWU_STATUS, 3, 1, .W1C, 0⟩
def F.CWU_STATUS.POISON_A : Fld := ⟨.CWU_STATUS, 4, 1, .W1C, 0⟩
def F.CWU_STATUS.POISON_B : Fld := ⟨.CWU_STATUS, 5, 1, .W1C, 0⟩
def F.CWU_STATUS.ERASE_REFUSED : Fld := ⟨.CWU_STATUS, 6, 1, .W1C, 0⟩
def F.CWU_INJ_CTRL.ARM : Fld := ⟨.CWU_INJ_CTRL, 0, 1, .W1S, 0⟩
def F.CWU_INJ_CTRL.DISARM : Fld := ⟨.CWU_INJ_CTRL, 1, 1, .W1S, 0⟩
def F.CWU_INJ_CTRL.ARMED : Fld := ⟨.CWU_INJ_CTRL, 2, 1, .RO, 0⟩
def F.CWU_INJ_CTRL.SUB : Fld := ⟨.CWU_INJ_CTRL, 3, 1, .RW, 0⟩
def F.CWU_INJ_CTRL.WORD : Fld := ⟨.CWU_INJ_CTRL, 4, 3, .RW, 0⟩
def F.CWU_INJ_CTRL.FLIP_EN : Fld := ⟨.CWU_INJ_CTRL, 7, 1, .RW, 0⟩
def F.CWU_INJ_CTRL.SKEW_EN : Fld := ⟨.CWU_INJ_CTRL, 8, 1, .RW, 0⟩
def F.CWU_INJ_CTRL.MATCH_EN : Fld := ⟨.CWU_INJ_CTRL, 9, 1, .RW, 0⟩
def F.CWU_INJ_CTRL.SKEW : Fld := ⟨.CWU_INJ_CTRL, 16, 16, .RW, 0⟩
def F.CWU_INJ_MASK0.MASK : Fld := ⟨.CWU_INJ_MASK0, 0, 32, .RW, 0⟩
def F.CWU_INJ_MASK1.MASK : Fld := ⟨.CWU_INJ_MASK1, 0, 32, .RW, 0⟩
def F.CWU_INJ_MASK2.MASK : Fld := ⟨.CWU_INJ_MASK2, 0, 24, .RW, 0⟩
def F.CWU_INJ_ADDR_LO.H_LO : Fld := ⟨.CWU_INJ_ADDR_LO, 0, 32, .RW, 0⟩
def F.CWU_INJ_ADDR_HI.H_HI : Fld := ⟨.CWU_INJ_ADDR_HI, 0, 4, .RW, 0⟩
def F.CWU_INJ_STATUS.DONE : Fld := ⟨.CWU_INJ_STATUS, 0, 1, .W1C, 0⟩
def F.CWU_INJ_STATUS.SUB : Fld := ⟨.CWU_INJ_STATUS, 1, 1, .RO, 0⟩
def F.CWU_INJ_STATUS.WORD : Fld := ⟨.CWU_INJ_STATUS, 2, 3, .RO, 0⟩
def F.CWU_INJ_HIT_LO.H_LO : Fld := ⟨.CWU_INJ_HIT_LO, 0, 32, .RO, 0⟩
def F.CWU_INJ_HIT_HI.H_HI : Fld := ⟨.CWU_INJ_HIT_HI, 0, 4, .RO, 0⟩
def F.CWU_LAST_A.OUTCOME : Fld := ⟨.CWU_LAST_A, 0, 3, .RO, 0⟩
def F.CWU_LAST_A.ERASURE : Fld := ⟨.CWU_LAST_A, 3, 1, .RO, 0⟩
def F.CWU_LAST_A.POSITION : Fld := ⟨.CWU_LAST_A, 4, 4, .RO, 0⟩
def F.CWU_LAST_A.WORD : Fld := ⟨.CWU_LAST_A, 8, 3, .RO, 0⟩
def F.CWU_LAST_A.RANK : Fld := ⟨.CWU_LAST_A, 11, 1, .RO, 0⟩
def F.CWU_LAST_B.OUTCOME : Fld := ⟨.CWU_LAST_B, 0, 3, .RO, 0⟩
def F.CWU_LAST_B.ERASURE : Fld := ⟨.CWU_LAST_B, 3, 1, .RO, 0⟩
def F.CWU_LAST_B.POSITION : Fld := ⟨.CWU_LAST_B, 4, 4, .RO, 0⟩
def F.CWU_LAST_B.WORD : Fld := ⟨.CWU_LAST_B, 8, 3, .RO, 0⟩
def F.CWU_LAST_B.RANK : Fld := ⟨.CWU_LAST_B, 11, 1, .RO, 0⟩
def F.CWU_SYND_A.S0 : Fld := ⟨.CWU_SYND_A, 0, 8, .RO, 0⟩
def F.CWU_SYND_A.S1 : Fld := ⟨.CWU_SYND_A, 8, 8, .RO, 0⟩
def F.CWU_SYND_A.S2 : Fld := ⟨.CWU_SYND_A, 16, 8, .RO, 0⟩
def F.CWU_SYND_B.S0 : Fld := ⟨.CWU_SYND_B, 0, 8, .RO, 0⟩
def F.CWU_SYND_B.S1 : Fld := ⟨.CWU_SYND_B, 8, 8, .RO, 0⟩
def F.CWU_SYND_B.S2 : Fld := ⟨.CWU_SYND_B, 16, 8, .RO, 0⟩
def F.CWU_UE_COUNT.ADDR_A : Fld := ⟨.CWU_UE_COUNT, 0, 8, .RO, 0⟩
def F.CWU_UE_COUNT.UE_A : Fld := ⟨.CWU_UE_COUNT, 8, 8, .RO, 0⟩
def F.CWU_UE_COUNT.ADDR_B : Fld := ⟨.CWU_UE_COUNT, 16, 8, .RO, 0⟩
def F.CWU_UE_COUNT.UE_B : Fld := ⟨.CWU_UE_COUNT, 24, 8, .RO, 0⟩
def F.CWU_DEVCNT_SEL.DEV : Fld := ⟨.CWU_DEVCNT_SEL, 0, 4, .RW, 0⟩
def F.CWU_DEVCNT_SEL.RANK : Fld := ⟨.CWU_DEVCNT_SEL, 4, 1, .RW, 0⟩
def F.CWU_DEVCNT_SEL.SUB : Fld := ⟨.CWU_DEVCNT_SEL, 5, 1, .RW, 0⟩
def F.CWU_DEVCNT_SEL.CLEAR : Fld := ⟨.CWU_DEVCNT_SEL, 8, 1, .W1S, 0⟩
def F.CWU_DEVCNT_DATA.COUNT : Fld := ⟨.CWU_DEVCNT_DATA, 0, 32, .RO, 0⟩
def F.SRU_CFG.SPARE_A : Fld := ⟨.SRU_CFG, 0, 1, .RWL, 0⟩
def F.SRU_CFG.SPARE_B : Fld := ⟨.SRU_CFG, 1, 1, .RWL, 0⟩
def F.SRU_SCRUB_CFG.PERIOD_H : Fld := ⟨.SRU_SCRUB_CFG, 0, 10, .RW, 24⟩
def F.SRU_SCRUB_CFG.EN : Fld := ⟨.SRU_SCRUB_CFG, 16, 1, .RW, 1⟩
def F.SRU_SCRUB_POS_A.Q : Fld := ⟨.SRU_SCRUB_POS_A, 0, 29, .RO, 0⟩
def F.SRU_SCRUB_POS_A.LINE : Fld := ⟨.SRU_SCRUB_POS_A, 29, 2, .RO, 0⟩
def F.SRU_SCRUB_POS_B.Q : Fld := ⟨.SRU_SCRUB_POS_B, 0, 29, .RO, 0⟩
def F.SRU_SCRUB_POS_B.LINE : Fld := ⟨.SRU_SCRUB_POS_B, 29, 2, .RO, 0⟩
def F.SRU_STAT.PASSES : Fld := ⟨.SRU_STAT, 0, 8, .RO, 0⟩
def F.SRU_STAT.TRANSIENT : Fld := ⟨.SRU_STAT, 8, 8, .RO, 0⟩
def F.SRU_STAT.DRIP_DROP : Fld := ⟨.SRU_STAT, 16, 8, .RO, 0⟩
def F.SRU_STAT.POISONED : Fld := ⟨.SRU_STAT, 24, 8, .RO, 0⟩
def F.SRU_STATUS.BEHIND_A : Fld := ⟨.SRU_STATUS, 0, 1, .W1C, 0⟩
def F.SRU_STATUS.BEHIND_B : Fld := ⟨.SRU_STATUS, 1, 1, .W1C, 0⟩
def F.SRU_STATUS.SCRUB_UE_A : Fld := ⟨.SRU_STATUS, 2, 1, .W1C, 0⟩
def F.SRU_STATUS.SCRUB_UE_B : Fld := ⟨.SRU_STATUS, 3, 1, .W1C, 0⟩
def F.SRU_STATUS.DRIP_FULL : Fld := ⟨.SRU_STATUS, 4, 1, .W1C, 0⟩
def F.SRU_STATUS.REPAIR_EXH_A : Fld := ⟨.SRU_STATUS, 5, 1, .W1C, 0⟩
def F.SRU_STATUS.REPAIR_EXH_B : Fld := ⟨.SRU_STATUS, 6, 1, .W1C, 0⟩
def F.SRU_REPAIR_CFG.PRIMARY : Fld := ⟨.SRU_REPAIR_CFG, 0, 1, .RW, 0⟩
def F.SRU_REPAIR_CFG.RUN_SPPR : Fld := ⟨.SRU_REPAIR_CFG, 1, 1, .RW, 1⟩
def F.SRU_REPAIR_CFG.HARD_PPR : Fld := ⟨.SRU_REPAIR_CFG, 2, 1, .RW, 0⟩
def F.SRU_REPAIR_CFG.N_DEMAND : Fld := ⟨.SRU_REPAIR_CFG, 4, 4, .RW, 3⟩
def F.SRU_REPAIR_CFG.REMAP_RESERVE : Fld := ⟨.SRU_REPAIR_CFG, 8, 5, .RW, 4⟩
def F.SRU_ERASE_CFG.THRESH : Fld := ⟨.SRU_ERASE_CFG, 0, 16, .RW, 256⟩
def F.SRU_ERASE_CFG.WINDOW_S : Fld := ⟨.SRU_ERASE_CFG, 16, 8, .RW, 60⟩
def F.SRU_ERASE_CFG.EN : Fld := ⟨.SRU_ERASE_CFG, 24, 1, .RW, 1⟩
def F.SRU_DRIP_SEL.ENTRY : Fld := ⟨.SRU_DRIP_SEL, 0, 6, .RW, 0⟩
def F.SRU_DRIP_SEL.WORD : Fld := ⟨.SRU_DRIP_SEL, 8, 2, .RW, 0⟩
def F.SRU_DRIP_DATA.DATA : Fld := ⟨.SRU_DRIP_DATA, 0, 32, .RO, 0⟩
def F.SRU_REMAP_SEL.ENTRY : Fld := ⟨.SRU_REMAP_SEL, 0, 5, .RW, 0⟩
def F.SRU_REMAP_SEL.SUB : Fld := ⟨.SRU_REMAP_SEL, 5, 1, .RW, 0⟩
def F.SRU_REMAP_SEL.HALF : Fld := ⟨.SRU_REMAP_SEL, 8, 1, .RW, 0⟩
def F.SRU_REMAP_DATA.DATA : Fld := ⟨.SRU_REMAP_DATA, 0, 32, .RO, 0⟩
def F.SRU_EVAC_CTRL.START_A : Fld := ⟨.SRU_EVAC_CTRL, 0, 1, .W1S, 0⟩
def F.SRU_EVAC_CTRL.START_B : Fld := ⟨.SRU_EVAC_CTRL, 1, 1, .W1S, 0⟩
def F.SRU_EVAC_CTRL.ACTIVE : Fld := ⟨.SRU_EVAC_CTRL, 2, 1, .RO, 0⟩
def F.SRU_EVAC_CTRL.RATE : Fld := ⟨.SRU_EVAC_CTRL, 8, 8, .RW, 8⟩
def F.SRU_EVAC_CTRL.PRIO : Fld := ⟨.SRU_EVAC_CTRL, 16, 2, .RW, 2⟩
def F.SRU_EVAC_POS.Q : Fld := ⟨.SRU_EVAC_POS, 0, 29, .RO, 0⟩
def F.SRU_RETIRE_CTRL.SALVAGE_HOLD : Fld := ⟨.SRU_RETIRE_CTRL, 0, 1, .RW, 0⟩
def F.SRU_RETIRE_CTRL.RELEASE : Fld := ⟨.SRU_RETIRE_CTRL, 1, 1, .W1S, 0⟩
def F.SRU_RETIRE_CTRL.SALVAGE : Fld := ⟨.SRU_RETIRE_CTRL, 2, 1, .RO, 0⟩
def F.SRU_RETIRE_CTRL.SALVAGE_MS : Fld := ⟨.SRU_RETIRE_CTRL, 16, 16, .RW, 2000⟩
def F.RGN_RANGE.BASE : Fld := ⟨.RGN_RANGE, 0, 13, .RW, 0⟩
def F.RGN_RANGE.LIMIT : Fld := ⟨.RGN_RANGE, 16, 13, .RW, 0⟩
def F.RGN_ATTR.LAYOUT : Fld := ⟨.RGN_ATTR, 0, 1, .RW, 0⟩
def F.RGN_ATTR.HOME : Fld := ⟨.RGN_ATTR, 1, 1, .RW, 0⟩
def F.RGN_ATTR.MIRROR : Fld := ⟨.RGN_ATTR, 2, 1, .RW, 0⟩
def F.RGN_ATTR.INTEGRITY : Fld := ⟨.RGN_ATTR, 3, 2, .RW, 0⟩
def F.RGN_ATTR.HINT : Fld := ⟨.RGN_ATTR, 5, 1, .RW, 0⟩
def F.RGN_ATTR.PRIO : Fld := ⟨.RGN_ATTR, 6, 2, .RW, 0⟩
def F.RGN_ATTR.COHERENT : Fld := ⟨.RGN_ATTR, 8, 1, .RW, 0⟩
def F.RGN_ATTR.OWNER : Fld := ⟨.RGN_ATTR, 9, 2, .RW, 0⟩
def F.RGN_ATTR.FABRIC_READ : Fld := ⟨.RGN_ATTR, 11, 1, .RW, 0⟩
def F.RGN_ATTR.FABRIC_WRITE : Fld := ⟨.RGN_ATTR, 12, 1, .RW, 0⟩
def F.RGN_ATTR.KEY_SLOT : Fld := ⟨.RGN_ATTR, 16, 8, .RW, 0⟩
def F.RGN_PLACE.DPA_G : Fld := ⟨.RGN_PLACE, 0, 11, .RW, 0⟩
def F.RGN_PLACE.BACK_GIB : Fld := ⟨.RGN_PLACE, 16, 11, .RW, 0⟩
def F.RGN_MAP.MAP_G : Fld := ⟨.RGN_MAP, 0, 14, .RW, 0⟩
def F.RGN_CTRL.ENABLE : Fld := ⟨.RGN_CTRL, 0, 1, .RW, 0⟩
def F.RGN_CTRL.BUSY : Fld := ⟨.RGN_CTRL, 1, 1, .RO, 0⟩
def F.RGN_CTRL.REFUSED : Fld := ⟨.RGN_CTRL, 2, 1, .W1C, 0⟩
def F.RGN_CTRL.REASON : Fld := ⟨.RGN_CTRL, 4, 4, .RO, 0⟩
def F.TME_MAP_CFG.MAP_GIB : Fld := ⟨.TME_MAP_CFG, 0, 14, .RWL, 0⟩
def F.TME_POLICY.COLD1 : Fld := ⟨.TME_POLICY, 0, 4, .RW, 1⟩
def F.TME_POLICY.COLD1_LOW : Fld := ⟨.TME_POLICY, 4, 4, .RW, 3⟩
def F.TME_POLICY.HOT : Fld := ⟨.TME_POLICY, 8, 4, .RW, 8⟩
def F.TME_POLICY.COLD2 : Fld := ⟨.TME_POLICY, 12, 4, .RW, 0⟩
def F.TME_POLICY.T2_AGE : Fld := ⟨.TME_POLICY, 16, 8, .RW, 16⟩
def F.TME_POLICY.SWEEP_EP : Fld := ⟨.TME_POLICY, 24, 6, .RW, 8⟩
def F.TME_POLICY.EN : Fld := ⟨.TME_POLICY, 31, 1, .RW, 1⟩
def F.TME_EPOCH_CFG.EPOCH_MS : Fld := ⟨.TME_EPOCH_CFG, 0, 16, .RW, 1000⟩
def F.TME_T2_CFG.NODE : Fld := ⟨.TME_T2_CFG, 0, 12, .RWL, 0⟩
def F.TME_T2_CFG.BASE_G : Fld := ⟨.TME_T2_CFG, 16, 13, .RWL, 0⟩
def F.TME_T2_SIZE.SIZE_G : Fld := ⟨.TME_T2_SIZE, 0, 14, .RWL, 0⟩
def F.TME_POOL_CFG.LOW_FRAMES : Fld := ⟨.TME_POOL_CFG, 0, 16, .RW, 64⟩
def F.TME_POOL_CFG.WAIT_US : Fld := ⟨.TME_POOL_CFG, 16, 12, .RW, 100⟩
def F.TME_STAGE_CFG.KIND : Fld := ⟨.TME_STAGE_CFG, 0, 2, .RW, 0⟩
def F.TME_STAGE_CFG.DPA_G : Fld := ⟨.TME_STAGE_CFG, 2, 11, .RW, 0⟩
def F.TME_STAGE_HOST_LO.ADDR : Fld := ⟨.TME_STAGE_HOST_LO, 12, 20, .RW, 0⟩
def F.TME_STAGE_HOST_HI.ADDR : Fld := ⟨.TME_STAGE_HOST_HI, 0, 32, .RW, 0⟩
def F.TME_STATUS.EPOCH : Fld := ⟨.TME_STATUS, 0, 8, .RO, 0⟩
def F.TME_STATUS.MOVES : Fld := ⟨.TME_STATUS, 8, 7, .RO, 0⟩
def F.TME_STATUS.REHOME : Fld := ⟨.TME_STATUS, 16, 1, .RO, 0⟩
def F.TME_STATUS.REHOME_DONE : Fld := ⟨.TME_STATUS, 17, 1, .W1C, 0⟩
def F.TME_STATUS.FRAMES_LOW : Fld := ⟨.TME_STATUS, 18, 1, .W1C, 0⟩
def F.TME_STATUS.T2_FULL : Fld := ⟨.TME_STATUS, 19, 1, .W1C, 0⟩
def F.TME_STATUS.INIT_DONE : Fld := ⟨.TME_STATUS, 20, 1, .RO, 0⟩
def F.TME_FREE_FRAMES.COUNT : Fld := ⟨.TME_FREE_FRAMES, 0, 32, .RO, 0⟩
def F.TME_INIT_CFG.PRIO : Fld := ⟨.TME_INIT_CFG, 0, 2, .RW, 1⟩
def F.TME_INIT_SEL.SUB : Fld := ⟨.TME_INIT_SEL, 0, 4, .RW, 0⟩
def F.TME_INIT_DATA.W : Fld := ⟨.TME_INIT_DATA, 0, 30, .RO, 0⟩
def F.TME_INIT_DATA.FULL : Fld := ⟨.TME_INIT_DATA, 31, 1, .RO, 0⟩
def F.CMP_CFG.MAX_CLASS : Fld := ⟨.CMP_CFG, 0, 2, .RW, 3⟩
def F.CMP_CFG.OPEN_MAX : Fld := ⟨.CMP_CFG, 8, 7, .RW, 64⟩
def F.CMP_STATUS.FORMAT : Fld := ⟨.CMP_STATUS, 0, 1, .W1C, 0⟩
def F.CMP_STATUS.CRC : Fld := ⟨.CMP_STATUS, 1, 1, .W1C, 0⟩
def F.CMP_STATUS.OPEN : Fld := ⟨.CMP_STATUS, 8, 7, .RO, 0⟩
def F.CMP_STAT_SEL.SEL : Fld := ⟨.CMP_STAT_SEL, 0, 4, .RW, 0⟩
def F.CMP_STAT_DATA.COUNT : Fld := ⟨.CMP_STAT_DATA, 0, 32, .RO, 0⟩
def F.SEC_POLICY.LOCKDOWN : Fld := ⟨.SEC_POLICY, 0, 1, .W1S, 0⟩
def F.SEC_POLICY.IDE_REQ : Fld := ⟨.SEC_POLICY, 1, 1, .RWL, 0⟩
def F.SEC_POLICY.DEBUG_UNLOCKED : Fld := ⟨.SEC_POLICY, 2, 1, .RO, 0⟩
def F.SEC_STATUS.ENTROPY_FAIL : Fld := ⟨.SEC_STATUS, 0, 1, .W1C, 0⟩
def F.SEC_STATUS.SANITIZING : Fld := ⟨.SEC_STATUS, 1, 1, .RO, 0⟩
def F.SEC_STATUS.SESSION : Fld := ⟨.SEC_STATUS, 2, 1, .RO, 0⟩
def F.SEC_STATUS.DENIED : Fld := ⟨.SEC_STATUS, 3, 1, .W1C, 0⟩
def F.SEC_ROT_CFG.RATE : Fld := ⟨.SEC_ROT_CFG, 0, 8, .RW, 4⟩
def F.SEC_DENY_COUNT.COUNT : Fld := ⟨.SEC_DENY_COUNT, 0, 32, .RO, 0⟩
def F.SEC_SLOT_SEL.SLOT : Fld := ⟨.SEC_SLOT_SEL, 0, 8, .RW, 0⟩
def F.SEC_SLOT_INFO.STATE : Fld := ⟨.SEC_SLOT_INFO, 0, 2, .RO, 0⟩
def F.SEC_SLOT_INFO.BIND : Fld := ⟨.SEC_SLOT_INFO, 2, 3, .RO, 0⟩
def F.SEC_SLOT_INFO.REGIONS : Fld := ⟨.SEC_SLOT_INFO, 5, 7, .RO, 0⟩
def F.SEC_SLOT_INFO.EPOCH : Fld := ⟨.SEC_SLOT_INFO, 16, 16, .RO, 0⟩
def F.SEC_SLOT_DOM.DOMAIN : Fld := ⟨.SEC_SLOT_DOM, 0, 16, .RO, 0⟩
def F.SEC_SLOT_ROT.REGION : Fld := ⟨.SEC_SLOT_ROT, 0, 6, .RO, 0⟩
def F.SEC_SLOT_ROT.OFFSET : Fld := ⟨.SEC_SLOT_ROT, 8, 24, .RO, 0⟩
def F.CIE_INT_CFG.MAC_GIB : Fld := ⟨.CIE_INT_CFG, 0, 11, .RWL, 0⟩
def F.CIE_INT_CFG.REPLAY : Fld := ⟨.CIE_INT_CFG, 16, 3, .RWL, 0⟩
def F.CIE_STATUS.MAC_FAIL : Fld := ⟨.CIE_STATUS, 0, 1, .W1C, 0⟩
def F.CIE_STATUS.TREE_FAIL : Fld := ⟨.CIE_STATUS, 1, 1, .W1C, 0⟩
def F.CIE_FAIL_COUNT.MAC_RETRY : Fld := ⟨.CIE_FAIL_COUNT, 0, 12, .RO, 0⟩
def F.CIE_FAIL_COUNT.MAC : Fld := ⟨.CIE_FAIL_COUNT, 12, 12, .RO, 0⟩
def F.CIE_FAIL_COUNT.TREE : Fld := ⟨.CIE_FAIL_COUNT, 24, 8, .RO, 0⟩
def F.CDR_CFG.AWAIT_US : Fld := ⟨.CDR_CFG, 0, 8, .RWL, 8⟩
def F.CDR_CFG.PIN_MAX : Fld := ⟨.CDR_CFG, 8, 4, .RWL, 12⟩
def F.CDR_CFG.RETRY_CC : Fld := ⟨.CDR_CFG, 16, 8, .RWL, 64⟩
def F.CDR_CFG.SNP_TO : Fld := ⟨.CDR_CFG, 24, 8, .RWL, 125⟩
def F.CDR_AGENT_MAP.AGENT_0 : Fld := ⟨.CDR_AGENT_MAP, 0, 4, .RWL, 0⟩
def F.CDR_AGENT_MAP.AGENT_1 : Fld := ⟨.CDR_AGENT_MAP, 4, 4, .RWL, 0⟩
def F.CDR_AGENT_MAP.AGENT_2 : Fld := ⟨.CDR_AGENT_MAP, 8, 4, .RWL, 0⟩
def F.CDR_AGENT_MAP.AGENT_3 : Fld := ⟨.CDR_AGENT_MAP, 12, 4, .RWL, 0⟩
def F.CDR_AGENT_MAP.AGENT_4 : Fld := ⟨.CDR_AGENT_MAP, 16, 4, .RWL, 0⟩
def F.CDR_AGENT_MAP.AGENT_5 : Fld := ⟨.CDR_AGENT_MAP, 20, 4, .RWL, 0⟩
def F.CDR_AGENT_MAP.AGENT_6 : Fld := ⟨.CDR_AGENT_MAP, 24, 4, .RWL, 0⟩
def F.CDR_AGENT_MAP.AGENT_7 : Fld := ⟨.CDR_AGENT_MAP, 28, 4, .RWL, 0⟩
def F.CDR_STATUS.AWAIT_TO : Fld := ⟨.CDR_STATUS, 0, 1, .W1C, 0⟩
def F.CDR_STATUS.SNP_TO : Fld := ⟨.CDR_STATUS, 1, 1, .W1C, 0⟩
def F.CDR_STATUS.MAP_REFUSED : Fld := ⟨.CDR_STATUS, 2, 1, .W1C, 0⟩
def F.CDR_STATUS.PORT_DROP : Fld := ⟨.CDR_STATUS, 3, 1, .W1C, 0⟩
def F.CDR_STATUS.WALK : Fld := ⟨.CDR_STATUS, 8, 1, .RO, 0⟩
def F.CDR_STAT_SEL.SEL : Fld := ⟨.CDR_STAT_SEL, 0, 4, .RW, 0⟩
def F.CDR_STAT_DATA.COUNT : Fld := ⟨.CDR_STAT_DATA, 0, 32, .RO, 0⟩
def F.CDR_PROBE_LO.DLA_LO : Fld := ⟨.CDR_PROBE_LO, 6, 26, .RW, 0⟩
def F.CDR_PROBE_HI.DLA_HI : Fld := ⟨.CDR_PROBE_HI, 0, 11, .RW, 0⟩
def F.CDR_PROBE_HI.GO : Fld := ⟨.CDR_PROBE_HI, 31, 1, .W1S, 0⟩
def F.CDR_PROBE_RESULT.STATE : Fld := ⟨.CDR_PROBE_RESULT, 0, 2, .RO, 0⟩
def F.CDR_PROBE_RESULT.AWAIT : Fld := ⟨.CDR_PROBE_RESULT, 2, 1, .RO, 0⟩
def F.CDR_PROBE_RESULT.PINNED : Fld := ⟨.CDR_PROBE_RESULT, 3, 1, .RO, 0⟩
def F.CDR_PROBE_RESULT.OWNER : Fld := ⟨.CDR_PROBE_RESULT, 4, 4, .RO, 0⟩
def F.CDR_PROBE_RESULT.DONE : Fld := ⟨.CDR_PROBE_RESULT, 8, 1, .RO, 0⟩
def F.CDR_PROBE_RESULT.NOT_HOME : Fld := ⟨.CDR_PROBE_RESULT, 9, 1, .RO, 0⟩
def F.CDR_PROBE_RESULT.SHARERS : Fld := ⟨.CDR_PROBE_RESULT, 16, 16, .RO, 0⟩
def F.HPC_LINK_CFG.MAX_RATE : Fld := ⟨.HPC_LINK_CFG, 0, 2, .RW, 2⟩
def F.HPC_LINK_CFG.LO_FLIT : Fld := ⟨.HPC_LINK_CFG, 2, 1, .RW, 1⟩
def F.HPC_LINK_CFG.WIDTH_CAP : Fld := ⟨.HPC_LINK_CFG, 3, 1, .RW, 0⟩
def F.HPC_LINK_CFG.EN : Fld := ⟨.HPC_LINK_CFG, 4, 1, .RW, 0⟩
def F.HPC_LINK_CFG.REUP_S : Fld := ⟨.HPC_LINK_CFG, 8, 8, .RW, 10⟩
def F.HPC_LINK_STATUS.UP : Fld := ⟨.HPC_LINK_STATUS, 0, 1, .RO, 0⟩
def F.HPC_LINK_STATUS.RATE : Fld := ⟨.HPC_LINK_STATUS, 1, 2, .RO, 0⟩
def F.HPC_LINK_STATUS.WIDTH : Fld := ⟨.HPC_LINK_STATUS, 3, 1, .RO, 0⟩
def F.HPC_LINK_STATUS.FLIT : Fld := ⟨.HPC_LINK_STATUS, 4, 2, .RO, 0⟩
def F.HPC_LINK_STATUS.HDM_DB : Fld := ⟨.HPC_LINK_STATUS, 6, 1, .RO, 0⟩
def F.HPC_LINK_STATUS.IDE_SECURE : Fld := ⟨.HPC_LINK_STATUS, 7, 1, .RO, 0⟩
def F.HPC_LINK_STATUS.RUNG : Fld := ⟨.HPC_LINK_STATUS, 8, 3, .RO, 0⟩
def F.HPC_LADDER_CFG.RETRY_MAX : Fld := ⟨.HPC_LADDER_CFG, 0, 4, .RW, 4⟩
def F.HPC_LADDER_CFG.RETRAIN_MAX : Fld := ⟨.HPC_LADDER_CFG, 4, 4, .RW, 3⟩
def F.HPC_LADDER_CFG.WINDOW_MS : Fld := ⟨.HPC_LADDER_CFG, 8, 16, .RW, 1000⟩
def F.HPC_LINK_CTRL.RETRAIN : Fld := ⟨.HPC_LINK_CTRL, 0, 1, .W1S, 0⟩
def F.HPC_LINK_CTRL.DOWN : Fld := ⟨.HPC_LINK_CTRL, 1, 1, .W1S, 0⟩
def F.HPC_LINK_CTRL.REUP : Fld := ⟨.HPC_LINK_CTRL, 2, 1, .W1S, 0⟩
def F.HPC_STATUS.RETRAINED : Fld := ⟨.HPC_STATUS, 0, 1, .W1C, 0⟩
def F.HPC_STATUS.FELL_BACK : Fld := ⟨.HPC_STATUS, 1, 1, .W1C, 0⟩
def F.HPC_STATUS.WENT_DOWN : Fld := ⟨.HPC_STATUS, 2, 1, .W1C, 0⟩
def F.HPC_STATUS.COH_REFUSED : Fld := ⟨.HPC_STATUS, 3, 1, .W1C, 0⟩
def F.HPC_STATUS.IDE_FAIL : Fld := ⟨.HPC_STATUS, 4, 1, .W1C, 0⟩
def F.HPC_STATUS.VIRAL_RX : Fld := ⟨.HPC_STATUS, 5, 1, .W1C, 0⟩
def F.HPC_STATUS.BAD_ACC : Fld := ⟨.HPC_STATUS, 6, 1, .W1C, 0⟩
def F.HPC_STATUS.INJ_DONE : Fld := ⟨.HPC_STATUS, 7, 1, .W1C, 0⟩
def F.HPC_COUNT_SEL.SEL : Fld := ⟨.HPC_COUNT_SEL, 0, 3, .RW, 0⟩
def F.HPC_COUNT_DATA.COUNT : Fld := ⟨.HPC_COUNT_DATA, 0, 32, .RO, 0⟩
def F.HPC_INJ_CTRL.ARM : Fld := ⟨.HPC_INJ_CTRL, 0, 1, .W1S, 0⟩
def F.HPC_INJ_CTRL.DISARM : Fld := ⟨.HPC_INJ_CTRL, 1, 1, .W1S, 0⟩
def F.HPC_INJ_CTRL.ARMED : Fld := ⟨.HPC_INJ_CTRL, 2, 1, .RO, 0⟩
def F.HPC_INJ_CTRL.MODE : Fld := ⟨.HPC_INJ_CTRL, 3, 1, .RW, 0⟩
def F.HPC_INJ_CTRL.KIND : Fld := ⟨.HPC_INJ_CTRL, 4, 2, .RW, 0⟩
def F.HPC_INJ_CTRL.EXEMPT : Fld := ⟨.HPC_INJ_CTRL, 6, 1, .RW, 0⟩
def F.HPC_INJ_CTRL.RATE : Fld := ⟨.HPC_INJ_CTRL, 8, 5, .RW, 0⟩
def F.HPC_INJ_COUNT.COUNT : Fld := ⟨.HPC_INJ_COUNT, 0, 32, .RO, 0⟩
def F.FPC_NODE.NODE : Fld := ⟨.FPC_NODE, 0, 12, .RWL, 0⟩
def F.FPC_NODE.FABRIC_EN : Fld := ⟨.FPC_NODE, 16, 1, .RWL, 0⟩
def F.FPC_MAC_LO.MAC_LO : Fld := ⟨.FPC_MAC_LO, 0, 32, .RWL, 0⟩
def F.FPC_MAC_HI.MAC_HI : Fld := ⟨.FPC_MAC_HI, 0, 16, .RWL, 0⟩
def F.FPC_PORT_CFG.EN : Fld := ⟨.FPC_PORT_CFG, 0, 1, .RW, 0⟩
def F.FPC_PORT_CFG.VLAN_EN : Fld := ⟨.FPC_PORT_CFG, 1, 1, .RW, 0⟩
def F.FPC_PORT_CFG.PCP : Fld := ⟨.FPC_PORT_CFG, 2, 3, .RW, 0⟩
def F.FPC_PORT_CFG.VID : Fld := ⟨.FPC_PORT_CFG, 16, 12, .RW, 0⟩
def F.FPC_TIMER_CFG.RTO_US : Fld := ⟨.FPC_TIMER_CFG, 0, 8, .RW, 50⟩
def F.FPC_TIMER_CFG.ACK_DELAY_US : Fld := ⟨.FPC_TIMER_CFG, 8, 4, .RW, 2⟩
def F.FPC_TIMER_CFG.UNREACH_N : Fld := ⟨.FPC_TIMER_CFG, 12, 6, .RW, 16⟩
def F.FPC_TIMER_CFG.HB_MS : Fld := ⟨.FPC_TIMER_CFG, 20, 4, .RW, 1⟩
def F.FPC_TIMER_CFG.HB_MISS : Fld := ⟨.FPC_TIMER_CFG, 24, 4, .RW, 8⟩
def F.FPC_TIMER_CFG.PROBE : Fld := ⟨.FPC_TIMER_CFG, 28, 4, .RW, 4⟩
def F.FPC_PEER_SEL.NODE : Fld := ⟨.FPC_PEER_SEL, 0, 12, .RW, 0⟩
def F.FPC_PEER_MAC_LO.MAC_LO : Fld := ⟨.FPC_PEER_MAC_LO, 0, 32, .RW, 0⟩
def F.FPC_PEER_CTRL.MAC_HI : Fld := ⟨.FPC_PEER_CTRL, 0, 16, .RW, 0⟩
def F.FPC_PEER_CTRL.EN : Fld := ⟨.FPC_PEER_CTRL, 16, 1, .RW, 0⟩
def F.FPC_PEER_CTRL.PORT : Fld := ⟨.FPC_PEER_CTRL, 17, 1, .RW, 0⟩
def F.FPC_PEER_CTRL.PAYLOAD_4K : Fld := ⟨.FPC_PEER_CTRL, 18, 1, .RW, 0⟩
def F.FPC_PEER_CTRL.RESET : Fld := ⟨.FPC_PEER_CTRL, 19, 1, .W1S, 0⟩
def F.FPC_PEER_CTRL.STATE : Fld := ⟨.FPC_PEER_CTRL, 20, 3, .RO, 0⟩
def F.FPC_PEER_CTRL.SESSION : Fld := ⟨.FPC_PEER_CTRL, 24, 4, .RO, 0⟩
def F.FPC_PEER_STAT.INFLIGHT : Fld := ⟨.FPC_PEER_STAT, 0, 16, .RO, 0⟩
def F.FPC_PEER_STAT.RETX : Fld := ⟨.FPC_PEER_STAT, 16, 16, .RO, 0⟩
def F.FPC_STATUS.LINK_DOWN : Fld := ⟨.FPC_STATUS, 0, 1, .W1C, 0⟩
def F.FPC_STATUS.PEER_LOST : Fld := ⟨.FPC_STATUS, 1, 1, .W1C, 0⟩
def F.FPC_STATUS.MACSEC_DROP : Fld := ⟨.FPC_STATUS, 2, 1, .W1C, 0⟩
def F.FPC_STATUS.BAD_FRAME : Fld := ⟨.FPC_STATUS, 3, 1, .W1C, 0⟩
def F.FPC_STATUS.INJ_DONE : Fld := ⟨.FPC_STATUS, 4, 1, .W1C, 0⟩
def F.FPC_STATUS.REORDER_FULL : Fld := ⟨.FPC_STATUS, 5, 1, .W1C, 0⟩
def F.FPC_LINK_STATUS.UP : Fld := ⟨.FPC_LINK_STATUS, 0, 1, .RO, 0⟩
def F.FPC_LINK_STATUS.SECURE : Fld := ⟨.FPC_LINK_STATUS, 1, 1, .RO, 0⟩
def F.FPC_LINK_STATUS.UP_PEERS : Fld := ⟨.FPC_LINK_STATUS, 16, 12, .RO, 0⟩
def F.FPC_COUNT_SEL.SEL : Fld := ⟨.FPC_COUNT_SEL, 0, 4, .RW, 0⟩
def F.FPC_COUNT_DATA.COUNT : Fld := ⟨.FPC_COUNT_DATA, 0, 32, .RO, 0⟩
def F.FPC_INJ_CTRL.ARM : Fld := ⟨.FPC_INJ_CTRL, 0, 1, .W1S, 0⟩
def F.FPC_INJ_CTRL.DISARM : Fld := ⟨.FPC_INJ_CTRL, 1, 1, .W1S, 0⟩
def F.FPC_INJ_CTRL.ARMED : Fld := ⟨.FPC_INJ_CTRL, 2, 1, .RO, 0⟩
def F.FPC_INJ_CTRL.MODE : Fld := ⟨.FPC_INJ_CTRL, 3, 1, .RW, 0⟩
def F.FPC_INJ_CTRL.KIND : Fld := ⟨.FPC_INJ_CTRL, 4, 3, .RW, 0⟩
def F.FPC_INJ_CTRL.DIR : Fld := ⟨.FPC_INJ_CTRL, 7, 1, .RW, 0⟩
def F.FPC_INJ_CTRL.RATE : Fld := ⟨.FPC_INJ_CTRL, 8, 5, .RW, 0⟩
def F.FPC_INJ_CTRL.DELAY_US : Fld := ⟨.FPC_INJ_CTRL, 16, 7, .RW, 0⟩
def F.FPC_INJ_FILTER.NODE : Fld := ⟨.FPC_INJ_FILTER, 0, 12, .RW, 0⟩
def F.FPC_INJ_FILTER.NODE_EN : Fld := ⟨.FPC_INJ_FILTER, 12, 1, .RW, 0⟩
def F.FPC_INJ_FILTER.OP : Fld := ⟨.FPC_INJ_FILTER, 16, 8, .RW, 0⟩
def F.FPC_INJ_FILTER.OP_EN : Fld := ⟨.FPC_INJ_FILTER, 24, 1, .RW, 0⟩
def F.FPC_INJ_COUNT.COUNT : Fld := ⟨.FPC_INJ_COUNT, 0, 32, .RO, 0⟩
def F.CPR_STATUS.BAD_DB : Fld := ⟨.CPR_STATUS, 0, 1, .W1C, 0⟩
def F.CPR_STATUS.FETCH_ERR : Fld := ⟨.CPR_STATUS, 1, 1, .W1C, 0⟩
def F.CPR_STATUS.WRITE_ERR : Fld := ⟨.CPR_STATUS, 2, 1, .W1C, 0⟩
def F.CPR_STATUS.RING_REFUSED : Fld := ⟨.CPR_STATUS, 3, 1, .W1C, 0⟩
def F.CPR_STATUS.EQ_OVERFLOW : Fld := ⟨.CPR_STATUS, 4, 1, .W1C, 0⟩
def F.CPR_STATUS.REASON : Fld := ⟨.CPR_STATUS, 8, 4, .RO, 0⟩
def F.CPR_COUNT_SEL.SEL : Fld := ⟨.CPR_COUNT_SEL, 0, 3, .RW, 0⟩
def F.CPR_COUNT_DATA.COUNT : Fld := ⟨.CPR_COUNT_DATA, 0, 32, .RO, 0⟩
def F.CPR_SQ_BASE_LO.BASE_LO : Fld := ⟨.CPR_SQ_BASE_LO, 12, 20, .RW, 0⟩
def F.CPR_SQ_BASE_HI.BASE_HI : Fld := ⟨.CPR_SQ_BASE_HI, 0, 32, .RW, 0⟩
def F.CPR_CQ_BASE_LO.BASE_LO : Fld := ⟨.CPR_CQ_BASE_LO, 12, 20, .RW, 0⟩
def F.CPR_CQ_BASE_HI.BASE_HI : Fld := ⟨.CPR_CQ_BASE_HI, 0, 32, .RW, 0⟩
def F.CPR_EQ_BASE_LO.BASE_LO : Fld := ⟨.CPR_EQ_BASE_LO, 12, 20, .RW, 0⟩
def F.CPR_EQ_BASE_HI.BASE_HI : Fld := ⟨.CPR_EQ_BASE_HI, 0, 32, .RW, 0⟩
def F.CPR_SQ_CTRL.EN : Fld := ⟨.CPR_SQ_CTRL, 0, 1, .RW, 0⟩
def F.CPR_SQ_CTRL.BUSY : Fld := ⟨.CPR_SQ_CTRL, 1, 1, .RO, 0⟩
def F.CPR_SQ_CTRL.ERROR : Fld := ⟨.CPR_SQ_CTRL, 2, 1, .RO, 0⟩
def F.CPR_SQ_CTRL.LOG2SIZE : Fld := ⟨.CPR_SQ_CTRL, 3, 5, .RW, 0⟩
def F.CPR_SQ_CTRL.CQ : Fld := ⟨.CPR_SQ_CTRL, 8, 8, .RW, 0⟩
def F.CPR_SQ_CTRL.DOMAIN : Fld := ⟨.CPR_SQ_CTRL, 16, 4, .RW, 0⟩
def F.CPR_SQ_CTRL.KEY_ADMIN : Fld := ⟨.CPR_SQ_CTRL, 20, 1, .RW, 0⟩
def F.CPR_SQ_PTR.HEAD : Fld := ⟨.CPR_SQ_PTR, 0, 16, .RO, 0⟩
def F.CPR_SQ_PTR.TAIL : Fld := ⟨.CPR_SQ_PTR, 16, 16, .RO, 0⟩
def F.CPR_CQ_PTR.HEAD : Fld := ⟨.CPR_CQ_PTR, 0, 16, .RO, 0⟩
def F.CPR_CQ_PTR.TAIL : Fld := ⟨.CPR_CQ_PTR, 16, 16, .RO, 0⟩
def F.CPR_EQ_PTR.HEAD : Fld := ⟨.CPR_EQ_PTR, 0, 16, .RO, 0⟩
def F.CPR_EQ_PTR.TAIL : Fld := ⟨.CPR_EQ_PTR, 16, 16, .RO, 0⟩
def F.CPR_CQ_CTRL.EN : Fld := ⟨.CPR_CQ_CTRL, 0, 1, .RW, 0⟩
def F.CPR_CQ_CTRL.BUSY : Fld := ⟨.CPR_CQ_CTRL, 1, 1, .RO, 0⟩
def F.CPR_CQ_CTRL.ERROR : Fld := ⟨.CPR_CQ_CTRL, 2, 1, .RO, 0⟩
def F.CPR_CQ_CTRL.LOG2SIZE : Fld := ⟨.CPR_CQ_CTRL, 3, 5, .RW, 0⟩
def F.CPR_CQ_CTRL.IRQ_EN : Fld := ⟨.CPR_CQ_CTRL, 8, 1, .RW, 0⟩
def F.CPR_CQ_CTRL.VECTOR : Fld := ⟨.CPR_CQ_CTRL, 9, 9, .RW, 0⟩
def F.CPR_CQ_CTRL.PHASE : Fld := ⟨.CPR_CQ_CTRL, 31, 1, .RO, 0⟩
def F.CPR_EQ_CTRL.EN : Fld := ⟨.CPR_EQ_CTRL, 0, 1, .RW, 0⟩
def F.CPR_EQ_CTRL.BUSY : Fld := ⟨.CPR_EQ_CTRL, 1, 1, .RO, 0⟩
def F.CPR_EQ_CTRL.ERROR : Fld := ⟨.CPR_EQ_CTRL, 2, 1, .RO, 0⟩
def F.CPR_EQ_CTRL.LOG2SIZE : Fld := ⟨.CPR_EQ_CTRL, 3, 5, .RW, 0⟩
def F.CPR_EQ_CTRL.IRQ_EN : Fld := ⟨.CPR_EQ_CTRL, 8, 1, .RW, 0⟩
def F.CPR_EQ_CTRL.VECTOR : Fld := ⟨.CPR_EQ_CTRL, 9, 9, .RW, 0⟩
def F.CPR_EQ_CTRL.SEV_MASK : Fld := ⟨.CPR_EQ_CTRL, 18, 5, .RW, 0⟩
def F.CPR_EQ_CTRL.PHASE : Fld := ⟨.CPR_EQ_CTRL, 31, 1, .RO, 0⟩
def F.CPR_CQ_MOD.COUNT : Fld := ⟨.CPR_CQ_MOD, 0, 8, .RW, 1⟩
def F.CPR_CQ_MOD.TIME_US : Fld := ⟨.CPR_CQ_MOD, 8, 16, .RW, 1⟩
def F.CPR_EQ_MOD.COUNT : Fld := ⟨.CPR_EQ_MOD, 0, 8, .RW, 1⟩
def F.CPR_EQ_MOD.TIME_US : Fld := ⟨.CPR_EQ_MOD, 8, 16, .RW, 1⟩
def F.CPR_EQ_LOST.COUNT : Fld := ⟨.CPR_EQ_LOST, 0, 32, .RO, 0⟩
def F.LKE_CFG.MAX_DEPTH : Fld := ⟨.LKE_CFG, 0, 3, .RW, 4⟩
def F.LKE_STATUS.FORMAT : Fld := ⟨.LKE_STATUS, 0, 1, .W1C, 0⟩
def F.LKE_STATUS.STAGE_FULL : Fld := ⟨.LKE_STATUS, 1, 1, .W1C, 0⟩
def F.LKE_STATUS.TABLE_FULL : Fld := ⟨.LKE_STATUS, 2, 1, .W1C, 0⟩
def F.LKE_STATUS.CLEANUP : Fld := ⟨.LKE_STATUS, 8, 1, .RO, 0⟩
def F.LKE_TBL_SEL.TABLE : Fld := ⟨.LKE_TBL_SEL, 0, 6, .RW, 0⟩
def F.LKE_TBL_INFO.VALID : Fld := ⟨.LKE_TBL_INFO, 0, 1, .RO, 0⟩
def F.LKE_TBL_INFO.TYPE : Fld := ⟨.LKE_TBL_INFO, 1, 2, .RO, 0⟩
def F.LKE_TBL_INFO.HINT : Fld := ⟨.LKE_TBL_INFO, 3, 1, .RO, 0⟩
def F.LKE_TBL_INFO.REGION : Fld := ⟨.LKE_TBL_INFO, 4, 6, .RO, 0⟩
def F.LKE_TBL_INFO.KEY_LEN : Fld := ⟨.LKE_TBL_INFO, 10, 6, .RO, 0⟩
def F.LKE_TBL_INFO.LOG2NB : Fld := ⟨.LKE_TBL_INFO, 16, 5, .RO, 0⟩
def F.LKE_TBL_INFO.STAGE_OPEN : Fld := ⟨.LKE_TBL_INFO, 21, 1, .RO, 0⟩
def F.LKE_TBL_INFO.CLEANUP : Fld := ⟨.LKE_TBL_INFO, 22, 1, .RO, 0⟩
def F.LKE_TBL_INFO.SEEDED : Fld := ⟨.LKE_TBL_INFO, 23, 1, .RO, 0⟩
def F.LKE_TBL_BASE.BASE : Fld := ⟨.LKE_TBL_BASE, 0, 22, .RO, 0⟩
def F.LKE_TBL_SIZE.SIZE : Fld := ⟨.LKE_TBL_SIZE, 0, 17, .RO, 0⟩
def F.LKE_TBL_PUB.PUB : Fld := ⟨.LKE_TBL_PUB, 0, 16, .RO, 0⟩
def F.LKE_TBL_PUB.LOG : Fld := ⟨.LKE_TBL_PUB, 16, 16, .RO, 0⟩
def F.LKE_TBL_KEYS.COUNT : Fld := ⟨.LKE_TBL_KEYS, 0, 32, .RO, 0⟩
def F.LKE_COUNT_SEL.SEL : Fld := ⟨.LKE_COUNT_SEL, 0, 4, .RW, 0⟩
def F.LKE_COUNT_DATA.COUNT : Fld := ⟨.LKE_COUNT_DATA, 0, 32, .RO, 0⟩
def F.QUE_STATUS.QFAULT : Fld := ⟨.QUE_STATUS, 0, 1, .W1C, 0⟩
def F.QUE_STATUS.LEAK : Fld := ⟨.QUE_STATUS, 1, 1, .W1C, 0⟩
def F.QUE_STATUS.POOL_LOW : Fld := ⟨.QUE_STATUS, 2, 1, .W1C, 0⟩
def F.QUE_STATUS.FLUSHING : Fld := ⟨.QUE_STATUS, 8, 1, .RO, 0⟩
def F.QUE_POOL_SEL.POOL : Fld := ⟨.QUE_POOL_SEL, 0, 3, .RW, 0⟩
def F.QUE_POOL_INFO.VALID : Fld := ⟨.QUE_POOL_INFO, 0, 1, .RO, 0⟩
def F.QUE_POOL_INFO.REGION : Fld := ⟨.QUE_POOL_INFO, 1, 6, .RO, 0⟩
def F.QUE_POOL_INFO.LOW : Fld := ⟨.QUE_POOL_INFO, 7, 1, .RO, 0⟩
def F.QUE_POOL_INFO.N8K : Fld := ⟨.QUE_POOL_INFO, 8, 20, .RO, 0⟩
def F.QUE_POOL_BASE.BASE : Fld := ⟨.QUE_POOL_BASE, 0, 22, .RO, 0⟩
def F.QUE_POOL_FREE.FREE : Fld := ⟨.QUE_POOL_FREE, 0, 32, .RO, 0⟩
def F.QUE_Q_SEL.QUEUE : Fld := ⟨.QUE_Q_SEL, 0, 17, .RW, 0⟩
def F.QUE_Q_INFO.STATE : Fld := ⟨.QUE_Q_INFO, 0, 2, .RO, 0⟩
def F.QUE_Q_INFO.POOL : Fld := ⟨.QUE_Q_INFO, 2, 3, .RO, 0⟩
def F.QUE_Q_DEPTH.VALUE : Fld := ⟨.QUE_Q_DEPTH, 0, 32, .RO, 0⟩
def F.QUE_Q_THRESH.VALUE : Fld := ⟨.QUE_Q_THRESH, 0, 32, .RO, 0⟩
def F.QUE_Q_DROPS.VALUE : Fld := ⟨.QUE_Q_DROPS, 0, 32, .RO, 0⟩
def F.QUE_COUNT_SEL.SEL : Fld := ⟨.QUE_COUNT_SEL, 0, 4, .RW, 0⟩
def F.QUE_COUNT_DATA.COUNT : Fld := ⟨.QUE_COUNT_DATA, 0, 32, .RO, 0⟩
def F.CKS_PLAN.N_S : Fld := ⟨.CKS_PLAN, 0, 8, .RWL, 0⟩
def F.CKS_PLAN.N_T : Fld := ⟨.CKS_PLAN, 8, 8, .RWL, 0⟩
def F.CKS_PLAN.PFD_SEL : Fld := ⟨.CKS_PLAN, 16, 2, .RWL, 0⟩
def F.CKS_COMMIT.GO : Fld := ⟨.CKS_COMMIT, 0, 1, .WO, 0⟩
def F.CKS_COMMIT.POINT : Fld := ⟨.CKS_COMMIT, 1, 1, .WO, 0⟩
def F.CKS_COMMIT.OUT_MASK : Fld := ⟨.CKS_COMMIT, 8, 6, .WO, 0⟩
def F.CKS_STATUS.LOCKED : Fld := ⟨.CKS_STATUS, 0, 1, .RO, 0⟩
def F.CKS_STATUS.GATED : Fld := ⟨.CKS_STATUS, 1, 1, .RO, 0⟩
def F.CKS_STATUS.HOLDOVER : Fld := ⟨.CKS_STATUS, 2, 1, .RO, 0⟩
def F.CKS_STATUS.BYPASS : Fld := ⟨.CKS_STATUS, 3, 1, .RO, 0⟩
def F.CKS_STATUS.FAILED : Fld := ⟨.CKS_STATUS, 4, 1, .RO, 0⟩
def F.CKS_STATUS.SEARCH : Fld := ⟨.CKS_STATUS, 5, 1, .RO, 0⟩
def F.CKS_STATUS.POINT : Fld := ⟨.CKS_STATUS, 6, 1, .RO, 0⟩
def F.CKS_STATUS.BAND : Fld := ⟨.CKS_STATUS, 8, 6, .RO, 0⟩
def F.CKS_STATUS.LOL : Fld := ⟨.CKS_STATUS, 16, 1, .W1C, 0⟩
def F.CKS_STATUS.REFUSED : Fld := ⟨.CKS_STATUS, 17, 1, .W1C, 0⟩
def F.CKS_STATUS.INJ_DONE : Fld := ⟨.CKS_STATUS, 18, 1, .W1C, 0⟩
def F.CKS_LIVE.N : Fld := ⟨.CKS_LIVE, 0, 8, .RO, 0⟩
def F.CKS_LIVE.PFD_SEL : Fld := ⟨.CKS_LIVE, 8, 2, .RO, 0⟩
def F.CKS_LIVE.OUT_EN : Fld := ⟨.CKS_LIVE, 16, 6, .RO, 0⟩
def F.CKS_OUT0.DIV_S : Fld := ⟨.CKS_OUT0, 0, 6, .RWL, 0⟩
def F.CKS_OUT0.DIV_T : Fld := ⟨.CKS_OUT0, 8, 6, .RWL, 0⟩
def F.CKS_OUT0.DIV_F : Fld := ⟨.CKS_OUT0, 16, 6, .RWL, 0⟩
def F.CKS_OUT0.DELAY : Fld := ⟨.CKS_OUT0, 22, 5, .RWL, 0⟩
def F.CKS_OUT0.EN : Fld := ⟨.CKS_OUT0, 31, 1, .RWL, 0⟩
def F.CKS_OUT1.DIV_S : Fld := ⟨.CKS_OUT1, 0, 6, .RWL, 0⟩
def F.CKS_OUT1.DIV_T : Fld := ⟨.CKS_OUT1, 8, 6, .RWL, 0⟩
def F.CKS_OUT1.DIV_F : Fld := ⟨.CKS_OUT1, 16, 6, .RWL, 0⟩
def F.CKS_OUT1.DELAY : Fld := ⟨.CKS_OUT1, 22, 5, .RWL, 0⟩
def F.CKS_OUT1.EN : Fld := ⟨.CKS_OUT1, 31, 1, .RWL, 0⟩
def F.CKS_OUT2.DIV_S : Fld := ⟨.CKS_OUT2, 0, 6, .RWL, 0⟩
def F.CKS_OUT2.DIV_T : Fld := ⟨.CKS_OUT2, 8, 6, .RWL, 0⟩
def F.CKS_OUT2.DIV_F : Fld := ⟨.CKS_OUT2, 16, 6, .RWL, 0⟩
def F.CKS_OUT2.DELAY : Fld := ⟨.CKS_OUT2, 22, 5, .RWL, 0⟩
def F.CKS_OUT2.EN : Fld := ⟨.CKS_OUT2, 31, 1, .RWL, 0⟩
def F.CKS_OUT3.DIV_S : Fld := ⟨.CKS_OUT3, 0, 6, .RWL, 0⟩
def F.CKS_OUT3.DIV_T : Fld := ⟨.CKS_OUT3, 8, 6, .RWL, 0⟩
def F.CKS_OUT3.DIV_F : Fld := ⟨.CKS_OUT3, 16, 6, .RWL, 0⟩
def F.CKS_OUT3.DELAY : Fld := ⟨.CKS_OUT3, 22, 5, .RWL, 0⟩
def F.CKS_OUT3.EN : Fld := ⟨.CKS_OUT3, 31, 1, .RWL, 0⟩
def F.CKS_OUT4.DIV_S : Fld := ⟨.CKS_OUT4, 0, 6, .RWL, 0⟩
def F.CKS_OUT4.DIV_T : Fld := ⟨.CKS_OUT4, 8, 6, .RWL, 0⟩
def F.CKS_OUT4.DIV_F : Fld := ⟨.CKS_OUT4, 16, 6, .RWL, 0⟩
def F.CKS_OUT4.DELAY : Fld := ⟨.CKS_OUT4, 22, 5, .RWL, 0⟩
def F.CKS_OUT4.EN : Fld := ⟨.CKS_OUT4, 31, 1, .RWL, 0⟩
def F.CKS_OUT5.DIV_S : Fld := ⟨.CKS_OUT5, 0, 6, .RWL, 0⟩
def F.CKS_OUT5.DIV_T : Fld := ⟨.CKS_OUT5, 8, 6, .RWL, 0⟩
def F.CKS_OUT5.DIV_F : Fld := ⟨.CKS_OUT5, 16, 6, .RWL, 0⟩
def F.CKS_OUT5.DELAY : Fld := ⟨.CKS_OUT5, 22, 5, .RWL, 0⟩
def F.CKS_OUT5.EN : Fld := ⟨.CKS_OUT5, 31, 1, .RWL, 0⟩
def F.CKS_BAND_SEL.SLOT : Fld := ⟨.CKS_BAND_SEL, 0, 3, .RW, 0⟩
def F.CKS_BAND_DATA.VALID : Fld := ⟨.CKS_BAND_DATA, 0, 1, .RO, 0⟩
def F.CKS_BAND_DATA.PFD_SEL : Fld := ⟨.CKS_BAND_DATA, 1, 2, .RO, 0⟩
def F.CKS_BAND_DATA.N : Fld := ⟨.CKS_BAND_DATA, 8, 8, .RO, 0⟩
def F.CKS_BAND_DATA.BAND : Fld := ⟨.CKS_BAND_DATA, 16, 6, .RO, 0⟩
def F.CKS_BAND_DATA.TEMP : Fld := ⟨.CKS_BAND_DATA, 24, 8, .RO, 0⟩
def F.CKS_INJ.ARM : Fld := ⟨.CKS_INJ, 0, 1, .W1S, 0⟩
def F.CKS_INJ.DISARM : Fld := ⟨.CKS_INJ, 1, 1, .W1S, 0⟩
def F.CKS_INJ.ARMED : Fld := ⟨.CKS_INJ, 2, 1, .RO, 0⟩
def F.CKS_COUNT.LOL : Fld := ⟨.CKS_COUNT, 0, 16, .RO, 0⟩
def F.CKS_COUNT.SEARCH : Fld := ⟨.CKS_COUNT, 16, 16, .RO, 0⟩
def F.DEV_MODE.MODE : Fld := ⟨.DEV_MODE, 0, 4, .RO, 0⟩
def F.DEV_MODE.PREV : Fld := ⟨.DEV_MODE, 4, 4, .RO, 0⟩
def F.DEV_MODE.BUSY : Fld := ⟨.DEV_MODE, 8, 1, .RO, 0⟩
def F.DEV_MODE.LOCKED : Fld := ⟨.DEV_MODE, 9, 1, .RO, 0⟩
def F.DEV_MODE_CTRL.REQ_THRIFT : Fld := ⟨.DEV_MODE_CTRL, 0, 1, .W1S, 0⟩
def F.DEV_MODE_CTRL.REQ_SERVE : Fld := ⟨.DEV_MODE_CTRL, 1, 1, .W1S, 0⟩
def F.DEV_MODE_CTRL.REQ_HOLD : Fld := ⟨.DEV_MODE_CTRL, 2, 1, .W1S, 0⟩
def F.DEV_MODE_CTRL.REQ_FREEZE : Fld := ⟨.DEV_MODE_CTRL, 3, 1, .W1S, 0⟩
def F.DEV_MODE_CTRL.THRIFT_X8 : Fld := ⟨.DEV_MODE_CTRL, 4, 1, .RW, 0⟩
def F.DEV_MODE_CTRL.REFUSED : Fld := ⟨.DEV_MODE_CTRL, 8, 1, .W1C, 0⟩
def F.DEV_MODE_CTRL.REASON : Fld := ⟨.DEV_MODE_CTRL, 9, 3, .RO, 0⟩
def F.DEV_STATUS.CFG_DEFAULTED : Fld := ⟨.DEV_STATUS, 0, 1, .RO, 0⟩
def F.DEV_STATUS.IMG_B : Fld := ⟨.DEV_STATUS, 1, 1, .RO, 0⟩
def F.DEV_STATUS.REPAIR_EMPTY : Fld := ⟨.DEV_STATUS, 2, 1, .RO, 0⟩
def F.DEV_STATUS.DEG_SUBCH : Fld := ⟨.DEV_STATUS, 3, 1, .RO, 0⟩
def F.DEV_STATUS.DEG_DIE : Fld := ⟨.DEV_STATUS, 4, 1, .RO, 0⟩
def F.DEV_STATUS.DEG_HPORT : Fld := ⟨.DEV_STATUS, 5, 1, .RO, 0⟩
def F.DEV_STATUS.DEG_FPORT : Fld := ⟨.DEV_STATUS, 6, 1, .RO, 0⟩
def F.DEV_STATUS.DEG_PASSAGE : Fld := ⟨.DEV_STATUS, 7, 1, .RO, 0⟩
def F.DEV_STATUS.SENIOR_WEST : Fld := ⟨.DEV_STATUS, 8, 1, .RO, 0⟩
def F.DEV_STATUS.DISAGREE : Fld := ⟨.DEV_STATUS, 9, 1, .W1C, 0⟩
def F.DEV_STATUS.FATAL : Fld := ⟨.DEV_STATUS, 10, 1, .RO, 0⟩
def F.DEV_STATUS.NO_HOST : Fld := ⟨.DEV_STATUS, 11, 1, .RO, 0⟩
def F.DEV_STATUS.CARVE_SHORT : Fld := ⟨.DEV_STATUS, 12, 1, .RO, 0⟩
def F.CFG_STATUS.A_VALID : Fld := ⟨.CFG_STATUS, 0, 1, .RO, 0⟩
def F.CFG_STATUS.B_VALID : Fld := ⟨.CFG_STATUS, 1, 1, .RO, 0⟩
def F.CFG_STATUS.UPDATING : Fld := ⟨.CFG_STATUS, 2, 1, .RO, 0⟩
def F.CFG_STATUS.CHECKED : Fld := ⟨.CFG_STATUS, 3, 1, .RO, 0⟩
def F.CFG_STATUS.SKIPPED : Fld := ⟨.CFG_STATUS, 4, 12, .RO, 0⟩
def F.CFG_STATUS.GENERATION : Fld := ⟨.CFG_STATUS, 16, 16, .RO, 0⟩
def F.PSG_STATUS.DIE_MODE : Fld := ⟨.PSG_STATUS, 0, 4, .RO, 0⟩
def F.PSG_STATUS.SENIOR : Fld := ⟨.PSG_STATUS, 4, 1, .RO, 0⟩
def F.PSG_STATUS.LINK_UP : Fld := ⟨.PSG_STATUS, 5, 1, .RO, 0⟩
def F.PSG_STATUS.MISSED : Fld := ⟨.PSG_STATUS, 6, 2, .RO, 0⟩
def F.PSG_STATUS.FENCED : Fld := ⟨.PSG_STATUS, 8, 1, .RO, 0⟩
def F.PSG_STATUS.RESET_SEEN : Fld := ⟨.PSG_STATUS, 9, 1, .W1C, 0⟩
def F.PSG_COUNT.RESETS : Fld := ⟨.PSG_COUNT, 0, 16, .RO, 0⟩
def F.PSG_COUNT.REFUSED : Fld := ⟨.PSG_COUNT, 16, 16, .RO, 0⟩
def F.EVT_FRZ_CFG.HOLD : Fld := ⟨.EVT_FRZ_CFG, 0, 1, .RW, 0⟩
def F.EVT_FRZ_CTRL.FREEZE : Fld := ⟨.EVT_FRZ_CTRL, 0, 6, .W1S, 0⟩
def F.EVT_FRZ_CTRL.THAW : Fld := ⟨.EVT_FRZ_CTRL, 8, 6, .W1S, 0⟩
def F.EVT_FRZ_CTRL.FROZEN : Fld := ⟨.EVT_FRZ_CTRL, 16, 6, .RO, 0⟩
def F.EVT_STATUS.FROZE : Fld := ⟨.EVT_STATUS, 0, 1, .W1C, 0⟩
def F.EVT_STATUS.FRZ_LOST : Fld := ⟨.EVT_STATUS, 1, 1, .W1C, 0⟩
def F.EVT_STATUS.PERMANENT : Fld := ⟨.EVT_STATUS, 2, 1, .W1C, 0⟩
def F.EVT_STATUS.LAST_SLOT : Fld := ⟨.EVT_STATUS, 8, 4, .RO, 15⟩
def F.EVT_FRZ_SEL.SLOT : Fld := ⟨.EVT_FRZ_SEL, 0, 3, .RW, 0⟩
def F.EVT_FRZ_SEL.WORD : Fld := ⟨.EVT_FRZ_SEL, 8, 9, .RW, 0⟩
def F.EVT_FRZ_DATA.DATA : Fld := ⟨.EVT_FRZ_DATA, 0, 32, .RO, 0⟩
def F.EVT_FRZ_INFO.VALID : Fld := ⟨.EVT_FRZ_INFO, 0, 1, .RO, 0⟩
def F.EVT_FRZ_INFO.HELD : Fld := ⟨.EVT_FRZ_INFO, 1, 1, .RO, 0⟩
def F.EVT_FRZ_INFO.CHANNEL : Fld := ⟨.EVT_FRZ_INFO, 2, 3, .RO, 0⟩
def F.EVT_FRZ_INFO.CAUSE : Fld := ⟨.EVT_FRZ_INFO, 5, 3, .RO, 0⟩
def F.EVT_FRZ_INFO.SEQUENCE : Fld := ⟨.EVT_FRZ_INFO, 8, 24, .RO, 0⟩
def F.EVT_PERM_CFG.COUNT : Fld := ⟨.EVT_PERM_CFG, 0, 8, .RW, 4⟩
def F.EVT_PERM_CFG.WINDOW_H : Fld := ⟨.EVT_PERM_CFG, 8, 10, .RW, 24⟩
def F.EVT_PERM_CFG.ACTION : Fld := ⟨.EVT_PERM_CFG, 20, 2, .RW, 2⟩
def F.EVT_PERM_SEL.SUB : Fld := ⟨.EVT_PERM_SEL, 0, 4, .RW, 0⟩
def F.EVT_PERM_DATA.WINDOW : Fld := ⟨.EVT_PERM_DATA, 0, 8, .RO, 0⟩
def F.EVT_PERM_DATA.PERMANENT : Fld := ⟨.EVT_PERM_DATA, 8, 1, .RO, 0⟩
def F.EVT_PERM_DATA.TOTAL : Fld := ⟨.EVT_PERM_DATA, 16, 16, .RO, 0⟩
def F.PMC_CYC_LO.VALUE : Fld := ⟨.PMC_CYC_LO, 0, 32, .RO, 0⟩
def F.PMC_CYC_HI.VALUE : Fld := ⟨.PMC_CYC_HI, 0, 32, .RO, 0⟩
def F.PMC_OVF_LO.OVF : Fld := ⟨.PMC_OVF_LO, 0, 32, .W1C, 0⟩
def F.PMC_OVF_HI.OVF : Fld := ⟨.PMC_OVF_HI, 0, 32, .W1C, 0⟩
def F.PMC_THERM_CFG.THROT_C : Fld := ⟨.PMC_THERM_CFG, 0, 8, .RW, 100⟩
def F.PMC_THERM_CFG.HYST : Fld := ⟨.PMC_THERM_CFG, 8, 4, .RW, 5⟩
def F.PMC_THERM_CFG.DRAM_C : Fld := ⟨.PMC_THERM_CFG, 16, 8, .RW, 95⟩
def F.PMC_THERM_CFG.EN : Fld := ⟨.PMC_THERM_CFG, 24, 1, .RW, 1⟩
def F.PMC_TJ_A.TJ0 : Fld := ⟨.PMC_TJ_A, 0, 8, .RO, 0⟩
def F.PMC_TJ_A.TJ1 : Fld := ⟨.PMC_TJ_A, 8, 8, .RO, 0⟩
def F.PMC_TJ_A.TJ2 : Fld := ⟨.PMC_TJ_A, 16, 8, .RO, 0⟩
def F.PMC_TJ_A.TJ3 : Fld := ⟨.PMC_TJ_A, 24, 8, .RO, 0⟩
def F.PMC_TJ_B.TJ0 : Fld := ⟨.PMC_TJ_B, 0, 8, .RO, 0⟩
def F.PMC_TJ_B.TJ1 : Fld := ⟨.PMC_TJ_B, 8, 8, .RO, 0⟩
def F.PMC_TJ_B.TJ2 : Fld := ⟨.PMC_TJ_B, 16, 8, .RO, 0⟩
def F.PMC_TJ_B.TJ3 : Fld := ⟨.PMC_TJ_B, 24, 8, .RO, 0⟩
def F.PMC_TJ_SUM.TJ_MAX : Fld := ⟨.PMC_TJ_SUM, 0, 8, .RO, 0⟩
def F.PMC_TJ_SUM.TJ_SENSOR : Fld := ⟨.PMC_TJ_SUM, 8, 3, .RO, 0⟩
def F.PMC_TJ_SUM.DRAM_MAX : Fld := ⟨.PMC_TJ_SUM, 16, 8, .RO, 0⟩
def F.PMC_TJ_SUM.LCHAN : Fld := ⟨.PMC_TJ_SUM, 24, 3, .RO, 0⟩
def F.PMC_TJ_SUM.SUB : Fld := ⟨.PMC_TJ_SUM, 27, 1, .RO, 0⟩
def F.PMC_TJ_SUM.RANK : Fld := ⟨.PMC_TJ_SUM, 28, 1, .RO, 0⟩
def F.PMC_THROTTLE.REQUEST : Fld := ⟨.PMC_THROTTLE, 0, 1, .RO, 0⟩
def F.PMC_THROTTLE.BY_TJ : Fld := ⟨.PMC_THROTTLE, 1, 1, .RO, 0⟩
def F.PMC_THROTTLE.BY_DRAM : Fld := ⟨.PMC_THROTTLE, 2, 1, .RO, 0⟩
def F.PMC_THROTTLE.TRIPPED : Fld := ⟨.PMC_THROTTLE, 3, 1, .RO, 0⟩
def F.PMC_THROTTLE.SENSOR_BAD : Fld := ⟨.PMC_THROTTLE, 4, 1, .W1C, 0⟩
def F.PMC_THROTTLE.BAD_MASK : Fld := ⟨.PMC_THROTTLE, 8, 8, .RO, 0⟩
def F.PMC_THROTTLE.THROTTLE_S : Fld := ⟨.PMC_THROTTLE, 16, 16, .RO, 0⟩
def F.PMC_PWR_A.RAIL_LO : Fld := ⟨.PMC_PWR_A, 0, 16, .RO, 0⟩
def F.PMC_PWR_A.RAIL_HI : Fld := ⟨.PMC_PWR_A, 16, 16, .RO, 0⟩
def F.PMC_PWR_B.RAIL_LO : Fld := ⟨.PMC_PWR_B, 0, 16, .RO, 0⟩
def F.PMC_PWR_B.RAIL_HI : Fld := ⟨.PMC_PWR_B, 16, 16, .RO, 0⟩
def F.PMC_PWR_C.RAIL_LO : Fld := ⟨.PMC_PWR_C, 0, 16, .RO, 0⟩
def F.PMC_PWR_C.RAIL_HI : Fld := ⟨.PMC_PWR_C, 16, 16, .RO, 0⟩
def F.PMC_PWR_DIE.RAIL_LO : Fld := ⟨.PMC_PWR_DIE, 0, 16, .RO, 0⟩
def F.PMC_CNT_CFG.SELECT : Fld := ⟨.PMC_CNT_CFG, 0, 16, .RW, 0⟩
def F.PMC_CNT_CFG.LCHAN : Fld := ⟨.PMC_CNT_CFG, 16, 3, .RW, 0⟩
def F.PMC_CNT_CFG.SUB_EN : Fld := ⟨.PMC_CNT_CFG, 19, 1, .RW, 0⟩
def F.PMC_CNT_CFG.SUB : Fld := ⟨.PMC_CNT_CFG, 20, 1, .RW, 0⟩
def F.PMC_CNT_CFG.EN : Fld := ⟨.PMC_CNT_CFG, 24, 1, .RW, 0⟩
def F.PMC_CNT_CFG.CHAIN : Fld := ⟨.PMC_CNT_CFG, 25, 1, .RW, 0⟩
def F.PMC_CNT_CFG.OVF_EVT : Fld := ⟨.PMC_CNT_CFG, 26, 1, .RW, 0⟩
def F.PMC_CNT_LO.VALUE : Fld := ⟨.PMC_CNT_LO, 0, 32, .RW, 0⟩
def F.PMC_CNT_HI.VALUE : Fld := ⟨.PMC_CNT_HI, 0, 16, .RW, 0⟩
def F.PMC_SHD_LO.VALUE : Fld := ⟨.PMC_SHD_LO, 0, 32, .RO, 0⟩
def F.PMC_SHD_HI.VALUE : Fld := ⟨.PMC_SHD_HI, 0, 32, .RO, 0⟩
def F.CTRG_CTRL.SNAP : Fld := ⟨.CTRG_CTRL, 0, 1, .W1S, 0⟩
def F.CTRG_CTRL.FREEZE : Fld := ⟨.CTRG_CTRL, 1, 1, .RW, 0⟩
def F.CTRG_CTRL.TRIG_EN : Fld := ⟨.CTRG_CTRL, 2, 1, .RW, 0⟩
def F.CTRG_CTRL.CLEAR_ALL : Fld := ⟨.CTRG_CTRL, 3, 1, .W1S, 0⟩
def F.CTRG_CTRL.TRIG_CODE : Fld := ⟨.CTRG_CTRL, 16, 16, .RW, 0⟩
def F.CTRG_STATUS.SEQ : Fld := ⟨.CTRG_STATUS, 0, 16, .RO, 0⟩
def F.CTRG_STATUS.FROZEN : Fld := ⟨.CTRG_STATUS, 16, 1, .RO, 0⟩
def F.CTRG_STATUS.TRIGGERED : Fld := ⟨.CTRG_STATUS, 17, 1, .W1C, 0⟩
def F.CTRG_STATUS.BUSY : Fld := ⟨.CTRG_STATUS, 18, 1, .RO, 0⟩
def F.CTRG_STATUS.SKEWED : Fld := ⟨.CTRG_STATUS, 19, 1, .W1C, 0⟩
def F.IDENT_DIE.PRESENT : Fld := ⟨.IDENT_DIE, 0, 1, .RO, 1⟩
def F.IDENT_DIE.WEST : Fld := ⟨.IDENT_DIE, 1, 1, .RO, 0⟩
def F.IDENT_DIE.STEPPING : Fld := ⟨.IDENT_DIE, 8, 8, .RO, 0⟩
def F.IDENT_DIE.DIE_CODE : Fld := ⟨.IDENT_DIE, 16, 16, .RO, 19222⟩
def F.IDENT_UNITS.HPC : Fld := ⟨.IDENT_UNITS, 0, 1, .RO, 0⟩
def F.IDENT_UNITS.FPC : Fld := ⟨.IDENT_UNITS, 1, 1, .RO, 0⟩
def F.IDENT_UNITS.PSG : Fld := ⟨.IDENT_UNITS, 2, 1, .RO, 0⟩
def F.IDENT_UNITS.RRM : Fld := ⟨.IDENT_UNITS, 3, 1, .RO, 0⟩
def F.IDENT_UNITS.CDR : Fld := ⟨.IDENT_UNITS, 4, 1, .RO, 0⟩
def F.IDENT_UNITS.TME : Fld := ⟨.IDENT_UNITS, 5, 1, .RO, 0⟩
def F.IDENT_UNITS.CMP : Fld := ⟨.IDENT_UNITS, 6, 1, .RO, 0⟩
def F.IDENT_UNITS.CIE : Fld := ⟨.IDENT_UNITS, 7, 1, .RO, 0⟩
def F.IDENT_UNITS.CPR : Fld := ⟨.IDENT_UNITS, 8, 1, .RO, 0⟩
def F.IDENT_UNITS.LKE : Fld := ⟨.IDENT_UNITS, 9, 1, .RO, 0⟩
def F.IDENT_UNITS.QUE : Fld := ⟨.IDENT_UNITS, 10, 1, .RO, 0⟩
def F.IDENT_UNITS.EVT : Fld := ⟨.IDENT_UNITS, 11, 1, .RO, 0⟩
def F.IDENT_UNITS.PMC : Fld := ⟨.IDENT_UNITS, 12, 1, .RO, 0⟩
def F.IDENT_UNITS.CKS : Fld := ⟨.IDENT_UNITS, 13, 1, .RO, 0⟩
def F.IDENT_UNITS.CHAN : Fld := ⟨.IDENT_UNITS, 16, 6, .RO, 0⟩
def F.IDENT_UID_LO.UID : Fld := ⟨.IDENT_UID_LO, 0, 32, .RO, 0⟩
def F.IDENT_UID_HI.UID : Fld := ⟨.IDENT_UID_HI, 0, 32, .RO, 0⟩
def F.DEV_ID.PART : Fld := ⟨.DEV_ID, 0, 16, .RO, 0⟩
def F.DEV_ID.STEPPING : Fld := ⟨.DEV_ID, 16, 8, .RO, 0⟩
def F.DEV_CAP.PART : Fld := ⟨.DEV_CAP, 0, 2, .RO, 0⟩
def F.DEV_CAP.WEST : Fld := ⟨.DEV_CAP, 2, 1, .RO, 0⟩
def F.DEV_CAP.HP0 : Fld := ⟨.DEV_CAP, 3, 1, .RO, 0⟩
def F.DEV_CAP.HP1 : Fld := ⟨.DEV_CAP, 4, 1, .RO, 0⟩
def F.DEV_CAP.FP0 : Fld := ⟨.DEV_CAP, 5, 1, .RO, 0⟩
def F.DEV_CAP.FP1 : Fld := ⟨.DEV_CAP, 6, 1, .RO, 0⟩
def F.DEV_CAP.LKE : Fld := ⟨.DEV_CAP, 7, 1, .RO, 0⟩
def F.DEV_CAP.QUE : Fld := ⟨.DEV_CAP, 8, 1, .RO, 0⟩
def F.DEV_CAP.MIRROR : Fld := ⟨.DEV_CAP, 9, 1, .RO, 0⟩
def F.DEV_CAP.RATE128 : Fld := ⟨.DEV_CAP, 10, 1, .RO, 1⟩
def F.DEV_CAP.SUBCH : Fld := ⟨.DEV_CAP, 16, 5, .RO, 0⟩
def F.DEV_IGNORED_COUNT.LOCKED : Fld := ⟨.DEV_IGNORED_COUNT, 0, 16, .RO, 0⟩
def F.DEV_IGNORED_COUNT.UNREACH : Fld := ⟨.DEV_IGNORED_COUNT, 16, 16, .RO, 0⟩
def F.RRM_COUNT_SEL.SEL : Fld := ⟨.RRM_COUNT_SEL, 0, 3, .RW, 0⟩
def F.RRM_COUNT_DATA.COUNT : Fld := ⟨.RRM_COUNT_DATA, 0, 32, .RO, 0⟩
def F.RRM_RGN_RANGE.BASE : Fld := ⟨.RRM_RGN_RANGE, 0, 13, .RO, 0⟩
def F.RRM_RGN_RANGE.LIMIT : Fld := ⟨.RRM_RGN_RANGE, 16, 13, .RO, 0⟩
def F.RRM_RGN_ATTR.LAYOUT : Fld := ⟨.RRM_RGN_ATTR, 0, 1, .RO, 0⟩
def F.RRM_RGN_ATTR.HOME : Fld := ⟨.RRM_RGN_ATTR, 1, 1, .RO, 0⟩
def F.RRM_RGN_ATTR.MIRROR : Fld := ⟨.RRM_RGN_ATTR, 2, 1, .RO, 0⟩
def F.RRM_RGN_ATTR.INTEGRITY : Fld := ⟨.RRM_RGN_ATTR, 3, 2, .RO, 0⟩
def F.RRM_RGN_ATTR.HINT : Fld := ⟨.RRM_RGN_ATTR, 5, 1, .RO, 0⟩
def F.RRM_RGN_ATTR.PRIO : Fld := ⟨.RRM_RGN_ATTR, 6, 2, .RO, 0⟩
def F.RRM_RGN_ATTR.COHERENT : Fld := ⟨.RRM_RGN_ATTR, 8, 1, .RO, 0⟩
def F.RRM_RGN_ATTR.OWNER : Fld := ⟨.RRM_RGN_ATTR, 9, 2, .RO, 0⟩
def F.RRM_RGN_ATTR.FABRIC_READ : Fld := ⟨.RRM_RGN_ATTR, 11, 1, .RO, 0⟩
def F.RRM_RGN_ATTR.FABRIC_WRITE : Fld := ⟨.RRM_RGN_ATTR, 12, 1, .RO, 0⟩
def F.RRM_RGN_ATTR.KEY_SLOT : Fld := ⟨.RRM_RGN_ATTR, 16, 8, .RO, 0⟩
def F.RRM_RGN_PLACE.DPA_G : Fld := ⟨.RRM_RGN_PLACE, 0, 11, .RO, 0⟩
def F.RRM_RGN_PLACE.BACK_GIB : Fld := ⟨.RRM_RGN_PLACE, 16, 11, .RO, 0⟩
def F.RRM_RGN_MAP.MAP_G : Fld := ⟨.RRM_RGN_MAP, 0, 14, .RO, 0⟩
def F.RRM_RGN_CTRL.ENABLE : Fld := ⟨.RRM_RGN_CTRL, 0, 1, .RO, 0⟩
def F.RRM_RGN_CTRL.BUSY : Fld := ⟨.RRM_RGN_CTRL, 1, 1, .RO, 0⟩
def F.RRM_RGN_CTRL.REFUSED : Fld := ⟨.RRM_RGN_CTRL, 2, 1, .RO, 0⟩
def F.RRM_RGN_CTRL.REASON : Fld := ⟨.RRM_RGN_CTRL, 4, 4, .RO, 0⟩

/-- The fields of every register; a bit in no field is RSV. -/
def regFields : RegName → List Fld
  | .CFE_POP => [F.CFE_POP.DENSITY, F.CFE_POP.RANKS, F.CFE_POP.PKG3DS, F.CFE_POP.RATE_SEL, F.CFE_POP.THRIFT_TRAIN]
  | .CFE_STATUS => [F.CFE_STATUS.ZQ_PU, F.CFE_STATUS.ZQ_PD, F.CFE_STATUS.POINT, F.CFE_STATUS.RATE_CLAMPED]
  | .CFE_TRAIN_CTRL => [F.CFE_TRAIN_CTRL.REQ_A, F.CFE_TRAIN_CTRL.REQ_B, F.CFE_TRAIN_CTRL.FULL, F.CFE_TRAIN_CTRL.RANK_MASK, F.CFE_TRAIN_CTRL.BUSY, F.CFE_TRAIN_CTRL.REFUSED]
  | .CFE_TRAIN_CRIT => [F.CFE_TRAIN_CRIT.DQ_WIDTH, F.CFE_TRAIN_CRIT.CA_WIDTH, F.CFE_TRAIN_CRIT.DQ_HEIGHT, F.CFE_TRAIN_CRIT.CA_HEIGHT]
  | .CFE_DRIFT_CFG => [F.CFE_DRIFT_CFG.PERIOD, F.CFE_DRIFT_CFG.ADJ, F.CFE_DRIFT_CFG.RETRAIN, F.CFE_DRIFT_CFG.TEMP_DELTA]
  | .CFE_WCRC_CFG => [F.CFE_WCRC_CFG.EN, F.CFE_WCRC_CFG.WINDOW, F.CFE_WCRC_CFG.MAX_RETRY]
  | .CFE_RESULT_A => [F.CFE_RESULT_A.RANK0_FAIL, F.CFE_RESULT_A.T_FALLBACK, F.CFE_RESULT_A.RANK1_FAIL, F.CFE_RESULT_A.CA_FAIL, F.CFE_RESULT_A.ZQ_FAIL, F.CFE_RESULT_A.FALLBACK, F.CFE_RESULT_A.RETIRED]
  | .CFE_RESULT_B => [F.CFE_RESULT_B.RANK0_FAIL, F.CFE_RESULT_B.T_FALLBACK, F.CFE_RESULT_B.RANK1_FAIL, F.CFE_RESULT_B.CA_FAIL, F.CFE_RESULT_B.ZQ_FAIL, F.CFE_RESULT_B.FALLBACK, F.CFE_RESULT_B.RETIRED]
  | .CFE_ERR_STATUS => [F.CFE_ERR_STATUS.CAPAR_A, F.CFE_ERR_STATUS.CAPAR_B, F.CFE_ERR_STATUS.WCRC_RETRY_A, F.CFE_ERR_STATUS.WCRC_RETRY_B, F.CFE_ERR_STATUS.WCRC_EXH_A, F.CFE_ERR_STATUS.WCRC_EXH_B, F.CFE_ERR_STATUS.ALERT_UNEXPL_A, F.CFE_ERR_STATUS.ALERT_UNEXPL_B, F.CFE_ERR_STATUS.DRIFT_RT_A, F.CFE_ERR_STATUS.DRIFT_RT_B]
  | .CFE_CAPAR_COUNT => [F.CFE_CAPAR_COUNT.COUNT_A, F.CFE_CAPAR_COUNT.COUNT_B]
  | .CFE_WCRC_COUNT => [F.CFE_WCRC_COUNT.COUNT_A, F.CFE_WCRC_COUNT.COUNT_B]
  | .CFE_TREC_SEL => [F.CFE_TREC_SEL.SUB, F.CFE_TREC_SEL.RANK, F.CFE_TREC_SEL.POINT, F.CFE_TREC_SEL.WORD]
  | .CFE_TREC_DATA => [F.CFE_TREC_DATA.DATA]
  | .MSC_PORT_PRIO => [F.MSC_PORT_PRIO.LKE, F.MSC_PORT_PRIO.QUE, F.MSC_PORT_PRIO.TME, F.MSC_PORT_PRIO.SRU, F.MSC_PORT_PRIO.CPR]
  | .MSC_ARB_CFG => [F.MSC_ARB_CFG.AGE_CAP, F.MSC_ARB_CFG.WR_HI, F.MSC_ARB_CFG.WR_LO]
  | .MSC_REF_CFG => [F.MSC_REF_CFG.POSTPONE, F.MSC_REF_CFG.MR4_PERIOD]
  | .MSC_REF_STATUS => [F.MSC_REF_STATUS.OWED_A0, F.MSC_REF_STATUS.HOT_A0, F.MSC_REF_STATUS.OWED_A1, F.MSC_REF_STATUS.HOT_A1, F.MSC_REF_STATUS.OWED_B0, F.MSC_REF_STATUS.HOT_B0, F.MSC_REF_STATUS.OWED_B1, F.MSC_REF_STATUS.HOT_B1]
  | .MSC_DRAM_TEMP => [F.MSC_DRAM_TEMP.TEMP_A0, F.MSC_DRAM_TEMP.TEMP_A1, F.MSC_DRAM_TEMP.TEMP_B0, F.MSC_DRAM_TEMP.TEMP_B1]
  | .MSC_QSTAT => [F.MSC_QSTAT.RDQ_A, F.MSC_QSTAT.WRQ_A, F.MSC_QSTAT.DRAIN_A, F.MSC_QSTAT.RDQ_B, F.MSC_QSTAT.WRQ_B, F.MSC_QSTAT.DRAIN_B]
  | .MSC_TIMING => [F.MSC_TIMING.CL, F.MSC_TIMING.TRCD, F.MSC_TIMING.TRP, F.MSC_TIMING.TRFC2]
  | .MSC_ECHO_CFG => [F.MSC_ECHO_CFG.EN, F.MSC_ECHO_CFG.NEIGH2, F.MSC_ECHO_CFG.METHOD, F.MSC_ECHO_CFG.THRESH]
  | .MSC_ECHO_COUNT => [F.MSC_ECHO_COUNT.COUNT_A, F.MSC_ECHO_COUNT.COUNT_B]
  | .MSC_ADJ_XOR => [F.MSC_ADJ_XOR.XOR]
  | .MSC_ADJ_MAP0 => [F.MSC_ADJ_MAP0.SRC0, F.MSC_ADJ_MAP0.SRC1, F.MSC_ADJ_MAP0.SRC2, F.MSC_ADJ_MAP0.SRC3, F.MSC_ADJ_MAP0.SRC4, F.MSC_ADJ_MAP0.SRC5]
  | .MSC_ADJ_MAP1 => [F.MSC_ADJ_MAP1.SRC0, F.MSC_ADJ_MAP1.SRC1, F.MSC_ADJ_MAP1.SRC2, F.MSC_ADJ_MAP1.SRC3, F.MSC_ADJ_MAP1.SRC4, F.MSC_ADJ_MAP1.SRC5]
  | .MSC_ADJ_MAP2 => [F.MSC_ADJ_MAP2.SRC0, F.MSC_ADJ_MAP2.SRC1, F.MSC_ADJ_MAP2.SRC2, F.MSC_ADJ_MAP2.SRC3, F.MSC_ADJ_MAP2.SRC4, F.MSC_ADJ_MAP2.SRC5]
  | .CWU_ERASE => [F.CWU_ERASE.DEV_A0, F.CWU_ERASE.VALID_A0, F.CWU_ERASE.DEV_A1, F.CWU_ERASE.VALID_A1, F.CWU_ERASE.DEV_B0, F.CWU_ERASE.VALID_B0, F.CWU_ERASE.DEV_B1, F.CWU_ERASE.VALID_B1]
  | .CWU_STATUS => [F.CWU_STATUS.ADDR_A, F.CWU_STATUS.ADDR_B, F.CWU_STATUS.UE_A, F.CWU_STATUS.UE_B, F.CWU_STATUS.POISON_A, F.CWU_STATUS.POISON_B, F.CWU_STATUS.ERASE_REFUSED]
  | .CWU_INJ_CTRL => [F.CWU_INJ_CTRL.ARM, F.CWU_INJ_CTRL.DISARM, F.CWU_INJ_CTRL.ARMED, F.CWU_INJ_CTRL.SUB, F.CWU_INJ_CTRL.WORD, F.CWU_INJ_CTRL.FLIP_EN, F.CWU_INJ_CTRL.SKEW_EN, F.CWU_INJ_CTRL.MATCH_EN, F.CWU_INJ_CTRL.SKEW]
  | .CWU_INJ_MASK0 => [F.CWU_INJ_MASK0.MASK]
  | .CWU_INJ_MASK1 => [F.CWU_INJ_MASK1.MASK]
  | .CWU_INJ_MASK2 => [F.CWU_INJ_MASK2.MASK]
  | .CWU_INJ_ADDR_LO => [F.CWU_INJ_ADDR_LO.H_LO]
  | .CWU_INJ_ADDR_HI => [F.CWU_INJ_ADDR_HI.H_HI]
  | .CWU_INJ_STATUS => [F.CWU_INJ_STATUS.DONE, F.CWU_INJ_STATUS.SUB, F.CWU_INJ_STATUS.WORD]
  | .CWU_INJ_HIT_LO => [F.CWU_INJ_HIT_LO.H_LO]
  | .CWU_INJ_HIT_HI => [F.CWU_INJ_HIT_HI.H_HI]
  | .CWU_LAST_A => [F.CWU_LAST_A.OUTCOME, F.CWU_LAST_A.ERASURE, F.CWU_LAST_A.POSITION, F.CWU_LAST_A.WORD, F.CWU_LAST_A.RANK]
  | .CWU_LAST_B => [F.CWU_LAST_B.OUTCOME, F.CWU_LAST_B.ERASURE, F.CWU_LAST_B.POSITION, F.CWU_LAST_B.WORD, F.CWU_LAST_B.RANK]
  | .CWU_SYND_A => [F.CWU_SYND_A.S0, F.CWU_SYND_A.S1, F.CWU_SYND_A.S2]
  | .CWU_SYND_B => [F.CWU_SYND_B.S0, F.CWU_SYND_B.S1, F.CWU_SYND_B.S2]
  | .CWU_UE_COUNT => [F.CWU_UE_COUNT.ADDR_A, F.CWU_UE_COUNT.UE_A, F.CWU_UE_COUNT.ADDR_B, F.CWU_UE_COUNT.UE_B]
  | .CWU_DEVCNT_SEL => [F.CWU_DEVCNT_SEL.DEV, F.CWU_DEVCNT_SEL.RANK, F.CWU_DEVCNT_SEL.SUB, F.CWU_DEVCNT_SEL.CLEAR]
  | .CWU_DEVCNT_DATA => [F.CWU_DEVCNT_DATA.COUNT]
  | .SRU_CFG => [F.SRU_CFG.SPARE_A, F.SRU_CFG.SPARE_B]
  | .SRU_SCRUB_CFG => [F.SRU_SCRUB_CFG.PERIOD_H, F.SRU_SCRUB_CFG.EN]
  | .SRU_SCRUB_POS_A => [F.SRU_SCRUB_POS_A.Q, F.SRU_SCRUB_POS_A.LINE]
  | .SRU_SCRUB_POS_B => [F.SRU_SCRUB_POS_B.Q, F.SRU_SCRUB_POS_B.LINE]
  | .SRU_STAT => [F.SRU_STAT.PASSES, F.SRU_STAT.TRANSIENT, F.SRU_STAT.DRIP_DROP, F.SRU_STAT.POISONED]
  | .SRU_STATUS => [F.SRU_STATUS.BEHIND_A, F.SRU_STATUS.BEHIND_B, F.SRU_STATUS.SCRUB_UE_A, F.SRU_STATUS.SCRUB_UE_B, F.SRU_STATUS.DRIP_FULL, F.SRU_STATUS.REPAIR_EXH_A, F.SRU_STATUS.REPAIR_EXH_B]
  | .SRU_REPAIR_CFG => [F.SRU_REPAIR_CFG.PRIMARY, F.SRU_REPAIR_CFG.RUN_SPPR, F.SRU_REPAIR_CFG.HARD_PPR, F.SRU_REPAIR_CFG.N_DEMAND, F.SRU_REPAIR_CFG.REMAP_RESERVE]
  | .SRU_ERASE_CFG => [F.SRU_ERASE_CFG.THRESH, F.SRU_ERASE_CFG.WINDOW_S, F.SRU_ERASE_CFG.EN]
  | .SRU_DRIP_SEL => [F.SRU_DRIP_SEL.ENTRY, F.SRU_DRIP_SEL.WORD]
  | .SRU_DRIP_DATA => [F.SRU_DRIP_DATA.DATA]
  | .SRU_REMAP_SEL => [F.SRU_REMAP_SEL.ENTRY, F.SRU_REMAP_SEL.SUB, F.SRU_REMAP_SEL.HALF]
  | .SRU_REMAP_DATA => [F.SRU_REMAP_DATA.DATA]
  | .SRU_EVAC_CTRL => [F.SRU_EVAC_CTRL.START_A, F.SRU_EVAC_CTRL.START_B, F.SRU_EVAC_CTRL.ACTIVE, F.SRU_EVAC_CTRL.RATE, F.SRU_EVAC_CTRL.PRIO]
  | .SRU_EVAC_POS => [F.SRU_EVAC_POS.Q]
  | .SRU_RETIRE_CTRL => [F.SRU_RETIRE_CTRL.SALVAGE_HOLD, F.SRU_RETIRE_CTRL.RELEASE, F.SRU_RETIRE_CTRL.SALVAGE, F.SRU_RETIRE_CTRL.SALVAGE_MS]
  | .RGN_RANGE => [F.RGN_RANGE.BASE, F.RGN_RANGE.LIMIT]
  | .RGN_ATTR => [F.RGN_ATTR.LAYOUT, F.RGN_ATTR.HOME, F.RGN_ATTR.MIRROR, F.RGN_ATTR.INTEGRITY, F.RGN_ATTR.HINT, F.RGN_ATTR.PRIO, F.RGN_ATTR.COHERENT, F.RGN_ATTR.OWNER, F.RGN_ATTR.FABRIC_READ, F.RGN_ATTR.FABRIC_WRITE, F.RGN_ATTR.KEY_SLOT]
  | .RGN_PLACE => [F.RGN_PLACE.DPA_G, F.RGN_PLACE.BACK_GIB]
  | .RGN_MAP => [F.RGN_MAP.MAP_G]
  | .RGN_CTRL => [F.RGN_CTRL.ENABLE, F.RGN_CTRL.BUSY, F.RGN_CTRL.REFUSED, F.RGN_CTRL.REASON]
  | .TME_MAP_CFG => [F.TME_MAP_CFG.MAP_GIB]
  | .TME_POLICY => [F.TME_POLICY.COLD1, F.TME_POLICY.COLD1_LOW, F.TME_POLICY.HOT, F.TME_POLICY.COLD2, F.TME_POLICY.T2_AGE, F.TME_POLICY.SWEEP_EP, F.TME_POLICY.EN]
  | .TME_EPOCH_CFG => [F.TME_EPOCH_CFG.EPOCH_MS]
  | .TME_T2_CFG => [F.TME_T2_CFG.NODE, F.TME_T2_CFG.BASE_G]
  | .TME_T2_SIZE => [F.TME_T2_SIZE.SIZE_G]
  | .TME_POOL_CFG => [F.TME_POOL_CFG.LOW_FRAMES, F.TME_POOL_CFG.WAIT_US]
  | .TME_STAGE_CFG => [F.TME_STAGE_CFG.KIND, F.TME_STAGE_CFG.DPA_G]
  | .TME_STAGE_HOST_LO => [F.TME_STAGE_HOST_LO.ADDR]
  | .TME_STAGE_HOST_HI => [F.TME_STAGE_HOST_HI.ADDR]
  | .TME_STATUS => [F.TME_STATUS.EPOCH, F.TME_STATUS.MOVES, F.TME_STATUS.REHOME, F.TME_STATUS.REHOME_DONE, F.TME_STATUS.FRAMES_LOW, F.TME_STATUS.T2_FULL, F.TME_STATUS.INIT_DONE]
  | .TME_FREE_FRAMES => [F.TME_FREE_FRAMES.COUNT]
  | .TME_INIT_CFG => [F.TME_INIT_CFG.PRIO]
  | .TME_INIT_SEL => [F.TME_INIT_SEL.SUB]
  | .TME_INIT_DATA => [F.TME_INIT_DATA.W, F.TME_INIT_DATA.FULL]
  | .CMP_CFG => [F.CMP_CFG.MAX_CLASS, F.CMP_CFG.OPEN_MAX]
  | .CMP_STATUS => [F.CMP_STATUS.FORMAT, F.CMP_STATUS.CRC, F.CMP_STATUS.OPEN]
  | .CMP_STAT_SEL => [F.CMP_STAT_SEL.SEL]
  | .CMP_STAT_DATA => [F.CMP_STAT_DATA.COUNT]
  | .SEC_POLICY => [F.SEC_POLICY.LOCKDOWN, F.SEC_POLICY.IDE_REQ, F.SEC_POLICY.DEBUG_UNLOCKED]
  | .SEC_STATUS => [F.SEC_STATUS.ENTROPY_FAIL, F.SEC_STATUS.SANITIZING, F.SEC_STATUS.SESSION, F.SEC_STATUS.DENIED]
  | .SEC_ROT_CFG => [F.SEC_ROT_CFG.RATE]
  | .SEC_DENY_COUNT => [F.SEC_DENY_COUNT.COUNT]
  | .SEC_SLOT_SEL => [F.SEC_SLOT_SEL.SLOT]
  | .SEC_SLOT_INFO => [F.SEC_SLOT_INFO.STATE, F.SEC_SLOT_INFO.BIND, F.SEC_SLOT_INFO.REGIONS, F.SEC_SLOT_INFO.EPOCH]
  | .SEC_SLOT_DOM => [F.SEC_SLOT_DOM.DOMAIN]
  | .SEC_SLOT_ROT => [F.SEC_SLOT_ROT.REGION, F.SEC_SLOT_ROT.OFFSET]
  | .CIE_INT_CFG => [F.CIE_INT_CFG.MAC_GIB, F.CIE_INT_CFG.REPLAY]
  | .CIE_STATUS => [F.CIE_STATUS.MAC_FAIL, F.CIE_STATUS.TREE_FAIL]
  | .CIE_FAIL_COUNT => [F.CIE_FAIL_COUNT.MAC_RETRY, F.CIE_FAIL_COUNT.MAC, F.CIE_FAIL_COUNT.TREE]
  | .CDR_CFG => [F.CDR_CFG.AWAIT_US, F.CDR_CFG.PIN_MAX, F.CDR_CFG.RETRY_CC, F.CDR_CFG.SNP_TO]
  | .CDR_AGENT_MAP => [F.CDR_AGENT_MAP.AGENT_0, F.CDR_AGENT_MAP.AGENT_1, F.CDR_AGENT_MAP.AGENT_2, F.CDR_AGENT_MAP.AGENT_3, F.CDR_AGENT_MAP.AGENT_4, F.CDR_AGENT_MAP.AGENT_5, F.CDR_AGENT_MAP.AGENT_6, F.CDR_AGENT_MAP.AGENT_7]
  | .CDR_STATUS => [F.CDR_STATUS.AWAIT_TO, F.CDR_STATUS.SNP_TO, F.CDR_STATUS.MAP_REFUSED, F.CDR_STATUS.PORT_DROP, F.CDR_STATUS.WALK]
  | .CDR_STAT_SEL => [F.CDR_STAT_SEL.SEL]
  | .CDR_STAT_DATA => [F.CDR_STAT_DATA.COUNT]
  | .CDR_PROBE_LO => [F.CDR_PROBE_LO.DLA_LO]
  | .CDR_PROBE_HI => [F.CDR_PROBE_HI.DLA_HI, F.CDR_PROBE_HI.GO]
  | .CDR_PROBE_RESULT => [F.CDR_PROBE_RESULT.STATE, F.CDR_PROBE_RESULT.AWAIT, F.CDR_PROBE_RESULT.PINNED, F.CDR_PROBE_RESULT.OWNER, F.CDR_PROBE_RESULT.DONE, F.CDR_PROBE_RESULT.NOT_HOME, F.CDR_PROBE_RESULT.SHARERS]
  | .HPC_LINK_CFG => [F.HPC_LINK_CFG.MAX_RATE, F.HPC_LINK_CFG.LO_FLIT, F.HPC_LINK_CFG.WIDTH_CAP, F.HPC_LINK_CFG.EN, F.HPC_LINK_CFG.REUP_S]
  | .HPC_LINK_STATUS => [F.HPC_LINK_STATUS.UP, F.HPC_LINK_STATUS.RATE, F.HPC_LINK_STATUS.WIDTH, F.HPC_LINK_STATUS.FLIT, F.HPC_LINK_STATUS.HDM_DB, F.HPC_LINK_STATUS.IDE_SECURE, F.HPC_LINK_STATUS.RUNG]
  | .HPC_LADDER_CFG => [F.HPC_LADDER_CFG.RETRY_MAX, F.HPC_LADDER_CFG.RETRAIN_MAX, F.HPC_LADDER_CFG.WINDOW_MS]
  | .HPC_LINK_CTRL => [F.HPC_LINK_CTRL.RETRAIN, F.HPC_LINK_CTRL.DOWN, F.HPC_LINK_CTRL.REUP]
  | .HPC_STATUS => [F.HPC_STATUS.RETRAINED, F.HPC_STATUS.FELL_BACK, F.HPC_STATUS.WENT_DOWN, F.HPC_STATUS.COH_REFUSED, F.HPC_STATUS.IDE_FAIL, F.HPC_STATUS.VIRAL_RX, F.HPC_STATUS.BAD_ACC, F.HPC_STATUS.INJ_DONE]
  | .HPC_COUNT_SEL => [F.HPC_COUNT_SEL.SEL]
  | .HPC_COUNT_DATA => [F.HPC_COUNT_DATA.COUNT]
  | .HPC_INJ_CTRL => [F.HPC_INJ_CTRL.ARM, F.HPC_INJ_CTRL.DISARM, F.HPC_INJ_CTRL.ARMED, F.HPC_INJ_CTRL.MODE, F.HPC_INJ_CTRL.KIND, F.HPC_INJ_CTRL.EXEMPT, F.HPC_INJ_CTRL.RATE]
  | .HPC_INJ_COUNT => [F.HPC_INJ_COUNT.COUNT]
  | .FPC_NODE => [F.FPC_NODE.NODE, F.FPC_NODE.FABRIC_EN]
  | .FPC_MAC_LO => [F.FPC_MAC_LO.MAC_LO]
  | .FPC_MAC_HI => [F.FPC_MAC_HI.MAC_HI]
  | .FPC_PORT_CFG => [F.FPC_PORT_CFG.EN, F.FPC_PORT_CFG.VLAN_EN, F.FPC_PORT_CFG.PCP, F.FPC_PORT_CFG.VID]
  | .FPC_TIMER_CFG => [F.FPC_TIMER_CFG.RTO_US, F.FPC_TIMER_CFG.ACK_DELAY_US, F.FPC_TIMER_CFG.UNREACH_N, F.FPC_TIMER_CFG.HB_MS, F.FPC_TIMER_CFG.HB_MISS, F.FPC_TIMER_CFG.PROBE]
  | .FPC_PEER_SEL => [F.FPC_PEER_SEL.NODE]
  | .FPC_PEER_MAC_LO => [F.FPC_PEER_MAC_LO.MAC_LO]
  | .FPC_PEER_CTRL => [F.FPC_PEER_CTRL.MAC_HI, F.FPC_PEER_CTRL.EN, F.FPC_PEER_CTRL.PORT, F.FPC_PEER_CTRL.PAYLOAD_4K, F.FPC_PEER_CTRL.RESET, F.FPC_PEER_CTRL.STATE, F.FPC_PEER_CTRL.SESSION]
  | .FPC_PEER_STAT => [F.FPC_PEER_STAT.INFLIGHT, F.FPC_PEER_STAT.RETX]
  | .FPC_STATUS => [F.FPC_STATUS.LINK_DOWN, F.FPC_STATUS.PEER_LOST, F.FPC_STATUS.MACSEC_DROP, F.FPC_STATUS.BAD_FRAME, F.FPC_STATUS.INJ_DONE, F.FPC_STATUS.REORDER_FULL]
  | .FPC_LINK_STATUS => [F.FPC_LINK_STATUS.UP, F.FPC_LINK_STATUS.SECURE, F.FPC_LINK_STATUS.UP_PEERS]
  | .FPC_COUNT_SEL => [F.FPC_COUNT_SEL.SEL]
  | .FPC_COUNT_DATA => [F.FPC_COUNT_DATA.COUNT]
  | .FPC_INJ_CTRL => [F.FPC_INJ_CTRL.ARM, F.FPC_INJ_CTRL.DISARM, F.FPC_INJ_CTRL.ARMED, F.FPC_INJ_CTRL.MODE, F.FPC_INJ_CTRL.KIND, F.FPC_INJ_CTRL.DIR, F.FPC_INJ_CTRL.RATE, F.FPC_INJ_CTRL.DELAY_US]
  | .FPC_INJ_FILTER => [F.FPC_INJ_FILTER.NODE, F.FPC_INJ_FILTER.NODE_EN, F.FPC_INJ_FILTER.OP, F.FPC_INJ_FILTER.OP_EN]
  | .FPC_INJ_COUNT => [F.FPC_INJ_COUNT.COUNT]
  | .CPR_STATUS => [F.CPR_STATUS.BAD_DB, F.CPR_STATUS.FETCH_ERR, F.CPR_STATUS.WRITE_ERR, F.CPR_STATUS.RING_REFUSED, F.CPR_STATUS.EQ_OVERFLOW, F.CPR_STATUS.REASON]
  | .CPR_COUNT_SEL => [F.CPR_COUNT_SEL.SEL]
  | .CPR_COUNT_DATA => [F.CPR_COUNT_DATA.COUNT]
  | .CPR_SQ_BASE_LO => [F.CPR_SQ_BASE_LO.BASE_LO]
  | .CPR_SQ_BASE_HI => [F.CPR_SQ_BASE_HI.BASE_HI]
  | .CPR_CQ_BASE_LO => [F.CPR_CQ_BASE_LO.BASE_LO]
  | .CPR_CQ_BASE_HI => [F.CPR_CQ_BASE_HI.BASE_HI]
  | .CPR_EQ_BASE_LO => [F.CPR_EQ_BASE_LO.BASE_LO]
  | .CPR_EQ_BASE_HI => [F.CPR_EQ_BASE_HI.BASE_HI]
  | .CPR_SQ_CTRL => [F.CPR_SQ_CTRL.EN, F.CPR_SQ_CTRL.BUSY, F.CPR_SQ_CTRL.ERROR, F.CPR_SQ_CTRL.LOG2SIZE, F.CPR_SQ_CTRL.CQ, F.CPR_SQ_CTRL.DOMAIN, F.CPR_SQ_CTRL.KEY_ADMIN]
  | .CPR_SQ_PTR => [F.CPR_SQ_PTR.HEAD, F.CPR_SQ_PTR.TAIL]
  | .CPR_CQ_PTR => [F.CPR_CQ_PTR.HEAD, F.CPR_CQ_PTR.TAIL]
  | .CPR_EQ_PTR => [F.CPR_EQ_PTR.HEAD, F.CPR_EQ_PTR.TAIL]
  | .CPR_CQ_CTRL => [F.CPR_CQ_CTRL.EN, F.CPR_CQ_CTRL.BUSY, F.CPR_CQ_CTRL.ERROR, F.CPR_CQ_CTRL.LOG2SIZE, F.CPR_CQ_CTRL.IRQ_EN, F.CPR_CQ_CTRL.VECTOR, F.CPR_CQ_CTRL.PHASE]
  | .CPR_EQ_CTRL => [F.CPR_EQ_CTRL.EN, F.CPR_EQ_CTRL.BUSY, F.CPR_EQ_CTRL.ERROR, F.CPR_EQ_CTRL.LOG2SIZE, F.CPR_EQ_CTRL.IRQ_EN, F.CPR_EQ_CTRL.VECTOR, F.CPR_EQ_CTRL.SEV_MASK, F.CPR_EQ_CTRL.PHASE]
  | .CPR_CQ_MOD => [F.CPR_CQ_MOD.COUNT, F.CPR_CQ_MOD.TIME_US]
  | .CPR_EQ_MOD => [F.CPR_EQ_MOD.COUNT, F.CPR_EQ_MOD.TIME_US]
  | .CPR_EQ_LOST => [F.CPR_EQ_LOST.COUNT]
  | .LKE_CFG => [F.LKE_CFG.MAX_DEPTH]
  | .LKE_STATUS => [F.LKE_STATUS.FORMAT, F.LKE_STATUS.STAGE_FULL, F.LKE_STATUS.TABLE_FULL, F.LKE_STATUS.CLEANUP]
  | .LKE_TBL_SEL => [F.LKE_TBL_SEL.TABLE]
  | .LKE_TBL_INFO => [F.LKE_TBL_INFO.VALID, F.LKE_TBL_INFO.TYPE, F.LKE_TBL_INFO.HINT, F.LKE_TBL_INFO.REGION, F.LKE_TBL_INFO.KEY_LEN, F.LKE_TBL_INFO.LOG2NB, F.LKE_TBL_INFO.STAGE_OPEN, F.LKE_TBL_INFO.CLEANUP, F.LKE_TBL_INFO.SEEDED]
  | .LKE_TBL_BASE => [F.LKE_TBL_BASE.BASE]
  | .LKE_TBL_SIZE => [F.LKE_TBL_SIZE.SIZE]
  | .LKE_TBL_PUB => [F.LKE_TBL_PUB.PUB, F.LKE_TBL_PUB.LOG]
  | .LKE_TBL_KEYS => [F.LKE_TBL_KEYS.COUNT]
  | .LKE_COUNT_SEL => [F.LKE_COUNT_SEL.SEL]
  | .LKE_COUNT_DATA => [F.LKE_COUNT_DATA.COUNT]
  | .QUE_STATUS => [F.QUE_STATUS.QFAULT, F.QUE_STATUS.LEAK, F.QUE_STATUS.POOL_LOW, F.QUE_STATUS.FLUSHING]
  | .QUE_POOL_SEL => [F.QUE_POOL_SEL.POOL]
  | .QUE_POOL_INFO => [F.QUE_POOL_INFO.VALID, F.QUE_POOL_INFO.REGION, F.QUE_POOL_INFO.LOW, F.QUE_POOL_INFO.N8K]
  | .QUE_POOL_BASE => [F.QUE_POOL_BASE.BASE]
  | .QUE_POOL_FREE => [F.QUE_POOL_FREE.FREE]
  | .QUE_Q_SEL => [F.QUE_Q_SEL.QUEUE]
  | .QUE_Q_INFO => [F.QUE_Q_INFO.STATE, F.QUE_Q_INFO.POOL]
  | .QUE_Q_DEPTH => [F.QUE_Q_DEPTH.VALUE]
  | .QUE_Q_THRESH => [F.QUE_Q_THRESH.VALUE]
  | .QUE_Q_DROPS => [F.QUE_Q_DROPS.VALUE]
  | .QUE_COUNT_SEL => [F.QUE_COUNT_SEL.SEL]
  | .QUE_COUNT_DATA => [F.QUE_COUNT_DATA.COUNT]
  | .CKS_PLAN => [F.CKS_PLAN.N_S, F.CKS_PLAN.N_T, F.CKS_PLAN.PFD_SEL]
  | .CKS_COMMIT => [F.CKS_COMMIT.GO, F.CKS_COMMIT.POINT, F.CKS_COMMIT.OUT_MASK]
  | .CKS_STATUS => [F.CKS_STATUS.LOCKED, F.CKS_STATUS.GATED, F.CKS_STATUS.HOLDOVER, F.CKS_STATUS.BYPASS, F.CKS_STATUS.FAILED, F.CKS_STATUS.SEARCH, F.CKS_STATUS.POINT, F.CKS_STATUS.BAND, F.CKS_STATUS.LOL, F.CKS_STATUS.REFUSED, F.CKS_STATUS.INJ_DONE]
  | .CKS_LIVE => [F.CKS_LIVE.N, F.CKS_LIVE.PFD_SEL, F.CKS_LIVE.OUT_EN]
  | .CKS_OUT0 => [F.CKS_OUT0.DIV_S, F.CKS_OUT0.DIV_T, F.CKS_OUT0.DIV_F, F.CKS_OUT0.DELAY, F.CKS_OUT0.EN]
  | .CKS_OUT1 => [F.CKS_OUT1.DIV_S, F.CKS_OUT1.DIV_T, F.CKS_OUT1.DIV_F, F.CKS_OUT1.DELAY, F.CKS_OUT1.EN]
  | .CKS_OUT2 => [F.CKS_OUT2.DIV_S, F.CKS_OUT2.DIV_T, F.CKS_OUT2.DIV_F, F.CKS_OUT2.DELAY, F.CKS_OUT2.EN]
  | .CKS_OUT3 => [F.CKS_OUT3.DIV_S, F.CKS_OUT3.DIV_T, F.CKS_OUT3.DIV_F, F.CKS_OUT3.DELAY, F.CKS_OUT3.EN]
  | .CKS_OUT4 => [F.CKS_OUT4.DIV_S, F.CKS_OUT4.DIV_T, F.CKS_OUT4.DIV_F, F.CKS_OUT4.DELAY, F.CKS_OUT4.EN]
  | .CKS_OUT5 => [F.CKS_OUT5.DIV_S, F.CKS_OUT5.DIV_T, F.CKS_OUT5.DIV_F, F.CKS_OUT5.DELAY, F.CKS_OUT5.EN]
  | .CKS_BAND_SEL => [F.CKS_BAND_SEL.SLOT]
  | .CKS_BAND_DATA => [F.CKS_BAND_DATA.VALID, F.CKS_BAND_DATA.PFD_SEL, F.CKS_BAND_DATA.N, F.CKS_BAND_DATA.BAND, F.CKS_BAND_DATA.TEMP]
  | .CKS_INJ => [F.CKS_INJ.ARM, F.CKS_INJ.DISARM, F.CKS_INJ.ARMED]
  | .CKS_COUNT => [F.CKS_COUNT.LOL, F.CKS_COUNT.SEARCH]
  | .DEV_MODE => [F.DEV_MODE.MODE, F.DEV_MODE.PREV, F.DEV_MODE.BUSY, F.DEV_MODE.LOCKED]
  | .DEV_MODE_CTRL => [F.DEV_MODE_CTRL.REQ_THRIFT, F.DEV_MODE_CTRL.REQ_SERVE, F.DEV_MODE_CTRL.REQ_HOLD, F.DEV_MODE_CTRL.REQ_FREEZE, F.DEV_MODE_CTRL.THRIFT_X8, F.DEV_MODE_CTRL.REFUSED, F.DEV_MODE_CTRL.REASON]
  | .DEV_STATUS => [F.DEV_STATUS.CFG_DEFAULTED, F.DEV_STATUS.IMG_B, F.DEV_STATUS.REPAIR_EMPTY, F.DEV_STATUS.DEG_SUBCH, F.DEV_STATUS.DEG_DIE, F.DEV_STATUS.DEG_HPORT, F.DEV_STATUS.DEG_FPORT, F.DEV_STATUS.DEG_PASSAGE, F.DEV_STATUS.SENIOR_WEST, F.DEV_STATUS.DISAGREE, F.DEV_STATUS.FATAL, F.DEV_STATUS.NO_HOST, F.DEV_STATUS.CARVE_SHORT]
  | .CFG_STATUS => [F.CFG_STATUS.A_VALID, F.CFG_STATUS.B_VALID, F.CFG_STATUS.UPDATING, F.CFG_STATUS.CHECKED, F.CFG_STATUS.SKIPPED, F.CFG_STATUS.GENERATION]
  | .PSG_STATUS => [F.PSG_STATUS.DIE_MODE, F.PSG_STATUS.SENIOR, F.PSG_STATUS.LINK_UP, F.PSG_STATUS.MISSED, F.PSG_STATUS.FENCED, F.PSG_STATUS.RESET_SEEN]
  | .PSG_COUNT => [F.PSG_COUNT.RESETS, F.PSG_COUNT.REFUSED]
  | .EVT_FRZ_CFG => [F.EVT_FRZ_CFG.HOLD]
  | .EVT_FRZ_CTRL => [F.EVT_FRZ_CTRL.FREEZE, F.EVT_FRZ_CTRL.THAW, F.EVT_FRZ_CTRL.FROZEN]
  | .EVT_STATUS => [F.EVT_STATUS.FROZE, F.EVT_STATUS.FRZ_LOST, F.EVT_STATUS.PERMANENT, F.EVT_STATUS.LAST_SLOT]
  | .EVT_FRZ_SEL => [F.EVT_FRZ_SEL.SLOT, F.EVT_FRZ_SEL.WORD]
  | .EVT_FRZ_DATA => [F.EVT_FRZ_DATA.DATA]
  | .EVT_FRZ_INFO => [F.EVT_FRZ_INFO.VALID, F.EVT_FRZ_INFO.HELD, F.EVT_FRZ_INFO.CHANNEL, F.EVT_FRZ_INFO.CAUSE, F.EVT_FRZ_INFO.SEQUENCE]
  | .EVT_PERM_CFG => [F.EVT_PERM_CFG.COUNT, F.EVT_PERM_CFG.WINDOW_H, F.EVT_PERM_CFG.ACTION]
  | .EVT_PERM_SEL => [F.EVT_PERM_SEL.SUB]
  | .EVT_PERM_DATA => [F.EVT_PERM_DATA.WINDOW, F.EVT_PERM_DATA.PERMANENT, F.EVT_PERM_DATA.TOTAL]
  | .PMC_CYC_LO => [F.PMC_CYC_LO.VALUE]
  | .PMC_CYC_HI => [F.PMC_CYC_HI.VALUE]
  | .PMC_OVF_LO => [F.PMC_OVF_LO.OVF]
  | .PMC_OVF_HI => [F.PMC_OVF_HI.OVF]
  | .PMC_THERM_CFG => [F.PMC_THERM_CFG.THROT_C, F.PMC_THERM_CFG.HYST, F.PMC_THERM_CFG.DRAM_C, F.PMC_THERM_CFG.EN]
  | .PMC_TJ_A => [F.PMC_TJ_A.TJ0, F.PMC_TJ_A.TJ1, F.PMC_TJ_A.TJ2, F.PMC_TJ_A.TJ3]
  | .PMC_TJ_B => [F.PMC_TJ_B.TJ0, F.PMC_TJ_B.TJ1, F.PMC_TJ_B.TJ2, F.PMC_TJ_B.TJ3]
  | .PMC_TJ_SUM => [F.PMC_TJ_SUM.TJ_MAX, F.PMC_TJ_SUM.TJ_SENSOR, F.PMC_TJ_SUM.DRAM_MAX, F.PMC_TJ_SUM.LCHAN, F.PMC_TJ_SUM.SUB, F.PMC_TJ_SUM.RANK]
  | .PMC_THROTTLE => [F.PMC_THROTTLE.REQUEST, F.PMC_THROTTLE.BY_TJ, F.PMC_THROTTLE.BY_DRAM, F.PMC_THROTTLE.TRIPPED, F.PMC_THROTTLE.SENSOR_BAD, F.PMC_THROTTLE.BAD_MASK, F.PMC_THROTTLE.THROTTLE_S]
  | .PMC_PWR_A => [F.PMC_PWR_A.RAIL_LO, F.PMC_PWR_A.RAIL_HI]
  | .PMC_PWR_B => [F.PMC_PWR_B.RAIL_LO, F.PMC_PWR_B.RAIL_HI]
  | .PMC_PWR_C => [F.PMC_PWR_C.RAIL_LO, F.PMC_PWR_C.RAIL_HI]
  | .PMC_PWR_DIE => [F.PMC_PWR_DIE.RAIL_LO]
  | .PMC_CNT_CFG => [F.PMC_CNT_CFG.SELECT, F.PMC_CNT_CFG.LCHAN, F.PMC_CNT_CFG.SUB_EN, F.PMC_CNT_CFG.SUB, F.PMC_CNT_CFG.EN, F.PMC_CNT_CFG.CHAIN, F.PMC_CNT_CFG.OVF_EVT]
  | .PMC_CNT_LO => [F.PMC_CNT_LO.VALUE]
  | .PMC_CNT_HI => [F.PMC_CNT_HI.VALUE]
  | .PMC_SHD_LO => [F.PMC_SHD_LO.VALUE]
  | .PMC_SHD_HI => [F.PMC_SHD_HI.VALUE]
  | .CTRG_CTRL => [F.CTRG_CTRL.SNAP, F.CTRG_CTRL.FREEZE, F.CTRG_CTRL.TRIG_EN, F.CTRG_CTRL.CLEAR_ALL, F.CTRG_CTRL.TRIG_CODE]
  | .CTRG_STATUS => [F.CTRG_STATUS.SEQ, F.CTRG_STATUS.FROZEN, F.CTRG_STATUS.TRIGGERED, F.CTRG_STATUS.BUSY, F.CTRG_STATUS.SKEWED]
  | .IDENT_DIE => [F.IDENT_DIE.PRESENT, F.IDENT_DIE.WEST, F.IDENT_DIE.STEPPING, F.IDENT_DIE.DIE_CODE]
  | .IDENT_UNITS => [F.IDENT_UNITS.HPC, F.IDENT_UNITS.FPC, F.IDENT_UNITS.PSG, F.IDENT_UNITS.RRM, F.IDENT_UNITS.CDR, F.IDENT_UNITS.TME, F.IDENT_UNITS.CMP, F.IDENT_UNITS.CIE, F.IDENT_UNITS.CPR, F.IDENT_UNITS.LKE, F.IDENT_UNITS.QUE, F.IDENT_UNITS.EVT, F.IDENT_UNITS.PMC, F.IDENT_UNITS.CKS, F.IDENT_UNITS.CHAN]
  | .IDENT_UID_LO => [F.IDENT_UID_LO.UID]
  | .IDENT_UID_HI => [F.IDENT_UID_HI.UID]
  | .DEV_ID => [F.DEV_ID.PART, F.DEV_ID.STEPPING]
  | .DEV_CAP => [F.DEV_CAP.PART, F.DEV_CAP.WEST, F.DEV_CAP.HP0, F.DEV_CAP.HP1, F.DEV_CAP.FP0, F.DEV_CAP.FP1, F.DEV_CAP.LKE, F.DEV_CAP.QUE, F.DEV_CAP.MIRROR, F.DEV_CAP.RATE128, F.DEV_CAP.SUBCH]
  | .DEV_IGNORED_COUNT => [F.DEV_IGNORED_COUNT.LOCKED, F.DEV_IGNORED_COUNT.UNREACH]
  | .RRM_COUNT_SEL => [F.RRM_COUNT_SEL.SEL]
  | .RRM_COUNT_DATA => [F.RRM_COUNT_DATA.COUNT]
  | .RRM_RGN_RANGE => [F.RRM_RGN_RANGE.BASE, F.RRM_RGN_RANGE.LIMIT]
  | .RRM_RGN_ATTR => [F.RRM_RGN_ATTR.LAYOUT, F.RRM_RGN_ATTR.HOME, F.RRM_RGN_ATTR.MIRROR, F.RRM_RGN_ATTR.INTEGRITY, F.RRM_RGN_ATTR.HINT, F.RRM_RGN_ATTR.PRIO, F.RRM_RGN_ATTR.COHERENT, F.RRM_RGN_ATTR.OWNER, F.RRM_RGN_ATTR.FABRIC_READ, F.RRM_RGN_ATTR.FABRIC_WRITE, F.RRM_RGN_ATTR.KEY_SLOT]
  | .RRM_RGN_PLACE => [F.RRM_RGN_PLACE.DPA_G, F.RRM_RGN_PLACE.BACK_GIB]
  | .RRM_RGN_MAP => [F.RRM_RGN_MAP.MAP_G]
  | .RRM_RGN_CTRL => [F.RRM_RGN_CTRL.ENABLE, F.RRM_RGN_CTRL.BUSY, F.RRM_RGN_CTRL.REFUSED, F.RRM_RGN_CTRL.REASON]

def regNames0 : List RegName := [.CFE_POP, .CFE_STATUS, .CFE_TRAIN_CTRL, .CFE_TRAIN_CRIT, .CFE_DRIFT_CFG, .CFE_WCRC_CFG, .CFE_RESULT_A, .CFE_RESULT_B, .CFE_ERR_STATUS, .CFE_CAPAR_COUNT, .CFE_WCRC_COUNT, .CFE_TREC_SEL, .CFE_TREC_DATA, .MSC_PORT_PRIO, .MSC_ARB_CFG, .MSC_REF_CFG, .MSC_REF_STATUS, .MSC_DRAM_TEMP, .MSC_QSTAT, .MSC_TIMING]
def regNames1 : List RegName := [.MSC_ECHO_CFG, .MSC_ECHO_COUNT, .MSC_ADJ_XOR, .MSC_ADJ_MAP0, .MSC_ADJ_MAP1, .MSC_ADJ_MAP2, .CWU_ERASE, .CWU_STATUS, .CWU_INJ_CTRL, .CWU_INJ_MASK0, .CWU_INJ_MASK1, .CWU_INJ_MASK2, .CWU_INJ_ADDR_LO, .CWU_INJ_ADDR_HI, .CWU_INJ_STATUS, .CWU_INJ_HIT_LO, .CWU_INJ_HIT_HI, .CWU_LAST_A, .CWU_LAST_B, .CWU_SYND_A]
def regNames2 : List RegName := [.CWU_SYND_B, .CWU_UE_COUNT, .CWU_DEVCNT_SEL, .CWU_DEVCNT_DATA, .SRU_CFG, .SRU_SCRUB_CFG, .SRU_SCRUB_POS_A, .SRU_SCRUB_POS_B, .SRU_STAT, .SRU_STATUS, .SRU_REPAIR_CFG, .SRU_ERASE_CFG, .SRU_DRIP_SEL, .SRU_DRIP_DATA, .SRU_REMAP_SEL, .SRU_REMAP_DATA, .SRU_EVAC_CTRL, .SRU_EVAC_POS, .SRU_RETIRE_CTRL, .RGN_RANGE]
def regNames3 : List RegName := [.RGN_ATTR, .RGN_PLACE, .RGN_MAP, .RGN_CTRL, .TME_MAP_CFG, .TME_POLICY, .TME_EPOCH_CFG, .TME_T2_CFG, .TME_T2_SIZE, .TME_POOL_CFG, .TME_STAGE_CFG, .TME_STAGE_HOST_LO, .TME_STAGE_HOST_HI, .TME_STATUS, .TME_FREE_FRAMES, .TME_INIT_CFG, .TME_INIT_SEL, .TME_INIT_DATA, .CMP_CFG, .CMP_STATUS]
def regNames4 : List RegName := [.CMP_STAT_SEL, .CMP_STAT_DATA, .SEC_POLICY, .SEC_STATUS, .SEC_ROT_CFG, .SEC_DENY_COUNT, .SEC_SLOT_SEL, .SEC_SLOT_INFO, .SEC_SLOT_DOM, .SEC_SLOT_ROT, .CIE_INT_CFG, .CIE_STATUS, .CIE_FAIL_COUNT, .CDR_CFG, .CDR_AGENT_MAP, .CDR_STATUS, .CDR_STAT_SEL, .CDR_STAT_DATA, .CDR_PROBE_LO, .CDR_PROBE_HI]
def regNames5 : List RegName := [.CDR_PROBE_RESULT, .HPC_LINK_CFG, .HPC_LINK_STATUS, .HPC_LADDER_CFG, .HPC_LINK_CTRL, .HPC_STATUS, .HPC_COUNT_SEL, .HPC_COUNT_DATA, .HPC_INJ_CTRL, .HPC_INJ_COUNT, .FPC_NODE, .FPC_MAC_LO, .FPC_MAC_HI, .FPC_PORT_CFG, .FPC_TIMER_CFG, .FPC_PEER_SEL, .FPC_PEER_MAC_LO, .FPC_PEER_CTRL, .FPC_PEER_STAT, .FPC_STATUS]
def regNames6 : List RegName := [.FPC_LINK_STATUS, .FPC_COUNT_SEL, .FPC_COUNT_DATA, .FPC_INJ_CTRL, .FPC_INJ_FILTER, .FPC_INJ_COUNT, .CPR_STATUS, .CPR_COUNT_SEL, .CPR_COUNT_DATA, .CPR_SQ_BASE_LO, .CPR_SQ_BASE_HI, .CPR_CQ_BASE_LO, .CPR_CQ_BASE_HI, .CPR_EQ_BASE_LO, .CPR_EQ_BASE_HI, .CPR_SQ_CTRL, .CPR_SQ_PTR, .CPR_CQ_PTR, .CPR_EQ_PTR, .CPR_CQ_CTRL]
def regNames7 : List RegName := [.CPR_EQ_CTRL, .CPR_CQ_MOD, .CPR_EQ_MOD, .CPR_EQ_LOST, .LKE_CFG, .LKE_STATUS, .LKE_TBL_SEL, .LKE_TBL_INFO, .LKE_TBL_BASE, .LKE_TBL_SIZE, .LKE_TBL_PUB, .LKE_TBL_KEYS, .LKE_COUNT_SEL, .LKE_COUNT_DATA, .QUE_STATUS, .QUE_POOL_SEL, .QUE_POOL_INFO, .QUE_POOL_BASE, .QUE_POOL_FREE, .QUE_Q_SEL]
def regNames8 : List RegName := [.QUE_Q_INFO, .QUE_Q_DEPTH, .QUE_Q_THRESH, .QUE_Q_DROPS, .QUE_COUNT_SEL, .QUE_COUNT_DATA, .CKS_PLAN, .CKS_COMMIT, .CKS_STATUS, .CKS_LIVE, .CKS_OUT0, .CKS_OUT1, .CKS_OUT2, .CKS_OUT3, .CKS_OUT4, .CKS_OUT5, .CKS_BAND_SEL, .CKS_BAND_DATA, .CKS_INJ, .CKS_COUNT]
def regNames9 : List RegName := [.DEV_MODE, .DEV_MODE_CTRL, .DEV_STATUS, .CFG_STATUS, .PSG_STATUS, .PSG_COUNT, .EVT_FRZ_CFG, .EVT_FRZ_CTRL, .EVT_STATUS, .EVT_FRZ_SEL, .EVT_FRZ_DATA, .EVT_FRZ_INFO, .EVT_PERM_CFG, .EVT_PERM_SEL, .EVT_PERM_DATA, .PMC_CYC_LO, .PMC_CYC_HI, .PMC_OVF_LO, .PMC_OVF_HI, .PMC_THERM_CFG]
def regNames10 : List RegName := [.PMC_TJ_A, .PMC_TJ_B, .PMC_TJ_SUM, .PMC_THROTTLE, .PMC_PWR_A, .PMC_PWR_B, .PMC_PWR_C, .PMC_PWR_DIE, .PMC_CNT_CFG, .PMC_CNT_LO, .PMC_CNT_HI, .PMC_SHD_LO, .PMC_SHD_HI, .CTRG_CTRL, .CTRG_STATUS, .IDENT_DIE, .IDENT_UNITS, .IDENT_UID_LO, .IDENT_UID_HI, .DEV_ID]
def regNames11 : List RegName := [.DEV_CAP, .DEV_IGNORED_COUNT, .RRM_COUNT_SEL, .RRM_COUNT_DATA, .RRM_RGN_RANGE, .RRM_RGN_ATTR, .RRM_RGN_PLACE, .RRM_RGN_MAP, .RRM_RGN_CTRL]
/-- Every register of the map. -/
def regNames : List RegName := regNames0 ++ regNames1 ++ regNames2 ++ regNames3 ++ regNames4 ++ regNames5 ++ regNames6 ++ regNames7 ++ regNames8 ++ regNames9 ++ regNames10 ++ regNames11

/-- Part 0 of the list of the registers. -/
def allRegs0 : List RegName := [.CFE_POP, .CFE_STATUS, .CFE_TRAIN_CTRL, .CFE_TRAIN_CRIT, .CFE_DRIFT_CFG, .CFE_WCRC_CFG, .CFE_RESULT_A, .CFE_RESULT_B, .CFE_ERR_STATUS, .CFE_CAPAR_COUNT, .CFE_WCRC_COUNT, .CFE_TREC_SEL, .CFE_TREC_DATA, .MSC_PORT_PRIO, .MSC_ARB_CFG, .MSC_REF_CFG, .MSC_REF_STATUS, .MSC_DRAM_TEMP, .MSC_QSTAT, .MSC_TIMING]

/-- Part 1 of the list of the registers. -/
def allRegs1 : List RegName := [.MSC_ECHO_CFG, .MSC_ECHO_COUNT, .MSC_ADJ_XOR, .MSC_ADJ_MAP0, .MSC_ADJ_MAP1, .MSC_ADJ_MAP2, .CWU_ERASE, .CWU_STATUS, .CWU_INJ_CTRL, .CWU_INJ_MASK0, .CWU_INJ_MASK1, .CWU_INJ_MASK2, .CWU_INJ_ADDR_LO, .CWU_INJ_ADDR_HI, .CWU_INJ_STATUS, .CWU_INJ_HIT_LO, .CWU_INJ_HIT_HI, .CWU_LAST_A, .CWU_LAST_B, .CWU_SYND_A]

/-- Part 2 of the list of the registers. -/
def allRegs2 : List RegName := [.CWU_SYND_B, .CWU_UE_COUNT, .CWU_DEVCNT_SEL, .CWU_DEVCNT_DATA, .SRU_CFG, .SRU_SCRUB_CFG, .SRU_SCRUB_POS_A, .SRU_SCRUB_POS_B, .SRU_STAT, .SRU_STATUS, .SRU_REPAIR_CFG, .SRU_ERASE_CFG, .SRU_DRIP_SEL, .SRU_DRIP_DATA, .SRU_REMAP_SEL, .SRU_REMAP_DATA, .SRU_EVAC_CTRL, .SRU_EVAC_POS, .SRU_RETIRE_CTRL, .RGN_RANGE]

/-- Part 3 of the list of the registers. -/
def allRegs3 : List RegName := [.RGN_ATTR, .RGN_PLACE, .RGN_MAP, .RGN_CTRL, .TME_MAP_CFG, .TME_POLICY, .TME_EPOCH_CFG, .TME_T2_CFG, .TME_T2_SIZE, .TME_POOL_CFG, .TME_STAGE_CFG, .TME_STAGE_HOST_LO, .TME_STAGE_HOST_HI, .TME_STATUS, .TME_FREE_FRAMES, .TME_INIT_CFG, .TME_INIT_SEL, .TME_INIT_DATA, .CMP_CFG, .CMP_STATUS]

/-- Part 4 of the list of the registers. -/
def allRegs4 : List RegName := [.CMP_STAT_SEL, .CMP_STAT_DATA, .SEC_POLICY, .SEC_STATUS, .SEC_ROT_CFG, .SEC_DENY_COUNT, .SEC_SLOT_SEL, .SEC_SLOT_INFO, .SEC_SLOT_DOM, .SEC_SLOT_ROT, .CIE_INT_CFG, .CIE_STATUS, .CIE_FAIL_COUNT, .CDR_CFG, .CDR_AGENT_MAP, .CDR_STATUS, .CDR_STAT_SEL, .CDR_STAT_DATA, .CDR_PROBE_LO, .CDR_PROBE_HI]

/-- Part 5 of the list of the registers. -/
def allRegs5 : List RegName := [.CDR_PROBE_RESULT, .HPC_LINK_CFG, .HPC_LINK_STATUS, .HPC_LADDER_CFG, .HPC_LINK_CTRL, .HPC_STATUS, .HPC_COUNT_SEL, .HPC_COUNT_DATA, .HPC_INJ_CTRL, .HPC_INJ_COUNT, .FPC_NODE, .FPC_MAC_LO, .FPC_MAC_HI, .FPC_PORT_CFG, .FPC_TIMER_CFG, .FPC_PEER_SEL, .FPC_PEER_MAC_LO, .FPC_PEER_CTRL, .FPC_PEER_STAT, .FPC_STATUS]

/-- Part 6 of the list of the registers. -/
def allRegs6 : List RegName := [.FPC_LINK_STATUS, .FPC_COUNT_SEL, .FPC_COUNT_DATA, .FPC_INJ_CTRL, .FPC_INJ_FILTER, .FPC_INJ_COUNT, .CPR_STATUS, .CPR_COUNT_SEL, .CPR_COUNT_DATA, .CPR_SQ_BASE_LO, .CPR_SQ_BASE_HI, .CPR_CQ_BASE_LO, .CPR_CQ_BASE_HI, .CPR_EQ_BASE_LO, .CPR_EQ_BASE_HI, .CPR_SQ_CTRL, .CPR_SQ_PTR, .CPR_CQ_PTR, .CPR_EQ_PTR, .CPR_CQ_CTRL]

/-- Part 7 of the list of the registers. -/
def allRegs7 : List RegName := [.CPR_EQ_CTRL, .CPR_CQ_MOD, .CPR_EQ_MOD, .CPR_EQ_LOST, .LKE_CFG, .LKE_STATUS, .LKE_TBL_SEL, .LKE_TBL_INFO, .LKE_TBL_BASE, .LKE_TBL_SIZE, .LKE_TBL_PUB, .LKE_TBL_KEYS, .LKE_COUNT_SEL, .LKE_COUNT_DATA, .QUE_STATUS, .QUE_POOL_SEL, .QUE_POOL_INFO, .QUE_POOL_BASE, .QUE_POOL_FREE, .QUE_Q_SEL]

/-- Part 8 of the list of the registers. -/
def allRegs8 : List RegName := [.QUE_Q_INFO, .QUE_Q_DEPTH, .QUE_Q_THRESH, .QUE_Q_DROPS, .QUE_COUNT_SEL, .QUE_COUNT_DATA, .CKS_PLAN, .CKS_COMMIT, .CKS_STATUS, .CKS_LIVE, .CKS_OUT0, .CKS_OUT1, .CKS_OUT2, .CKS_OUT3, .CKS_OUT4, .CKS_OUT5, .CKS_BAND_SEL, .CKS_BAND_DATA, .CKS_INJ, .CKS_COUNT]

/-- Part 9 of the list of the registers. -/
def allRegs9 : List RegName := [.DEV_MODE, .DEV_MODE_CTRL, .DEV_STATUS, .CFG_STATUS, .PSG_STATUS, .PSG_COUNT, .EVT_FRZ_CFG, .EVT_FRZ_CTRL, .EVT_STATUS, .EVT_FRZ_SEL, .EVT_FRZ_DATA, .EVT_FRZ_INFO, .EVT_PERM_CFG, .EVT_PERM_SEL, .EVT_PERM_DATA, .PMC_CYC_LO, .PMC_CYC_HI, .PMC_OVF_LO, .PMC_OVF_HI, .PMC_THERM_CFG]

/-- Part 10 of the list of the registers. -/
def allRegs10 : List RegName := [.PMC_TJ_A, .PMC_TJ_B, .PMC_TJ_SUM, .PMC_THROTTLE, .PMC_PWR_A, .PMC_PWR_B, .PMC_PWR_C, .PMC_PWR_DIE, .PMC_CNT_CFG, .PMC_CNT_LO, .PMC_CNT_HI, .PMC_SHD_LO, .PMC_SHD_HI, .CTRG_CTRL, .CTRG_STATUS, .IDENT_DIE, .IDENT_UNITS, .IDENT_UID_LO, .IDENT_UID_HI, .DEV_ID]

/-- Part 11 of the list of the registers. -/
def allRegs11 : List RegName := [.DEV_CAP, .DEV_IGNORED_COUNT, .RRM_COUNT_SEL, .RRM_COUNT_DATA, .RRM_RGN_RANGE, .RRM_RGN_ATTR, .RRM_RGN_PLACE, .RRM_RGN_MAP, .RRM_RGN_CTRL]

/-- The setup registers. -/
def allRegs : List RegName := allRegs0 ++ allRegs1 ++ allRegs2 ++ allRegs3 ++ allRegs4 ++ allRegs5 ++ allRegs6 ++ allRegs7 ++ allRegs8 ++ allRegs9 ++ allRegs10 ++ allRegs11

/-- The bits of a register whose reset is "from the Makody image" (R374, R435): those that a pair of the REGISTERS section sets. -/
def imageMask : RegName → Nat
  | .CFE_POP => 0x7F
  | .MSC_PORT_PRIO => 0x3FF
  | .SRU_CFG => 0x3
  | .SRU_SCRUB_CFG => 0x103FF
  | .SRU_REPAIR_CFG => 0x1
  | .RGN_RANGE => 0x1FFF1FFF
  | .RGN_ATTR => 0xFF1FFF
  | .RGN_PLACE => 0x7FF07FF
  | .RGN_MAP => 0x3FFF
  | .TME_MAP_CFG => 0x3FFF
  | .TME_T2_CFG => 0x1FFF0FFF
  | .TME_T2_SIZE => 0x3FFF
  | .SEC_POLICY => 0x3
  | .CIE_INT_CFG => 0x707FF
  | .CDR_AGENT_MAP => 0xFFFFFFFF
  | .HPC_LINK_CFG => 0xFF1F
  | .FPC_NODE => 0x10FFF
  | .FPC_MAC_LO => 0xFFFFFFFF
  | .FPC_MAC_HI => 0xFFFF
  | .FPC_PORT_CFG => 0xFFF001F
  | .CKS_PLAN => 0x3FFFF
  | .CKS_OUT0 => 0x87FF3F3F
  | .CKS_OUT1 => 0x87FF3F3F
  | .CKS_OUT2 => 0x87FF3F3F
  | .CKS_OUT3 => 0x87FF3F3F
  | .CKS_OUT4 => 0x87FF3F3F
  | .CKS_OUT5 => 0x87FF3F3F
  | _ => 0

end Sys2Proof.Machine
end

