-- ==== Sys2Proof/Machine/Ops.lean ====
section
/-!
DEFINITION. Sys2Proof/Machine/Ops.lean: the named operations over the state: dies, subchannels, channels, ranks and
banks; the register file and its fields; the counters; what the device sends; free values.
-/

namespace Sys2Proof.Machine

/-! ### Dies -/

/-- The state of a die. -/
def die (s : State) : Die → DieSt
  | .east => s.east
  | .west => s.west

/-- Change the state of a die. -/
def onDie (d : Die) (f : DieSt → DieSt) (s : State) : State :=
  match d with
  | .east => { s with east := f s.east }
  | .west => { s with west := f s.west }

/-- A present die (Table 0.1). -/
def partDual : Part → Bool
  | .km1624 | .km1622 => true
  | .km1612 | .km1602 => false

/-- Whether a die is present on the part. -/
def diePresent (s : State) : Die → Bool
  | .east => true
  | .west => partDual s.dev.part

/-- The dies present. -/
def diesPresent (s : State) : List Die := if partDual s.dev.part then [.east, .west] else [.east]

/-- The senior die (R10); on single-die parts East. -/
def seniorDie (s : State) : Die := if partDual s.dev.part && s.dev.straps.seniorWest then .west else .east

/-! ### Subchannels, channels, ranks, banks -/

/-- Subchannel `i` (local index, R84) of a die. -/
def sub (s : State) (d : Die) (i : Nat) : SubSt := ngetD (die s d).subs i SubSt.reset

/-- Change subchannel `i` of a die. -/
def onSub (d : Die) (i : Nat) (f : SubSt → SubSt) : State → State :=
  onDie d (fun x => { x with subs := nmod x.subs i SubSt.reset f })

/-- Channel `c` (local) of a die. -/
def chan (s : State) (d : Die) (c : Nat) : ChanSt := ngetD (die s d).chans c ChanSt.reset

/-- Change channel `c` of a die. -/
def onChan (d : Die) (c : Nat) (f : ChanSt → ChanSt) : State → State :=
  onDie d (fun x => { x with chans := nmod x.chans c ChanSt.reset f })

/-- Change the repair units of a die. -/
def onSru (d : Die) (f : SruSt → SruSt) : State → State := onDie d (fun x => { x with sru := f x.sru })

/-- A rank of a subchannel. -/
def rankOf (b : SubSt) (r : Nat) : RankSt := if r = 0 then b.r0 else b.r1

/-- Change a rank of a subchannel. -/
def onRank (r : Nat) (f : RankSt → RankSt) (b : SubSt) : SubSt :=
  if r = 0 then { b with r0 := f b.r0 } else { b with r1 := f b.r1 }

/-- The key of a bank: rank, bank group, bank. -/
def bankKey (rank bg bank : Nat) : Nat := rank * 32 + bg * 4 + bank

/-- A bank of a subchannel. -/
def bankOf (b : SubSt) (k : Nat) : BankSt := ngetD b.banks k BankSt.reset

/-- Change a bank of a subchannel. -/
def onBank (k : Nat) (f : BankSt → BankSt) (b : SubSt) : SubSt := { b with banks := nmod b.banks k BankSt.reset f }

/-! ### The register file -/

/-- The base of a die window (Table 20.1). -/
def windowBase : Die → Nat
  | .east => 0
  | .west => 0x400000

/-- The BAR0 offset of copy i of a register, in a die's window for the registers that have one (R430). For the channel
blocks i is the local channel. -/
def regAddr (r : RegName) (d : Die) (i : Nat) : Nat :=
  let p := regPlace r
  if blockCommon p.block then blockBase p.block + p.off + i * p.stride
  else if blockChannel p.block then windowBase d + blockBase p.block + i * 0x10000 + p.off
  else windowBase d + blockBase p.block + p.off + i * p.stride

/-- The reset value of a register (R435). -/
def regReset (r : RegName) : Nat := (regFields r).foldl (fun v f => setFld v f.lo f.w f.rst) 0

/-- The stored value of a register. -/
def rdReg (s : State) (r : RegName) (d : Die) (i : Nat) : Nat :=
  match nget s.regs (regAddr r d i) with
  | some v => v.toNat
  | none => regReset r

/-- Store a value in a register. -/
def wrReg (r : RegName) (d : Die) (i v : Nat) (s : State) : State :=
  { s with regs := nset s.regs (regAddr r d i) (BitVec.ofNat 32 v) }

/-- The value of a field of copy i of its register in a die's window. -/
def rf (s : State) (f : Fld) (d : Die) (i : Nat) : Nat := fld (rdReg s f.reg d i) f.lo f.w

/-- Whether a one-bit field is 1. -/
def rfb (s : State) (f : Fld) (d : Die) (i : Nat) : Bool := rf s f d i == 1

/-- Store a value in a field. -/
def wf (f : Fld) (d : Die) (i v : Nat) (s : State) : State :=
  wrReg f.reg d i (setFld (rdReg s f.reg d i) f.lo f.w v) s

/-- A field of a register of the common window. -/
def rfc (s : State) (f : Fld) (i : Nat := 0) : Nat := rf s f .east i

/-- Store a value in a field of a register of the common window. -/
def wfc (f : Fld) (v : Nat) (i : Nat := 0) : State → State := wf f .east i v

/-- Add to a count held in a register field, saturating. -/
def cntF (f : Fld) (d : Die) (i n : Nat) (s : State) : State := wf f d i (satAdd f.w (rf s f d i) n) s

/-- Set a flag. -/
def setFlag (f : Fld) (d : Die) (i : Nat) : State → State := wf f d i 1

/-- The field of subchannel A or B of a register that has one of each. -/
def ab (a b : Fld) (i : Nat) : Fld := if i % 2 = 0 then a else b

/-! ### Counts read through a SEL and a DATA register -/

/-- The units that keep selected counts. -/
def cntKey : RegBlock → Nat → Nat
  | .RRM, k => k
  | .CDR, k => 16 + k
  | .CMP, k => 32 + k
  | .HPC, k => 48 + k
  | .FPC, k => 64 + k
  | .CPR, k => 80 + k
  | .LKE, k => 96 + k
  | .QUE, k => 112 + k
  | _, k => 128 + k

/-- A selected count of a unit. -/
def countOf (s : State) (d : Die) (b : RegBlock) (k : Nat) : Nat := ngetD (die s d).counts (cntKey b k) 0

/-- Add to a selected count, saturating at 32 bits. -/
def addCount (d : Die) (b : RegBlock) (k n : Nat) : State → State :=
  onDie d (fun x => { x with counts := nmod x.counts (cntKey b k) 0 (fun v => satAdd 32 v n) })

/-! ### What leaves the device, and free values -/

/-- Send a message. -/
def send (m : OutMsg) (s : State) : State := { s with out := s.out ++ [m] }

/-- Take a free value (log entry 6). -/
def takeFree (s : State) : BitVec 64 × State := (Config.free s.freeCtr, { s with freeCtr := s.freeCtr + 1 })

/-- Do something for every element of a list. -/
def each {α : Type} (l : List α) (f : α → State → State) (s : State) : State := l.foldl (fun t x => f x t) s

/-- Do something where a condition holds. -/
def onlyIf (c : Bool) (f : State → State) (s : State) : State := if c then f s else s

/-- Milliseconds since reset. -/
def msNow (s : State) : Nat := s.upNs / 1000000

end Sys2Proof.Machine
end

