-- ==== Sys2Proof/Machine/Events.lean ====
section
/-!
DEFINITION. Sys2Proof/Machine/Events.lean: posting an event (R388 to R391, R462): the event rings (R299, R300), the
CXL logs (R254, R403), the sideband buffer and the snapshot trigger (R416), and the interrupts of rings (R298).
-/

namespace Sys2Proof.Machine

/-! ### Locators and detail items (Tables 17.1 and 17.3) -/

/-- The locator of an event that names a die only. -/
def locDie (d : Die) : Nat := dieNum d * 128 + 7 * 16

/-- The locator of a channel. -/
def locChan (d : Die) (c : Nat) : Nat := dieNum d * 128 + c * 16

/-- The locator of a subchannel (local index). -/
def locSub (d : Die) (i : Nat) : Nat := dieNum d * 128 + (i / 2) * 16 + 8 + (i % 2) * 4

/-- Severities (Table 17.2). -/
def sevInfo : Nat := 0
def sevCorrected : Nat := 1
def sevDeferred : Nat := 2
def sevUncorrected : Nat := 3
def sevFatal : Nat := 4

/-- A one-byte detail item. -/
def it1 (v : Nat) : List Byte := leBytes 1 v
/-- A count, saturating in its four bytes. -/
def it4 (v : Nat) : List Byte := leBytes 4 (min v 0xFFFFFFFF)
/-- A home line index. -/
def it5 (v : Nat) : List Byte := leBytes 5 v
/-- A DLA or home DPA. -/
def it6 (v : Nat) : List Byte := leBytes 6 v
/-- A node ID. -/
def it2 (v : Nat) : List Byte := leBytes 2 v

/-- The details of a record: the items in order, an item that would not fit whole left out with every later one, and
zeros after the last (R390). -/
def packDetails (items : List (List Byte)) : List Byte :=
  padTo 20 ((items.foldl (fun (p : List Byte × Bool) x =>
    if p.2 && decide (p.1.length + x.length ≤ 20) then (p.1 ++ x, true) else (p.1, false)) ([], true)).1)

/-- The 32 bytes of a record (Table 17.1), with a phase bit for a ring. -/
def eventBytes (e : EventRec) (phase : Bool) : List Byte :=
  leBytes 8 e.ns ++ leBytes 2 e.code ++ leBytes 1 (e.sev + 128 * b2n phase) ++ leBytes 1 e.locator ++ padTo 20 e.details

/-! ### Interrupts -/

/-- Send an MSI-X vector of a port's function, or set its pending bit where it is masked (R298). -/
def sendIrq (d : Die) (vec : Nat) (s : State) : State :=
  if (die s d).hpc.msixMask.contains vec then
    onDie d (fun x => { x with hpc := { x.hpc with msixPend := if x.hpc.msixPend.contains vec then x.hpc.msixPend else x.hpc.msixPend ++ [vec] } }) s
  else addCount d .CPR 2 1 (send (.msix d vec) s)

/-! ### Event rings (R299, R300) -/

/-- The number of entries of a ring. -/
def ringSize (log2 : Nat) : Nat := 2 ^ log2

/-- An event ring beyond its registers. -/
def eqOf (s : State) (d : Die) (e : Nat) : CqSt := ngetD (die s d).cpr.eqs e CqSt.reset

/-- Change an event ring. -/
def onEq (d : Die) (e : Nat) (f : CqSt → CqSt) : State → State :=
  onDie d (fun x => { x with cpr := { x.cpr with eqs := nmod x.cpr.eqs e CqSt.reset f } })

/-- The host bus address of a ring's base. -/
def ringBase (s : State) (lo hi : Fld) (d : Die) (n : Nat) : Nat := rf s lo d n * 4096 + rf s hi d n * 2 ^ 32

/-- Whether an event ring is full (R288). -/
def eqFull (s : State) (d : Die) (e : Nat) : Bool :=
  (rf s F.CPR_EQ_PTR.TAIL d e + 1) % ringSize (rf s F.CPR_EQ_CTRL.LOG2SIZE d e) == rf s F.CPR_EQ_PTR.HEAD d e

/-- Count an entry toward an event ring's interrupt, and send it when COUNT is reached (R298). -/
def eqMod (d : Die) (e : Nat) (s : State) : State :=
  let q := eqOf s d e
  let n := q.sinceIrq + 1
  let q1 := { q with sinceIrq := n, firstNs := if q.sinceIrq = 0 then s.nowNs else q.firstNs }
  if rfb s F.CPR_EQ_CTRL.IRQ_EN d e && decide (max 1 (rf s F.CPR_EQ_MOD.COUNT d e) ≤ n) then
    sendIrq d (rf s F.CPR_EQ_CTRL.VECTOR d e) (onEq d e (fun _ => { q1 with sinceIrq := 0 }) s)
  else onEq d e (fun _ => q1) s

/-- Write one record at the tail of an event ring that has room (R295, R299). -/
def eqPut (d : Die) (e : Nat) (r : EventRec) (s : State) : State :=
  let size := ringSize (rf s F.CPR_EQ_CTRL.LOG2SIZE d e)
  let tail := rf s F.CPR_EQ_PTR.TAIL d e
  let phase := rfb s F.CPR_EQ_CTRL.PHASE d e
  let next := (tail + 1) % size
  s |> send (.hostWrite d (ringBase s F.CPR_EQ_BASE_LO.BASE_LO F.CPR_EQ_BASE_HI.BASE_HI d e + 32 * tail) (eventBytes r phase) false)
    |> wf F.CPR_EQ_PTR.TAIL d e next
    |> onlyIf (next == 0) (wf F.CPR_EQ_CTRL.PHASE d e (b2n (!phase)))
    |> eqMod d e

/-- Offer a record to an event ring: an enabled ring whose SEV_MASK has its severity takes it, or drops and counts it
when full (R299, R300). -/
def eqOffer (d : Die) (e : Nat) (r : EventRec) (s : State) : State :=
  if rfb s F.CPR_EQ_CTRL.EN d e && !(rfb s F.CPR_EQ_CTRL.ERROR d e) && bitn (rf s F.CPR_EQ_CTRL.SEV_MASK d e) r.sev then
    if eqFull s d e then
      s |> onlyIf (rf s F.CPR_EQ_LOST.COUNT d e == 0) (setFlag F.CPR_STATUS.EQ_OVERFLOW d 0)
        |> cntF F.CPR_EQ_LOST.COUNT d e 1 |> addCount d .CPR 6 1
    else addCount d .CPR 5 1 (eqPut d e r s)
  else s

/-! ### CXL logs (R254, R391) -/

/-- The CXL log of a severity: 0 Informational, 1 Warning, 2 Failure, 3 Fatal; none for INFO (Table 17.2). -/
def logOf (sev : Nat) : Option Nat := if sev = 0 then none else some (min (sev - 1) 3)

/-- The CXL timestamp (Get and Set Timestamp). -/
def cxlNow (s : State) : Nat := ((s.nowNs : Int) + s.cxlOffset).toNat

/-- Enter a record in a log of a port, reporting overflow at 256 records. -/
def logPut (p : Die) (k : Nat) (r : EventRec) (dla : Option Nat) (s : State) : State :=
  let t := cxlNow s
  let l := ngetD (die s p).hpc.logs k LogSt.reset
  let l1 : LogSt :=
    if l.recs.length < 256 then
      { l with recs := l.recs ++ [⟨r, l.nextHandle, t, dla⟩], nextHandle := if 65535 ≤ l.nextHandle then 1 else l.nextHandle + 1 }
    else { l with overflow := l.overflow + 1, firstOverNs := if l.overflow = 0 then t else l.firstOverNs, lastOverNs := t }
  let s1 := onDie p (fun x => { x with hpc := { x.hpc with logs := nset x.hpc.logs k l1 } }) s
  match nget (die s p).hpc.irqPolicy k with
  | some v => if v % 16 = 1 then sendIrq p (v / 16) s1 else s1
  | none => s1

/-- The ports whose logs a record enters: both, or those that the binding of the slot of its region covers (R254). -/
def logPorts (s : State) (bind : Option Nat) : List Die :=
  (diesPresent s).filter (fun p => match bind with
    | none => true
    | some b => bitn b (dieNum p))

/-! ### Posting -/

/-- An event to post: its DLA and the binding of its region's slot where it carries a DLA. -/
structure Ev where
  code : Nat
  sev : Nat
  locator : Nat
  items : List (List Byte)
  dla : Option Nat := none
  bind : Option Nat := none
  deriving DecidableEq, Repr

/-- Request a snapshot of the counters of both dies: the senior's cycle count plus 64 is the target (R414). -/
def requestSnap (s : State) : State :=
  if s.snapTarget.isSome || s.dev.mode == .hold then s
  else wfc F.CTRG_STATUS.BUSY 1 0 { s with snapTarget := some ((die s (seniorDie s)).cyc + 64) }

/-- The resolution of a die's timestamps (R389): 5 ns; 10 ns while CKS-A does not run, 40 ns while the auxiliary oscillator clocks management (R361,
R362). -/
def stampStep (s : State) (d : Die) : Nat :=
  if (ngetD (die s d).cks 3 SynthSt.reset).phase = .locked then 5 else if (die s d).refLost then 40 else 10

/-- The present timestamp of a die. -/
def stampNs (s : State) (d : Die) : Nat := s.upNs / stampStep s d * stampStep s d

/-- Whether a die is unreachable: fenced, or beyond a lost Passage (R440). -/
def unreachable (s : State) (d : Die) : Bool :=
  partDual s.dev.part && (rfb s F.PSG_STATUS.FENCED d 0 || (s.psg.lost && !(d == seniorDie s)))

/-- The dies whose rings and logs a die's records reach: across the Passage only while neither die is unreachable. -/
def recordDies (s : State) (d : Die) : List Die :=
  (diesPresent s).filter (fun o => o == d || !(unreachable s d || unreachable s o))

/-- Put a record into every destination of R391. -/
def deliver (d : Die) (r : EventRec) (dla bind : Option Nat) (s : State) : State :=
  let s1 := each (recordDies s d) (fun o => each (List.range 4) (fun e => eqOffer o e r)) s
  let s2 := match logOf r.sev with
    | none => s1
    | some k => each ((logPorts s1 bind).filter (recordDies s d).contains) (fun p => logPut p k r dla) s1
  onlyIf (decide (3 ≤ r.sev)) (send (.sidebandIrq r.sev)) { s2 with sideband := (s2.sideband ++ [r]).drop (s2.sideband.length + 1 - 64) }

/-- How the details of a limited event are made from the held occurrences. -/
inductive LimKind where
  /-- the number of occurrences, then the first one's items -/
  | countFirst
  /-- the first occurrence's items -/
  | first
  /-- the first occurrence's items, then the number of occurrences -/
  | firstCount
  /-- the number of occurrences alone -/
  | count
  /-- a byte for each accumulator, saturating at 255, then their total (0x0B01) -/
  | tally
  deriving DecidableEq, Repr

/-- The interval and the details of the events that have a posting limit (R462); none for the others. -/
def limitOf (code : Nat) : Option (Nat × LimKind) :=
  if code = 0x0401 ∨ code = 0x0402 ∨ code = 0x0403 ∨ code = 0x0404 ∨ code = 0x0106 then some (1000000, .countFirst)
  else if code = 0x0B01 then some (1000000, .tally)
  else if code = 0x0601 ∨ code = 0x0C04 ∨ code = 0x0808 ∨ code = 0x0101 ∨ code = 0x0206 ∨ code = 0x0207 then
    some (1000000000, .count)
  else if code = 0x0607 ∨ code = 0x0F01 ∨ code = 0x010B ∨ code = 0x1065 then some (1000000000, .first)
  else if code = 0x0208 ∨ code = 0x0D02 ∨ code = 0x0505 then some (1000000000, .firstCount)
  else none

/-- The items of a limited event's posting. -/
def limItems (k : LimKind) (n : Nat) (first : List Byte) (acc : List Nat) : List (List Byte) :=
  match k with
  | .countFirst => [it4 n, first]
  | .first => [first]
  | .firstCount => [first, it4 n]
  | .count => [it4 n]
  | .tally => acc.map (fun v => it1 (min v 255)) ++ [it4 (acc.foldl (· + ·) 0)]

/-- Add two lists of tallies. -/
def addTally (a b : List Nat) : List Nat := (List.range (max a.length b.length)).map (fun i => a.getD i 0 + b.getD i 0)

/-- Store the record of a posting limit. -/
def setPost (d : Die) (key : Nat) (p : PostLim) : State → State := onDie d (fun x => { x with posts := nset x.posts key p })

/-- The key of a posting limit: the event and its scope, a number below 65,536. -/
def postKey (code scope : Nat) : Nat := code * 65536 + scope

/-- A posting limit whose interval starts now with nothing held back. -/
def freshLim (s : State) (e : Ev) : PostLim := ⟨s.nowNs, 0, e.sev, e.locator, [], []⟩

/-- Hold an occurrence back. -/
def holdPost (d : Die) (key : Nat) (p : PostLim) (e : Ev) (acc : List Nat) : State → State :=
  setPost d key ⟨p.lastNs, p.held + 1, e.sev, e.locator, if p.held = 0 then e.items.headD [] else p.first, addTally p.acc acc⟩

/-- Make a posting into a record and deliver it. -/
def deliverEv (d : Die) (e : Ev) (s : State) : State :=
  deliver d ⟨stampNs s d, e.code, e.sev, e.locator, packDetails e.items⟩ e.dla e.bind s

/-! ### Programmable counters (R406 to R409) -/

/-- Whether a counter's configuration selects a signal or event of a place: local channel (7 for none) and subchannel. -/
def cfgCounts (cfg sel lch : Nat) (sb : Option Nat) : Bool :=
  let f := fun (x : Fld) => fld cfg x.lo x.w
  let high := sel / 256
  f F.PMC_CNT_CFG.EN == 1 && f F.PMC_CNT_CFG.SELECT == sel &&
    (!(decide (9 ≤ high) && decide (high ≤ 12)) ||
      ((f F.PMC_CNT_CFG.LCHAN == 7 || f F.PMC_CNT_CFG.LCHAN == lch) &&
       (f F.PMC_CNT_CFG.SUB_EN == 0 || some (f F.PMC_CNT_CFG.SUB) == sb)))

/-- Change the counters of a die. -/
def onPmc (d : Die) (f : PmcSt → PmcSt) : State → State := onDie d (fun x => { x with pmc := f x.pmc })

/-- The configuration of a counter. -/
def ctrCfg (s : State) (d : Die) (n : Nat) : Nat := ngetD (die s d).pmc.cfg n 0

/-- Whether an odd counter counts the wraps of its even partner (R409). -/
def ctrChained (s : State) (d : Die) (n : Nat) : Bool := n % 2 == 1 && bitn (ctrCfg s d n) 25

/-- Whether the programmable counters count: not in HOLD, not frozen (R413, R417). -/
def ctrRun (s : State) : Bool := !(s.dev.mode == .hold) && rfc s F.CTRG_STATUS.FROZEN == 0

/-- Add to one counter: its value and whether it wrapped, with its bit of PMC_OVF (R408). -/
def ctrBump (d : Die) (n k : Nat) (s : State) : Bool × State :=
  let v := ngetD (die s d).pmc.cnt n 0 + k
  let s1 := onPmc d (fun p => { p with cnt := nset p.cnt n (v % 2 ^ 48) }) s
  if v < 2 ^ 48 then (false, s1)
  else
    let f := if n < 32 then F.PMC_OVF_LO.OVF else F.PMC_OVF_HI.OVF
    (true, wf f d 0 (setFld (rf s1 f d 0) (n % 32) 1 1) s1)

/-- Add to a counter and, where it wraps, to its chained partner: the counters that wrapped with OVF_EVT = 1 (R408,
R409). -/
def ctrAdd (d : Die) (n k : Nat) (s : State) : List Nat × State :=
  let told := fun (t : State) (m : Nat) => if bitn (ctrCfg t d m) 26 then [m] else []
  let (w, s1) := ctrBump d n k s
  if w then
    if n % 2 = 0 ∧ ctrChained s1 d (n + 1) = true ∧ bitn (ctrCfg s1 d (n + 1)) 24 = true then
      let (w2, s2) := ctrBump d (n + 1) 1 s1
      (told s2 n ++ (if w2 then told s2 (n + 1) else []), s2)
    else (told s1 n, s1)
  else ([], s1)

/-- Count `k` occurrences of a select at a place on every counter of a die that has it selected. -/
def ctrTally (d : Die) (sel lch : Nat) (sb : Option Nat) (k : Nat) (s : State) : List Nat × State :=
  if ctrRun s then
    ((die s d).pmc.cfg.filter (fun p => cfgCounts p.2 sel lch sb && !(ctrChained s d p.1))).foldl
      (fun (a : List Nat × State) p => let (w, t) := ctrAdd d p.1 k a.2; (a.1 ++ w, t)) ([], s)
  else ([], s)

/-- The channel and the subchannel that a locator names (Table 17.1). -/
def locPlace (loc : Nat) : Nat × Option Nat := (fld loc 4 3, if bitn loc 3 then some (fld loc 2 1) else none)

/-- COUNTER_OVERFLOW of a counter. -/
def ovfEv (d : Die) (n : Nat) : Ev := ⟨0x1065, sevInfo, locDie d, [it1 n], none, none⟩

/-- An event has occurred, posted or held back: the snapshot trigger of R416, and the counters that count it with the
overflows that this causes (R406, R408). `fuel` bounds the depth of overflows that overflows cause: an event's counters
wrap at the first level, those that count 0x1065 at the second, and none can wrap again at the third. -/
def occurred : Nat → Die → Nat → Nat → State → State
  | 0, _, _, _, s => s
  | fuel + 1, d, code, loc, s =>
    let s1 :=
      if rfc s F.CTRG_CTRL.TRIG_EN == 1 && rfc s F.CTRG_CTRL.TRIG_CODE == code then
        s |> wfc F.CTRG_CTRL.TRIG_EN 0 0 |> wfc F.CTRG_STATUS.TRIGGERED 1 0 |> requestSnap
          |> deliverEv d ⟨0x1064, sevInfo, locDie d, [it4 code, it1 (rfc s F.CTRG_STATUS.SEQ)], none, none⟩
          |> occurred fuel d 0x1064 (locDie d)
      else s
    let p := locPlace loc
    let (ws, s2) := ctrTally d code p.1 p.2 1 s1
    each ws (fun n t =>
      let key := postKey 0x1065 n
      match nget (die t d).posts key with
      | some q =>
        if q.held = 0 ∧ q.lastNs + 1000000000 ≤ t.nowNs then
          t |> setPost d key (freshLim t (ovfEv d n)) |> deliverEv d (ovfEv d n) |> occurred fuel d 0x1065 (locDie d)
        else t |> holdPost d key q (ovfEv d n) [] |> occurred fuel d 0x1065 (locDie d)
      | none => t |> setPost d key (freshLim t (ovfEv d n)) |> deliverEv d (ovfEv d n) |> occurred fuel d 0x1065 (locDie d)) s2

/-- An event has occurred. -/
def occur (d : Die) (e : Ev) : State → State := occurred 4 d e.code e.locator

/-- Post an event without a posting limit (R388, R391). -/
def post (d : Die) (e : Ev) (s : State) : State := occur d e (deliverEv d e s)

/-- Post an event under its limit in a scope of a die: at once when the interval has passed since the last posting in
the scope, otherwise held back (R462). -/
def postLim (d : Die) (scope : Nat) (e : Ev) (acc : List Nat) (s : State) : State :=
  match limitOf e.code with
  | none => post d e s
  | some (iv, k) =>
    let key := postKey e.code scope
    let now := { e with items := limItems k 1 (e.items.headD []) acc }
    match nget (die s d).posts key with
    | some p =>
      if p.held = 0 ∧ p.lastNs + iv ≤ s.nowNs then post d now (setPost d key (freshLim s e) s)
      else occur d e (holdPost d key p e acc s)
    | none => post d now (setPost d key (freshLim s e) s)

/-- A posting interval ends with occurrences held back: one posting carries them (R462). -/
def postHeld (d : Die) (code scope : Nat) (s : State) : State :=
  match nget (die s d).posts (postKey code scope), limitOf code with
  | some p, some (_, k) =>
    if p.held = 0 then s
    else
      let e : Ev := ⟨code, p.sev, p.locator, limItems k p.held p.first p.acc, none, none⟩
      deliverEv d e (setPost d (postKey code scope) (freshLim s e) s)
  | _, _ => s

/-- Count `k` of a signal of Table 18.1 at a place of a die, with the overflows that this causes. -/
def signal (d : Die) (sel lch : Nat) (sb : Option Nat) (k : Nat) (s : State) : State :=
  let (ws, s1) := ctrTally d sel lch sb k s
  each ws (fun n t => postLim d n (ovfEv d n) [] t) s1

/-- A signal of a die's unit that no channel has. -/
def signalDie (d : Die) (sel k : Nat) : State → State := signal d sel 7 none k

/-- A signal of a subchannel. -/
def signalSub (d : Die) (i sel k : Nat) : State → State := signal d sel (i / 2) (some (i % 2)) k

end Sys2Proof.Machine
end

