-- ==== Sys2Proof/Machine/Operands.lean ====
section
/-!
DEFINITION. Sys2Proof/Machine/Operands.lean: the forms in which a line of memory is named: the home line index and the
fixed mapping of R84 to R88, the fields of Q (Table 3.4), the carved areas (R14, R461), and the region descriptors and
the DLA ranges they map (Table 1.4, R136).
-/

namespace Sys2Proof.Machine

/-! ### Population (R37, Table 3.4) -/

/-- The density code of CFE_POP, the same for every channel (R37). -/
def popDensity (s : State) (d : Die) : Nat := rf s F.CFE_POP.DENSITY d 0

/-- The number of ranks. -/
def popRanks (s : State) (d : Die) : Nat := rf s F.CFE_POP.RANKS d 0 + 1

/-- The 256-B blocks of one rank of a subchannel, by density (Table 3.4). -/
def rankBlocks : Nat → Nat
  | 0 => 0x4000000
  | 1 => 0x6000000
  | 2 => 0x8000000
  | _ => 0x10000000

/-- Qtop: the number of blocks of a subchannel. -/
def qTop (s : State) (d : Die) : Nat := rankBlocks (popDensity s d) * popRanks s d

/-- The rows of a device (Table 3.4). -/
def popRows : Nat → Nat
  | 0 => 65536
  | 1 => 98304
  | 2 => 131072
  | _ => 262144

/-- The rank of a block (R85, R87). -/
def qRank (s : State) (d : Die) (q : Nat) : Nat := if rankBlocks (popDensity s d) ≤ q then 1 else 0

/-- The block number inside its rank (Q′ of R87). -/
def qInRank (s : State) (d : Die) (q : Nat) : Nat := q - qRank s d q * rankBlocks (popDensity s d)

/-- Bank group, bank and row of a block (Table 3.4). -/
def qBg (q : Nat) : Nat := fld q 5 3
def qBank (q : Nat) : Nat := fld q 8 2
def qRow (q : Nat) : Nat := q >>> 10

/-- The bank of a block, as a key. -/
def qBankKey (s : State) (d : Die) (q : Nat) : Nat := bankKey (qRank s d q) (qBg q) (qBank q)

/-- The row of a block within its bank. -/
def qRowOf (s : State) (d : Die) (q : Nat) : Nat := qRow (qInRank s d q)

/-- The column C[10:0] of line `l` of a block (R88). -/
def qCol (q l : Nat) : Nat := (4 * fld q 0 5 + l) * 16

/-- The first block of a row. -/
def rowFirstQ (s : State) (d : Die) (rank bg bank row : Nat) : Nat :=
  rank * rankBlocks (popDensity s d) + row * 1024 + bank * 256 + bg * 32

/-! ### The fixed mapping (R84 to R86) -/

/-- L, the length of the live list; in TRAIN, before the list is formed, the number of positions that it will have (R134). -/
def liveLen (s : State) (d : Die) : Nat :=
  let u := (die s d).sru
  if u.liveList = [] ∧ s.dev.mode = .train then u.positions else u.liveList.length

/-- The place that a home line index maps to: die, subchannel, and 4·Q + line. None where the die serves no memory, or
the index lies beyond the populated blocks. -/
def placeOf (s : State) (h : Nat) : Option (Die × Nat × Nat) :=
  let d := dieOf (fld h 35 1)
  let l := liveLen s d
  let b := fld h 2 33
  if l = 0 then none
  else if b / l < qTop s d then some (d, (die s d).sru.liveList.getD (b % l) 0, 4 * (b / l) + h % 4) else none

/-- The home line index of a location in position `p` of the live list. -/
def homeAt (s : State) (d : Die) (p loc : Nat) : Nat :=
  dieNum d * 2 ^ 35 + (loc / 4 * liveLen s d + p) * 4 + loc % 4

/-- The live-list position that a subchannel fills. The spare of an evacuation that runs has the position of the
failing subchannel (R126). -/
def positionOf (s : State) (d : Die) (i : Nat) : Option Nat :=
  let u := (die s d).sru
  let key := match u.evac with
    | some e => if e.spare = i ∧ !e.rebuild then e.failing else i
    | none => i
  if u.liveList.contains key then some (u.liveList.idxOf key) else none

/-- The home line index of a location of a subchannel (R85). -/
def homeOf (s : State) (d : Die) (i loc : Nat) : Nat := homeAt s d ((positionOf s d i).getD 0) loc

/-- The data lines of a die: its data capacity in 64-B lines (R13). -/
def dieLines (s : State) (d : Die) : Nat := liveLen s d * qTop s d * 4

/-! ### Carved areas (R14, R461) -/

/-- The size in lines of the remap spare area (R116). -/
def remapLines (s : State) (d : Die) : Nat := 32 * liveLen s d

/-- Whole MiB in lines. -/
def mibLines (n : Nat) : Nat := n * 16384

/-- The levels of the tree by REPLAY code (Table 8.5). -/
def treeLevels (c : Nat) : Nat := if c = 0 then 0 else if c = 1 then 7 else if c ≤ 4 then 8 else 9

/-- The nodes of the levels below level k (R197); one node is one line. -/
def nodesBelow (c k : Nat) : Nat := (List.range k).foldl (fun n j => n + (2 ^ (c - 1) * 2 ^ 21) / 8 ^ j) 0

/-- The tree size of Table 8.5 in lines, by REPLAY code. -/
def treeNodes (c : Nat) : Nat := nodesBelow c (treeLevels c)

/-- The size in lines of the integrity metadata area as CIE_INT_CFG sets it (R200); REPLAY 7 acts as 6. -/
def integrityLines (s : State) (d : Die) : Nat :=
  let n := treeNodes (min 6 (rf s F.CIE_INT_CFG.REPLAY d 0))
  mibLines (rf s F.CIE_INT_CFG.MAC_GIB d 0 * 128) + (n + 16383) / 16384 * 16384

/-- The size in lines of the page-map area as the registers set it (R141). -/
def mapLines (s : State) (d : Die) : Nat :=
  rf s F.TME_MAP_CFG.MAP_GIB d 0 * 65536 + rf s F.TME_T2_SIZE.SIZE_G d 0 * 512

/-- Whether the three areas fit the die's data capacity (R461). -/
def carveFits (s : State) (d : Die) : Bool :=
  decide (remapLines s d + integrityLines s d + mapLines s d ≤ dieLines s d)

/-- The registers as the die acts on them, the area-sizing ones being 0 after a refused carve (R461). -/
def carved (s : State) (d : Die) (v : Nat) : Nat := if carveFits s d then v else 0

/-- The lines of a die below its carved areas: what regions may map. -/
def freeTop (s : State) (d : Die) : Nat :=
  dieLines s d - remapLines s d - carved s d (integrityLines s d) - carved s d (mapLines s d)

/-- The area of a home line index, as the detail item of 0x0C01 (Table 17.12): 2 page map, 3 integrity metadata,
4 remap spare; none below the areas. -/
def areaOf (s : State) (h : Nat) : Option Nat :=
  let d := dieOf (fld h 35 1)
  let x := fld h 0 35
  if dieLines s d ≤ x + remapLines s d then some 4
  else if dieLines s d ≤ x + remapLines s d + carved s d (integrityLines s d) then some 3
  else if freeTop s d ≤ x then some 2 else none

/-! ### Region descriptors (Table 1.4) -/

/-- A word of a descriptor: of one that is being disabled, as what is bound to it keeps it (R20). -/
def rgWord (s : State) (r : RegName) (n : Nat) : Nat :=
  match nget s.bound n, r with
  | some b, .RGN_RANGE => b.range
  | some b, .RGN_ATTR => b.attr
  | some b, .RGN_PLACE => b.place
  | some b, .RGN_MAP => b.map
  | _, _ => rdReg s r .east n

/-- A field of a region descriptor. -/
def rg (s : State) (f : Fld) (n : Nat) : Nat := fld (rgWord s f.reg n) f.lo f.w

/-- The attribute word of a descriptor, which a request keeps (R20). -/
def rgAttr (s : State) (n : Nat) : Nat := rgWord s .RGN_ATTR n

/-- A field of an attribute word. -/
def at_ (a : Nat) (f : Fld) : Nat := fld a f.lo f.w

def atMirror (a : Nat) : Bool := at_ a F.RGN_ATTR.MIRROR == 1
def atTiered (a : Nat) : Bool := at_ a F.RGN_ATTR.LAYOUT == 1
def atCoherent (a : Nat) : Bool := at_ a F.RGN_ATTR.COHERENT == 1
def atSlot (a : Nat) : Nat := at_ a F.RGN_ATTR.KEY_SLOT
def atInteg (a : Nat) : Nat := at_ a F.RGN_ATTR.INTEGRITY
def atOwner (a : Nat) : Nat := at_ a F.RGN_ATTR.OWNER
def atHome (a : Nat) : Die := dieOf (at_ a F.RGN_ATTR.HOME)

/-- Whether the modes let requests be decoded: SERVE, DEGRADED and THRIFT. -/
def serving (s : State) : Bool := s.dev.mode == .serve || s.dev.mode == .degraded || s.dev.mode == .thrift

/-- Whether a die's core runs from the bypass (R361). -/
def coreBypass (s : State) (d : Die) : Bool := rfb s F.CKS_STATUS.BYPASS d 0

/-- Whether ENABLE of a descriptor is 1. -/
def rgOn (s : State) (n : Nat) : Bool := rg s F.RGN_CTRL.ENABLE n == 1

/-- Whether a descriptor is enabled and its fill is done: the RRM decodes requests to it (R138, R139). -/
def rgLive (s : State) (n : Nat) : Bool := rg s F.RGN_CTRL.ENABLE n == 1 && rg s F.RGN_CTRL.BUSY n == 0

/-- Whether a descriptor's DLA range holds a DLA (43 bits). -/
def rgHolds (s : State) (n dla : Nat) : Bool :=
  decide (rg s F.RGN_RANGE.BASE n ≤ dla / 2 ^ 30) && decide (dla / 2 ^ 30 ≤ rg s F.RGN_RANGE.LIMIT n)

/-- The enabled region of a DLA (R19): none in the modes that decode every request as unmapped. -/
def regionOf (s : State) (dla : Nat) : Option Nat :=
  if serving s then (List.range 64).find? (fun n => rgLive s n && rgHolds s n dla) else none

/-- The size of a region in GiB. -/
def rgGib (s : State) (n : Nat) : Nat := rg s F.RGN_RANGE.LIMIT n + 1 - rg s F.RGN_RANGE.BASE n

/-- The home line index, on a die, of a DLA of a flat region: DPA follows DLA linearly. -/
def flatHome (s : State) (n : Nat) (d : Die) (dla : Nat) : Nat :=
  dieNum d * 2 ^ 35 + rg s F.RGN_PLACE.DPA_G n * 2 ^ 24 + (dla - rg s F.RGN_RANGE.BASE n * 2 ^ 30) / 64

/-- The flat region, and the DLA in it, whose data lie at a home line index: the inverse of `flatHome`. -/
def flatOf (s : State) (h : Nat) : Option (Nat × Nat) :=
  let d := dieOf (fld h 35 1)
  let x := fld h 0 35
  ((List.range 64).find? (fun n =>
    let a := rgAttr s n
    rgLive s n && !(atTiered a) && (atMirror a || atHome a == d) &&
      decide (rg s F.RGN_PLACE.DPA_G n * 2 ^ 24 ≤ x) && decide (x < (rg s F.RGN_PLACE.DPA_G n + rgGib s n) * 2 ^ 24))).map
    (fun n => (n, rg s F.RGN_RANGE.BASE n * 2 ^ 30 + (x - rg s F.RGN_PLACE.DPA_G n * 2 ^ 24) * 64))

/-- The tiered region whose backing holds a home line index. -/
def backingOf (s : State) (h : Nat) : Option Nat :=
  let d := dieOf (fld h 35 1)
  let x := fld h 0 35
  (List.range 64).find? (fun n =>
    let a := rgAttr s n
    rgLive s n && atTiered a && atHome a == d && decide (rg s F.RGN_PLACE.DPA_G n * 2 ^ 24 ≤ x) &&
      decide (x < (rg s F.RGN_PLACE.DPA_G n + rg s F.RGN_PLACE.BACK_GIB n) * 2 ^ 24))

/-- The region and DLA of the line that a home line index holds: of a flat region, or of a page in T0. -/
def dlaOf (s : State) (h : Nat) : Option (Nat × Nat) :=
  match flatOf s h, backingOf s h with
  | some x, _ => some x
  | none, some n =>
    let f := fld h 0 35 / 64
    let lo := rg s F.RGN_MAP.MAP_G n * 262144
    ((die s (dieOf (fld h 35 1))).tme.pages.find? (fun p => p.2.tier == 1 && p.2.place == f && decide (lo ≤ p.1))).map
      (fun p => (n, rg s F.RGN_RANGE.BASE n * 2 ^ 30 + (p.1 - lo) * 4096 + h % 64 * 64))
  | none, none => none

/-- Leave work to be done before the step ends. -/
def later (t : Todo) (s : State) : State := { s with todo := s.todo ++ [t] }

/-- The binding of a region's key slot, as event records carry it: bit 0 HP0, bit 1 HP1 (R254); read from the slot
state by the callers. The die of a request's home copy: the issuing die for a mirrored read (R25), the region's home
otherwise (R23). -/
def homeDie (a : Nat) (issuer : Die) : Die := if atMirror a then issuer else atHome a

/-- The die of a requester port. -/
def portDie : Port → Die → Die
  | .hp0, _ => .east | .hp1, _ => .west | .fp0, _ => .east | .fp1, _ => .west
  | .lke, d => d | .que, d => d | .tme, d => d | .sru, d => d | .cpr, d => d

end Sys2Proof.Machine
end

