-- ==== Sys2Proof/Machine/Flags.lean ====
section
/-!
DEFINITION. Sys2Proof/Machine/Flags.lean: status flags and the counters that go with them (R392, R393), and the flags
whose register has one bit or count per subchannel.
-/

namespace Sys2Proof.Machine

/-- Set the flag of subchannel `i` (local index) in its channel's register. -/
def setFlagSub (fa fb : Fld) (d : Die) (i : Nat) : State → State := setFlag (ab fa fb i) d (i / 2)

/-- Count in the field of subchannel `i` in its channel's register, saturating (R393). -/
def cntSub (fa fb : Fld) (d : Die) (i n : Nat) : State → State := cntF (ab fa fb i) d (i / 2) n

/-- Write the field of subchannel `i` in its channel's register. -/
def wfSub (fa fb : Fld) (d : Die) (i v : Nat) : State → State := wf (ab fa fb i) d (i / 2) v

/-- The field of one of the four subchannel and rank pairs of a channel. -/
def byRank (a0 a1 b0 b1 : Fld) (i r : Nat) : Fld :=
  if i % 2 = 0 then (if r = 0 then a0 else a1) else (if r = 0 then b0 else b1)

/-- Clearing W1C bits: a flag that the mask names is cleared, the others stand (R392). -/
def w1c (cur mask : Nat) (w : Nat) : Nat := (List.range w).foldl (fun v i => if bitn mask i then setFld v i 1 0 else v) cur

end Sys2Proof.Machine
end

