-- ==== Sys2Proof/Machine/Sha.lean ====
section
/-!
DEFINITION. Sys2Proof/Machine/Sha.lean: SHA-384 (FIPS 180-4), HMAC-SHA-384 (FIPS 198-1) and the counter-mode KDF of NIST SP 800-108
(Table 8.1, R179, R207). A message is a list of bytes as numbers.
-/

namespace Sys2Proof.Machine

/-- Rotate a 64-bit word right. -/
def rotr64 (n x : Nat) : Nat := (x >>> n) + (x % 2 ^ n) * 2 ^ (64 - n)

/-- Add 64-bit words. -/
def add64 (xs : List Nat) : Nat := xs.foldl (· + ·) 0 % 2 ^ 64

/-- Exclusive or of three words. -/
def xor3 (a b c : Nat) : Nat := Nat.xor (Nat.xor a b) c

/-- The first half of the constants of the rounds. -/
def shaK1 : List Nat :=
  [0x428a2f98d728ae22, 0x7137449123ef65cd, 0xb5c0fbcfec4d3b2f, 0xe9b5dba58189dbbc,
   0x3956c25bf348b538, 0x59f111f1b605d019, 0x923f82a4af194f9b, 0xab1c5ed5da6d8118,
   0xd807aa98a3030242, 0x12835b0145706fbe, 0x243185be4ee4b28c, 0x550c7dc3d5ffb4e2,
   0x72be5d74f27b896f, 0x80deb1fe3b1696b1, 0x9bdc06a725c71235, 0xc19bf174cf692694,
   0xe49b69c19ef14ad2, 0xefbe4786384f25e3, 0xfc19dc68b8cd5b5, 0x240ca1cc77ac9c65,
   0x2de92c6f592b0275, 0x4a7484aa6ea6e483, 0x5cb0a9dcbd41fbd4, 0x76f988da831153b5,
   0x983e5152ee66dfab, 0xa831c66d2db43210, 0xb00327c898fb213f, 0xbf597fc7beef0ee4,
   0xc6e00bf33da88fc2, 0xd5a79147930aa725, 0x6ca6351e003826f, 0x142929670a0e6e70,
   0x27b70a8546d22ffc, 0x2e1b21385c26c926, 0x4d2c6dfc5ac42aed, 0x53380d139d95b3df,
   0x650a73548baf63de, 0x766a0abb3c77b2a8, 0x81c2c92e47edaee6, 0x92722c851482353b]

/-- The second half. -/
def shaK2 : List Nat :=
  [0xa2bfe8a14cf10364, 0xa81a664bbc423001, 0xc24b8b70d0f89791, 0xc76c51a30654be30,
   0xd192e819d6ef5218, 0xd69906245565a910, 0xf40e35855771202a, 0x106aa07032bbd1b8,
   0x19a4c116b8d2d0c8, 0x1e376c085141ab53, 0x2748774cdf8eeb99, 0x34b0bcb5e19b48a8,
   0x391c0cb3c5c95a63, 0x4ed8aa4ae3418acb, 0x5b9cca4f7763e373, 0x682e6ff3d6b2b8a3,
   0x748f82ee5defb2fc, 0x78a5636f43172f60, 0x84c87814a1f0ab72, 0x8cc702081a6439ec,
   0x90befffa23631e28, 0xa4506cebde82bde9, 0xbef9a3f7b2c67915, 0xc67178f2e372532b,
   0xca273eceea26619c, 0xd186b8c721c0c207, 0xeada7dd6cde0eb1e, 0xf57d4f7fee6ed178,
   0x6f067aa72176fba, 0xa637dc5a2c898a6, 0x113f9804bef90dae, 0x1b710b35131c471b,
   0x28db77f523047d84, 0x32caab7b40c72493, 0x3c9ebe0a15c9bebc, 0x431d67c49c100d4c,
   0x4cc5d4becb3e42b6, 0x597f299cfc657e2a, 0x5fcb6fab3ad6faec, 0x6c44198c4a475817]

/-- The initial hash value of SHA-384. -/
def shaH : List Nat :=
  [0xcbbb9d5dc1059ed8, 0x629a292a367cd507, 0x9159015a3070dd17, 0x152fecd8f70e5939,
   0x67332667ffc00b31, 0x8eb44a8768581511, 0xdb0c2e0d64f98fa7, 0x47b5481dbefa4fa4]

/-- The message schedule of a block, latest word first. -/
def shaWords : Nat → List Nat → List Nat
  | 0, w => w
  | n + 1, w =>
    let a := w.getD 1 0
    let b := w.getD 14 0
    let s1 := xor3 (rotr64 19 a) (rotr64 61 a) (a >>> 6)
    let s0 := xor3 (rotr64 1 b) (rotr64 8 b) (b >>> 7)
    shaWords n (add64 [s1, w.getD 6 0, s0, w.getD 15 0] :: w)

/-- One round: the eight working words, with a round's constant and word. -/
def shaRound (v : List Nat) (p : Nat × Nat) : List Nat :=
  match v with
  | [a, b, c, d, e, f, g, h] =>
    let t1 := add64 [h, xor3 (rotr64 14 e) (rotr64 18 e) (rotr64 41 e), Nat.xor (Nat.land e f) (Nat.land (2 ^ 64 - 1 - e) g), p.1, p.2]
    let t2 := xor3 (rotr64 28 a) (rotr64 34 a) (rotr64 39 a) + xor3 (Nat.land a b) (Nat.land a c) (Nat.land b c)
    [(t1 + t2) % 2 ^ 64, a, b, c, (d + t1) % 2 ^ 64, e, f, g]
  | _ => v

/-- The number that big-endian bytes spell. -/
def shaNum (bs : List Nat) : Nat := bs.foldl (fun v b => 256 * v + b) 0

/-- The big-endian bytes of a number. -/
def shaBytes (n v : Nat) : List Nat := ((List.range n).map (fun i => (v >>> (8 * i)) % 256)).reverse

/-- One block of 128 bytes. -/
def shaBlock (hs block : List Nat) : List Nat :=
  let ws := (shaWords 64 ((List.range 16).map (fun k => shaNum ((block.drop (8 * k)).take 8))).reverse).reverse
  List.zipWith (fun x y => (x + y) % 2 ^ 64) hs (((shaK1 ++ shaK2).zip ws).foldl shaRound hs)

/-- SHA-384 of a message: 48 bytes. -/
def sha384 (msg : List Nat) : List Nat :=
  let pad := msg ++ [0x80] ++ List.replicate ((240 - (msg.length + 1) % 128) % 128) 0 ++ shaBytes 16 (8 * msg.length)
  let hs := (List.range (pad.length / 128)).foldl (fun h k => shaBlock h ((pad.drop (128 * k)).take 128)) shaH
  (hs.take 6).flatMap (shaBytes 8)

/-- HMAC-SHA-384. -/
def hmac384 (key msg : List Nat) : List Nat :=
  let k := (if 128 < key.length then sha384 key else key)
  let k0 := k ++ List.replicate (128 - k.length) 0
  sha384 (k0.map (Nat.xor 0x5C) ++ sha384 (k0.map (Nat.xor 0x36) ++ msg))

/-- 32 bytes of the KDF of SP 800-108 in counter mode, with HMAC-SHA-384 keyed by a key, over a secret: the counter is 32 bits
big-endian, and the secret is all of the fixed input (DESIGN CHOICE, log entry 127). -/
def kdf108 (key secret : List Nat) : List Nat := (hmac384 key (shaBytes 4 1 ++ secret)).take 32

end Sys2Proof.Machine
end

