-- ==== Sys2Proof/Machine/Keys.lean ====
section
/-!
DEFINITION. Sys2Proof/Machine/Keys.lean: the keys of Table 8.1 that are drawn, derived and carried: the DRBG of each die (R181), the root key
and what the senior die derives from it (R179), sealing (R206), and the wrapped transfer to the junior die (R180, R181).
-/

namespace Sys2Proof.Machine

/-! ### The DRBG (R181) -/

/-- The bytes of the next seed of a die's entropy source. -/
def entropyBytes (s : State) (d : Die) : List Nat := beNums 48 (Config.entropy (dieNum d) (die s d).drbgSeeds).toNat

/-- A die's DRBG is seeded from its entropy source, at boot. -/
def drbgBoot (d : Die) (s : State) : State :=
  onDie d (fun x => { x with drbg := drbgSeed (entropyBytes s d), drbgSeeds := x.drbgSeeds + 1, drbgUsed := 0 }) s

/-- A die's DRBG is reseeded when it has answered 2^20 requests. -/
def drbgReseed (d : Die) (s : State) : State :=
  if (die s d).drbgStopped ∨ (die s d).drbgUsed < 2 ^ 20 then s
  else onDie d (fun x => { x with drbg := drbgMix (entropyBytes s d) x.drbg, drbgSeeds := x.drbgSeeds + 1, drbgUsed := 0 }) s

/-- A generate request to the DRBG of a die: 64 bytes, as a little-endian number. -/
def drbgDraw (d : Die) (s : State) : BitVec 512 × State :=
  let s1 := drbgReseed d s
  let (out, st) := drbgOut (die s1 d).drbg
  (BitVec.ofNat 512 (leVal out), onDie d (fun x => { x with drbg := st, drbgUsed := x.drbgUsed + 1 }) s1)

/-! ### The keys of the senior die (R179, R206) -/

/-- The root key of a die: the KDF keyed by its PUF response, over its OTP secret (Table 8.1). -/
def rootKey (d : Die) : BitVec 256 :=
  BitVec.ofNat 256 (beVal (kdf108 (beNums 32 (Config.pufResponse (dieNum d)).toNat) (beNums 32 (Config.otpSecret (dieNum d)).toNat)))

/-- A key sealed for the flash, and unsealed from it. -/
def sealKey (k : BitVec 384) (x : Key) : Key := Config.sealing k x
def unsealKey (k : BitVec 384) (x : Key) : Key := (Config.sealing k).symm x

/-- The senior die derives its identity, alias and sealing keys from the root key, with the measurement of the firmware that runs, and discards
the root key; the CAK is unsealed (R179, R206). -/
def deriveKeys (measurement : List Nat) (s : State) : State :=
  let root := rootKey (seniorDie s)
  let sk := Config.derivedKey 2 root []
  { s with msx := ⟨some (Config.derivedKey 0 root []), some (Config.derivedKey 1 root measurement), some sk,
                   s.dev.flash.cak.map (unsealKey sk)⟩ }

/-! ### Keys on the Passage (R180, R181) -/

/-- A key drawn by the senior die goes to the junior die, where there is one, wrapped under the Passage wrap key. -/
def carryKey (k : Key) (s : State) : State :=
  match s.psg.wrap with
  | some w => { s with psg := { s.psg with keyMsg := some (Config.wrapping w k) } }
  | none => s

/-- A key for the CIE of both dies: drawn from the senior die's DRBG, and sent to the junior (R181). -/
def newKey (s : State) : Key × State :=
  let (k, s1) := drbgDraw (seniorDie s) s
  (k, carryKey k s1)

/-- Two new keys for a slot: the XTS pair and the MAC key (Table 8.1). -/
def newKeys (s : State) : Key × Key × State :=
  let (x, s1) := newKey s
  let (m, s2) := newKey s1
  (x, m, s2)

/-- A new internal metadata key. -/
def newMetaKey (s : State) : State :=
  let (x, m, s1) := newKeys s
  { s1 with metaKey := some (x, m) }

end Sys2Proof.Machine
end

