-- ==== Sys2Proof/Machine/CieLine.lean ====
section
/-!
DEFINITION. Sys2Proof/Machine/CieLine.lean: the CIE's work on one line or one tier-1 sector: keys by position (R202),
tweaks (Table 8.4), encryption (R189, R191), versions and MACs (R193 to R195), and failed tree nodes (R199).
-/

namespace Sys2Proof.Machine

/-- A key slot. -/
def slotOf (s : State) (n : Nat) : SlotSt := ngetD s.slots n SlotSt.reset

/-- The binding of a region's key slot. -/
def bindOf (s : State) (a : Nat) : Nat := (slotOf s (atSlot a)).bind

/-- The block of a home line index inside a region's data or backing. -/
def rgBlock (s : State) (n h : Nat) : Nat := (fld h 0 35 - rg s F.RGN_PLACE.DPA_G n * 2 ^ 24) / 4

/-- Whether a line of a region lies before a slot's rotation cursor (R202). -/
def beforeCursor (s : State) (k : SlotSt) (n h : Nat) : Bool :=
  decide (n < k.curRegion) || (n == k.curRegion && decide (rgBlock s n h < k.curBlock))

/-- The XTS key, MAC key and key epoch that the position of a line selects (R202). -/
def lineKeys (s : State) (n a h : Nat) : Key × Key × Nat :=
  let k := slotOf s (atSlot a)
  if k.st = .rotating ∧ beforeCursor s k n h = false then (k.pxts, k.pmac, k.epoch - 1) else (k.xts, k.mac, k.epoch)

/-- The tweak of a line (Table 8.4). -/
def tweakLine (h epoch : Nat) : BitVec 128 := BitVec.ofNat 128 (fld h 0 36 + fld epoch 0 16 * 2 ^ 80)

/-- The tweak of a T1 sector, by the home line index of its first line (Table 8.4). -/
def tweakSector (h epoch : Nat) : BitVec 128 :=
  BitVec.ofNat 128 (fld h 2 34 * 2 ^ 36 + fld epoch 0 16 * 2 ^ 80 + 2 ^ 120)

/-- Encrypt a line. -/
def encLine (k : Key) (epoch h : Nat) (l : Line) : Line := xtsLine k (tweakLine h epoch) l

/-- Decrypt a line. -/
def decLine (k : Key) (epoch h : Nat) (c : Line) : Line := xtsUnline k (tweakLine h epoch) c

/-- Four lines as a 256-B unit. -/
def joinSector (ls : List Line) : BitVec 2048 :=
  ls.zipIdx.foldl (fun (v : BitVec 2048) p => v ||| BitVec.shiftLeft (p.1.zeroExtend 2048) (512 * p.2)) 0

/-- Line k of a 256-B unit. -/
def sectorLine (v : BitVec 2048) (k : Nat) : Line := v.extractLsb' (512 * k) 512

/-- Encrypt a sector whose first line has home line index h. -/
def encSector (k : Key) (epoch h : Nat) (ls : List Line) : List Line :=
  let c := xtsSector k (tweakSector h epoch) (joinSector ls)
  (List.range 4).map (sectorLine c)

/-- Decrypt a sector. -/
def decSector (k : Key) (epoch h : Nat) (ls : List Line) : List Line :=
  let p := xtsUnsector k (tweakSector h epoch) (joinSector ls)
  (List.range 4).map (sectorLine p)

/-- The integrity metadata of a line of a die; unlisted is blank (R195). -/
def metaOf (s : State) (h : Nat) : LineMeta :=
  ngetD (die s (dieOf (fld h 35 1))).lmeta (fld h 0 35) LineMeta.blank

/-- Store the integrity metadata of a line. -/
def setMeta (h : Nat) (m : LineMeta) : State → State :=
  onDie (dieOf (fld h 35 1)) (fun x => { x with lmeta := nset x.lmeta (fld h 0 35) m })

/-- The MAC of a line's ciphertext (R194). -/
def lineMac (k : Key) (c : Line) (h ver epoch slot : Nat) : BitVec 56 :=
  BitVec.ofNat 56 (cmacTop 7 k (lineBytes c ++ leBytes 5 h ++ leBytes 7 ver ++ leBytes 2 epoch ++ leBytes 1 slot ++ leBytes 1 0))

/-- The next version of a line (R195): VERSION in MAC mode, the leaf counter in MAC+REPLAY mode. -/
def nextVer (integ ver : Nat) : Nat := if integ = 1 then (if 255 ≤ ver then 1 else ver + 1) else (ver + 1) % 2 ^ 56

/-- Whether ciphertext passes its integrity check against metadata (R194, R195). -/
def macOk (s : State) (n a h : Nat) (m : LineMeta) (c : Line) : Bool :=
  if atInteg a = 0 then true
  else if m.ver = 0 then decide (c = 0) && decide (m.mac = some 0)
  else
    let ks := lineKeys s n a h
    decide (m.mac = some (lineMac ks.2.1 c h m.ver ks.2.2 (atSlot a)))

/-- The offset in lines of a DLA in its region. -/
def rgLine (s : State) (n dla : Nat) : Nat := (dla - rg s F.RGN_RANGE.BASE n * 2 ^ 30) / 64

/-! ### The shares of regions, and the replay tree (R197 to R200) -/

/-- The GiB unit of a part of the integrity metadata area that holds GiB g of a region's share. -/
def unitOf (m : NMap (Nat × Nat)) (n g : Nat) : Option Nat := (m.find? (fun p => p.2 == (n, g))).map (·.1)

/-- The level-0 node of line l of a region on a die: the node's index in the tree. -/
def leafNode (s : State) (d : Die) (n l : Nat) : Option Nat :=
  (unitOf (die s d).treeUnits n (l / 2 ^ 24)).map (fun v => v * 2 ^ 21 + l % 2 ^ 24 / 8)

/-- The metadata line of line l of a region on a die: its place in the area. -/
def metaLine (s : State) (d : Die) (n l : Nat) : Option Nat :=
  (unitOf (die s d).macUnits n (l / 2 ^ 24)).map (fun u => u * 2 ^ 21 + l % 2 ^ 24 / 8)

/-- The key in the node cache of a metadata line, and of a node of a level of the tree. -/
def mlKey (i : Nat) : Nat := i
def nodeKey (k i : Nat) : Nat := (k + 1) * 2 ^ 40 + i

/-- The key of the counter that covers a node of the tree: of a node of the top level, in the on-die root. -/
def ctrKey (k i : Nat) : Nat := k * 2 ^ 40 + i

/-- REPLAY of a die as it acts. -/
def replayCode (s : State) (d : Die) : Nat := carved s d (min 6 (rf s F.CIE_INT_CFG.REPLAY d 0))

/-- A line of the node cache is dirty; one that is not there any more comes back as the CIE holds it for the request that needed it (DESIGN
CHOICE, log entry 128). -/
def touchNode (d : Die) (key : Nat) : State → State := onDie d (fun x => { x with nodes := nset x.nodes key true })

/-- A write has changed the metadata of line l of a region on a die. -/
def touchLine (d : Die) (n a l : Nat) (s : State) : State :=
  s |> each (metaLine s d n l).toList (fun i => touchNode d (mlKey i))
    |> onlyIf (atInteg a == 2) (each (leafNode s d n l).toList (fun i => touchNode d (nodeKey 0 i)))

/-- Whether a line of a region lies below a failed tree node of a die (R199). -/
def belowBad (s : State) (d : Die) (n dla : Nat) : Bool :=
  match leafNode s d n (rgLine s n dla) with
  | some i => (die s d).badNodes.any (fun b => b.region == n && i / 8 ^ b.level == b.index)
  | none => false

/-- A tree node of level k above a line fails its check on a die: recorded, and reported once (R199). -/
def treeFail (d : Die) (n dla level : Nat) (s : State) : State :=
  match leafNode s d n (rgLine s n dla) with
  | some i =>
    if belowBad s d n dla then s
    else
      onDie d (fun x => { x with badNodes := x.badNodes ++ [⟨n, level, i / 8 ^ level⟩] }) s
        |> setFlag F.CIE_STATUS.TREE_FAIL d 0 |> cntF F.CIE_FAIL_COUNT.TREE d 0 1
        |> post d ⟨0x0802, sevUncorrected, locDie d, [it1 n, it1 level, it1 (i / 8 ^ level)], some dla, some (bindOf s (rgAttr s n))⟩
  | none => s

/-- The plaintext of a line of a region, by its position and the metadata with which it passed its check: one whose ciphertext is zero is
delivered as zeros, in the MAC modes only while its version is 0 (R157, R191, R195). -/
def openLine (s : State) (n a h : Nat) (m : LineMeta) (c : Line) : Line :=
  let ks := lineKeys s n a h
  if c = 0 ∧ (atInteg a = 0 ∨ m.ver = 0) then 0 else decLine ks.1 ks.2.2 h c

/-- Encrypt a line of a region by its position. -/
def sealLine (s : State) (n a h : Nat) (l : Line) : Line :=
  let ks := lineKeys s n a h
  encLine ks.1 ks.2.2 h l

/-- Advance a line's version for a write of ciphertext, and recompute its MAC (R195); the cached lines that hold them become dirty (R198). -/
def stampMeta (n a h : Nat) (c : Line) (s : State) : State :=
  if atInteg a = 0 then s
  else
    let ks := lineKeys s n a h
    let v := nextVer (atInteg a) (metaOf s h).ver
    setMeta h ⟨v, some (lineMac ks.2.1 c h v ks.2.2 (atSlot a))⟩ s
      |> touchLine (dieOf (fld h 35 1)) n a (fld h 0 35 - rg s F.RGN_PLACE.DPA_G n * 2 ^ 24)

end Sys2Proof.Machine
end

