-- ==== Sys2Proof/Machine/CmdLog.lean ====
section
/-!
DEFINITION. Sys2Proof/Machine/CmdLog.lean: the clock of a channel (Table 2.3, R40), the timing set that goes with it (Table 3.2), and
the command log that a freeze record carries (R396).
-/

namespace Sys2Proof.Machine

/-- CK of a channel in thirds of a MHz by its rate code (Table 2.3): a fallback rate is a third of the VCO, which runs at twice the
primary CK. -/
def ckThirds (s : State) (d : Die) (c : Nat) : Nat :=
  let primary := 4400 - 400 * rf s F.CFE_POP.RATE_SEL d c
  match rf s F.CFE_STATUS.POINT d c with
  | 0 => 3 * primary
  | 1 => 9600
  | 2 => 2 * primary
  | _ => 6400

/-- CL, tRCD and tRP of a speed bin (Table 3.2). -/
def binTiming (bin : Nat) : Nat × Nat × Nat :=
  match bin with
  | 8800 => (72, 72, 72)
  | 8000 => (66, 66, 66)
  | 7200 => (60, 58, 58)
  | 6400 => (52, 52, 52)
  | 6000 => (48, 48, 48)
  | 5600 => (46, 46, 46)
  | 4800 => (40, 39, 39)
  | _ => (36, 36, 36)

/-- The speed bin whose timing a channel runs with: its rate's own, or the fallback timing set of Table 2.3 (R40, R68). -/
def speedBin (s : State) (d : Die) (c : Nat) : Nat :=
  let sel := rf s F.CFE_POP.RATE_SEL d c
  match rf s F.CFE_STATUS.POINT d c with
  | 0 => 8800 - 800 * sel
  | 1 => 6400
  | 2 => [6000, 5600, 4800, 4400].getD sel 4400
  | _ => 4400

/-- Controller cycles in a number of nanoseconds: the controller clock is CK / 4 (R40). -/
def ctlCycles (s : State) (d : Die) (c ns : Nat) : Nat := ns * ckThirds s d c / 12000

/-- The kinds of the command log (R396). -/
inductive Cmd where
  | act | rd | wr | pre | prea | ref | mrr | mrw | sre | srx | drfm | zq
  deriving DecidableEq, Repr

/-- The number of a command kind. -/
def cmdNum : Cmd → Nat
  | .act => 0 | .rd => 1 | .wr => 2 | .pre => 3 | .prea => 4 | .ref => 5 | .mrr => 6 | .mrw => 7 | .sre => 8 | .srx => 9
  | .drfm => 10 | .zq => 11

/-- A command log entry (Table 17.4): `x` is the row of an ACT or the column of a RD or WR. -/
def cmdEntry (k : Cmd) (i rank bg bank x : Nat) (notDriven : Bool) (cycles : Nat) : Nat :=
  cmdNum k + (i % 2) * 2 ^ 4 + rank % 2 * 2 ^ 5 + bg % 8 * 2 ^ 6 + bank % 4 * 2 ^ 9 + x % 2 ^ 18 * 2 ^ 11 +
    b2n notDriven * 2 ^ 31 + cycles % 2 ^ 32 * 2 ^ 32

/-- Log a command of a subchannel. -/
def logCmd (d : Die) (k : Cmd) (i rank bg bank x : Nat) (notDriven : Bool) (s : State) : State :=
  let e := cmdEntry k i rank bg bank x notDriven (ctlCycles s d (i / 2) s.nowNs)
  onChan d (i / 2) (fun c => { c with cmdLog := (c.cmdLog ++ [e]).drop (c.cmdLog.length + 1 - 64) }) s

/-- The populated ranks of a die's subchannels. -/
def ranksOf (s : State) (d : Die) : List Nat := List.range (popRanks s d)

/-- Whether a rank is there to be driven: its die is present and the rank populated (R36, R37). -/
def rankThere (s : State) (d : Die) (r : Nat) : Bool := diePresent s d && decide (r < popRanks s d)

end Sys2Proof.Machine
end

