-- ==== Sys2Proof/Machine/ModeBase.lean ====
section
/-!
DEFINITION. Sys2Proof/Machine/ModeBase.lean: the mode machine's changes of mode (R366, R367), the causes of DEGRADED
(R371), FROZEN (R383), and self-refresh entry of a rank (R77).
-/

namespace Sys2Proof.Machine

/-- DEV_MODE.MODE of a mode (Table 16.1). -/
def modeNum : Mode → Nat
  | .boot => 0 | .train => 1 | .serve => 2 | .degraded => 3 | .thrift => 4 | .hold => 5 | .frozen => 6 | .sanitize => 7

/-- Whether a die has fenced itself (R385). -/
def fenced (s : State) (d : Die) : Bool := rfb s F.PSG_STATUS.FENCED d 0

/-- Change the mode: DEV_MODE, each unfenced die's DIE_MODE on a dual-die part, the lock of R370, and 0x1001. -/
def setMode (m : Mode) (trigger : Nat) (s : State) : State :=
  if s.dev.mode = m then s
  else
    let old := modeNum s.dev.mode
    { s with dev := { s.dev with mode := m } }
      |> wfc F.DEV_MODE.PREV old 0 |> wfc F.DEV_MODE.MODE (modeNum m) 0
      |> onlyIf (m == .serve || m == .degraded) (wfc F.DEV_MODE.LOCKED 1 0)
      |> onlyIf (partDual s.dev.part)
          (each [Die.east, Die.west] (fun d t => if fenced t d then t else wf F.PSG_STATUS.DIE_MODE d 0 (modeNum m) t))
      |> post (seniorDie s) ⟨0x1001, sevInfo, locDie (seniorDie s), [it1 old, it1 (modeNum m), it1 trigger], none, none⟩

/-- Whether any cause of Table 16.4 stands. -/
def anyCause (s : State) : Bool :=
  [F.DEV_STATUS.DEG_SUBCH, F.DEV_STATUS.DEG_DIE, F.DEV_STATUS.DEG_HPORT, F.DEV_STATUS.DEG_FPORT, F.DEV_STATUS.DEG_PASSAGE].any
    (fun f => rfc s f 0 == 1)

/-- A cause of Table 16.4 arises: recorded, and SERVE becomes DEGRADED (R371). -/
def degrade (f : Fld) (s : State) : State :=
  let s1 := wfc f 1 0 s
  if s.dev.mode = .serve then setMode .degraded 5 s1 else s1

/-- A cause of Table 16.4 clears; with the last one DEGRADED becomes SERVE. -/
def undegrade (f : Fld) (s : State) : State :=
  if rfc s f 0 = 0 then s
  else
    let s1 := wfc f 0 0 s
    if s1.dev.mode = .degraded ∧ anyCause s1 = false then setMode .serve 5 s1 else s1

/-- Whether the device is in HOLD or on its way there: the background walks pause (R381). -/
def resting (s : State) : Bool := s.dev.mode == .hold || s.dev.trans == some .toHold

/-- SERVE or DEGRADED, by R371. -/
def serveMode (s : State) : Mode := if anyCause s then .degraded else .serve

/-- A rank enters self-refresh: its owed REFs are issued first and its timer stops (R77). -/
def RankSt.sleep (now : Nat) (r : RankSt) : RankSt :=
  if r.selfRefresh then r
  else { r with owed := 0, due := 0, forced := 0, selfRefresh := true, leftNs := some (r.nextNs - now) }

/-- tREFI2 in nanoseconds (R69). -/
def RankSt.interval (r : RankSt) : Nat := if r.hot then 975 else 1950

/-- A rank leaves self-refresh: nothing owed, a full interval to the first tick, and mode register 4 is read before its
first ACT (R77). -/
def RankSt.wake (now : Nat) (r : RankSt) : RankSt :=
  if r.selfRefresh then
    { r with owed := 0, due := 0, forced := 0, selfRefresh := false, woke := true, nextNs := now + r.interval, leftNs := none }
  else r

/-- Every rank of a subchannel leaves self-refresh. -/
def SubSt.wake (now : Nat) (b : SubSt) : SubSt := { b with r0 := b.r0.wake now, r1 := b.r1.wake now }

/-- A rank takes the write CRC setting that is due at the exit from self-refresh (CFE_WCRC_CFG.EN). -/
def RankSt.takeCrc (en : Bool) (r : RankSt) : RankSt := if r.selfRefresh then { r with crcOn := en } else r

/-- A subchannel's ranks leave self-refresh, with SRX in the command log (R77, R396). -/
def wakeSub (d : Die) (i : Nat) (s : State) : State :=
  let b := sub s d i
  let en := rfb s F.CFE_WCRC_CFG.EN d (i / 2)
  s |> each ((ranksOf s d).filter (fun r => (rankOf b r).selfRefresh)) (fun r => logCmd d .srx i r 0 0 0 false)
    |> onSub d i (fun b => SubSt.wake s.nowNs { b with r0 := b.r0.takeCrc en, r1 := b.r1.takeCrc en })

/-- Every rank of a subchannel enters self-refresh, its rows closed. -/
def SubSt.sleep (now : Nat) (b : SubSt) : SubSt :=
  { b with r0 := b.r0.sleep now, r1 := b.r1.sleep now, banks := b.banks.map (fun p => (p.1, { p.2 with row := none })) }

/-- The REFs that a rank issues on its way into self-refresh. -/
def RankSt.owes (r : RankSt) : Nat := if r.selfRefresh then 0 else r.owed + r.due + r.forced

/-- What a rank is sent on its way into self-refresh: precharge-all where a row is open, the REFs that it owes, and the entry (R77, R396). -/
def sleepRank (d : Die) (i r : Nat) (s : State) : State :=
  let b := sub s d i
  let x := rankOf b r
  if x.selfRefresh then s
  else
    let open_ := b.banks.any (fun p => p.1 / 32 == r && p.2.row.isSome)
    s |> onlyIf open_ (logCmd d .prea i r 0 0 0 false)
      |> each (List.range x.owes) (fun _ => logCmd d .ref i r 0 0 0 false)
      |> signalSub d i 0x0984 x.owes |> logCmd d .sre i r 0 0 0 false

/-- A subchannel enters self-refresh, its owed REFs issued and counted (R77, Table 18.1). A die that is absent is not driven (R36). -/
def sleepSub (d : Die) (i : Nat) (s : State) : State :=
  onSub d i (SubSt.sleep s.nowNs) (if diePresent s d then each (ranksOf s d) (sleepRank d i) s else s)

/-- Every rank of a die enters self-refresh. -/
def sleepDie (d : Die) (s : State) : State := each (List.range 12) (sleepSub d) s

/-- The device enters FROZEN (R383): any transition is abandoned, ranks go to self-refresh. -/
def enterFrozen (trigger : Nat) (fatal : Bool) (s : State) : State :=
  if s.dev.mode = .boot ∨ s.dev.mode = .frozen then s
  else
    { s with dev := { s.dev with trans := none, wake := none } }
      |> wfc F.DEV_MODE.BUSY 0 0 |> onlyIf fatal (wfc F.DEV_STATUS.FATAL 1 0)
      |> setMode .frozen trigger |> each (diesPresent s) sleepDie
      |> onlyIf fatal (each (diesPresent s) (fun d t => onlyIf (rfb s F.HPC_LINK_STATUS.UP d 0) (send (.viral d)) (onDie d (fun x => { x with hpc := { x.hpc with viralTx := true } }) t)))

end Sys2Proof.Machine
end

