-- ==== Sys2Proof/Machine/Access.lean ====
section
/-!
DEFINITION. Sys2Proof/Machine/Access.lean: when a BAR0 write is accepted (R438 to R440, Table 20.4).
-/

namespace Sys2Proof.Machine

/-- Whether a part lacks a block of a die (R439). -/
def blockAbsent (s : State) (b : RegBlock) (d : Die) : Bool :=
  (!(blockCommon b) && !(diePresent s d)) ||
    (match b, s.dev.part with
     | .PSG, .km1612 | .PSG, .km1602 => true
     | .LKE, .km1622 | .LKE, .km1602 | .QUE, .km1622 | .QUE, .km1602 => true
     | .FPC, .km1602 => true
     | _, _ => false)

/-- What Table 20.4 and R439, R440 say of a write to a block. -/
inductive Verdict where
  | take | ignore | unreach | locked | disagree | denied
  deriving DecidableEq, Repr

/-- Whether a block is one of the two that stay writable in FROZEN and in a disagreement. -/
def alwaysOpen (b : RegBlock) : Bool := b == .EVT || b == .PMC

/-- Whether a write to a block of a die is accepted; `session` is whether it comes inside an owner's SPDM session (R208). -/
def verdict (s : State) (b : RegBlock) (d : Die) (session : Bool) : Verdict :=
  if blockAbsent s b d then .ignore
  else if !(blockCommon b) && unreachable s d then .unreach
  else if s.dev.mode = .boot ∨ s.dev.mode = .hold then .ignore
  else if s.dev.mode = .frozen then (if alwaysOpen b then .take else .locked)
  else if s.psg.disagree then (if alwaysOpen b then .take else .disagree)
  else if (b = .RGN ∨ b = .SEC) ∧ rfc s F.SEC_POLICY.LOCKDOWN = 1 ∧ session = false then .denied
  else .take

/-- Count a write that is not accepted. -/
def countRefused (v : Verdict) (s : State) : State :=
  match v with
  | .take | .ignore => s
  | .unreach => cntF F.DEV_IGNORED_COUNT.UNREACH .east 0 1 s
  | .locked => cntF F.DEV_IGNORED_COUNT.LOCKED .east 0 1 s
  | .disagree => cntF F.PSG_COUNT.REFUSED (seniorDie s) 0 1 s
  | .denied =>
    s |> cntF F.SEC_DENY_COUNT.COUNT .east 0 1 |> setFlag F.SEC_STATUS.DENIED .east 0
      |> postLim (seniorDie s) 0 ⟨0x0808, sevInfo, locDie (seniorDie s), [], none, none⟩ []

/-- Apply a write to a register that has behaviour of its own, where Table 20.4 accepts it. -/
def barWrite (b : RegBlock) (d : Die) (f : State → State) (s : State) : State :=
  match verdict s b d false with
  | .take => f s
  | v => countRefused v s

/-- Whether a session is open and its requester's chain ends in an owner root (R208). -/
def sessOwner (s : State) (sess : Option Nat) : Bool :=
  match sess with
  | none => false
  | some n => (match nget s.spdm.sessions n with
    | some x => x.open_ && x.owner
    | none => false)

/-- The same for a write that may come inside an SPDM session (R208). -/
def barWriteS (b : RegBlock) (d : Die) (sess : Option Nat) (f : State → State) (s : State) : State :=
  match verdict s b d (sessOwner s sess) with
  | .take => f s
  | v => countRefused v s

/-- A write that only clears flags is accepted in FROZEN too. -/
def barClear (b : RegBlock) (d : Die) (f : State → State) (s : State) : State :=
  match verdict s b d false with
  | .take | .locked => f s
  | v => countRefused v s

end Sys2Proof.Machine
end

