-- ==== Sys2Proof/Machine/MemPath.lean ====
section
/-!
DEFINITION. Sys2Proof/Machine/MemPath.lean: line requests on their way to the scheduler (Tables 1.7 and 1.8), encoding
with injection (R94, R102, R103), what a location holds, and the newest contents of a line.
-/

namespace Sys2Proof.Machine

/-! ### Class, hint and erasure marks -/

/-- The priority class of a request by its port (Table 3.1): `a` is the attribute word of its region. -/
def classOf (s : State) (d : Die) (i : Nat) (p : Port) (a : Nat) : Nat :=
  match p with
  | .hp0 | .hp1 | .fp0 | .fp1 => at_ a F.RGN_ATTR.PRIO
  | .lke => rf s F.MSC_PORT_PRIO.LKE d (i / 2)
  | .que => rf s F.MSC_PORT_PRIO.QUE d (i / 2)
  | .tme => rf s F.MSC_PORT_PRIO.TME d (i / 2)
  | .sru => rf s F.MSC_PORT_PRIO.SRU d (i / 2)
  | .cpr => rf s F.MSC_PORT_PRIO.CPR d (i / 2)

/-- The page hint of a request by its port (Table 3.1): CLOSE is true. `open_` is the hint of the table, or OPEN for a
cell read. -/
def hintOf (p : Port) (a : Nat) (open_ : Bool) : Bool :=
  match p with
  | .hp0 | .hp1 | .fp0 | .fp1 => at_ a F.RGN_ATTR.HINT == 1
  | .lke | .que => !open_
  | .tme | .sru | .cpr => true

/-- The fields of CWU_ERASE for a subchannel and rank: device and VALID. -/
def eraseDevF (i r : Nat) : Fld :=
  byRank F.CWU_ERASE.DEV_A0 F.CWU_ERASE.DEV_A1 F.CWU_ERASE.DEV_B0 F.CWU_ERASE.DEV_B1 i r
def eraseValidF (i r : Nat) : Fld :=
  byRank F.CWU_ERASE.VALID_A0 F.CWU_ERASE.VALID_A1 F.CWU_ERASE.VALID_B0 F.CWU_ERASE.VALID_B1 i r

/-- The erasure mark in force for a rank (R101). -/
def markOf (s : State) (d : Die) (i r : Nat) : Option Nat :=
  if rfb s (eraseValidF i r) d (i / 2) then some (rf s (eraseDevF i r) d (i / 2)) else none

/-! ### Encoding a write -/

/-- Whether an armed injection takes a line of a subchannel (R102). -/
def injHits (s : State) (d : Die) (j : InjSt) (i h : Nat) : Bool :=
  j.sub == i % 2 && (!j.matching || rf s F.CWU_INJ_ADDR_LO.H_LO d (i / 2) + rf s F.CWU_INJ_ADDR_HI.H_HI d (i / 2) * 2 ^ 32 == h)

/-- Encode the line of a write for its home, taking an armed injection (R94, R95, R102, R103). -/
def encodeFor (d : Die) (i h : Nat) (l : Line) (poison : Bool) (s : State) : Stored × State :=
  let c := i / 2
  match (chan s d c).inj with
  | some j =>
    if injHits s d j i h then
      (encodeLine h l poison (some j.word),
        s |> onChan d c (fun x => { x with inj := none })
          |> wf F.CWU_INJ_CTRL.ARMED d c 0 |> setFlag F.CWU_INJ_STATUS.DONE d c
          |> wf F.CWU_INJ_STATUS.SUB d c (i % 2) |> wf F.CWU_INJ_STATUS.WORD d c j.word.word
          |> wf F.CWU_INJ_HIT_LO.H_LO d c h |> wf F.CWU_INJ_HIT_HI.H_HI d c (h / 2 ^ 32)
          |> post d ⟨0x0B06, sevInfo, locSub d i, [it5 h, it1 j.word.word, it1 (b2n j.word.flip.isSome), it1 (b2n j.word.skew.isSome)], none, none⟩)
    else (encodeLine h l poison none, s)
  | none => (encodeLine h l poison none, s)

/-- Encode the line of a write; no write is encoded while its channel is FROZEN (Table 4.4). -/
def encodeReq (d : Die) (r : Req) (s : State) : Req × State :=
  if r.write = false ∨ (chan s d (r.sub / 2)).frozen.isSome then (r, s)
  else
    let e := encodeFor d r.sub r.home r.line r.poison s
    ({ r with enc := some e.1 }, e.2)

/-! ### Entering the MX-in crossing -/

/-- A read request for a location. -/
def mkRead (p : Port) (i loc h cls : Nat) (close : Bool) (region dla : Nat) (m : LineMeta) (w : Why) : Req :=
  { seq := 0, port := p, write := false, sub := i, loc := loc, home := h, cls := cls, close := close, capped := false,
    enterNs := 0, region := region, dla := dla, line := 0, poison := false, expect := m, enc := none, late := false, reread := false, second := false, acted := false, why := w }

/-- A write request for a location. -/
def mkWrite (p : Port) (i loc h cls : Nat) (close : Bool) (region dla : Nat) (l : Line) (poison : Bool) (w : Why) : Req :=
  { seq := 0, port := p, write := true, sub := i, loc := loc, home := h, cls := cls, close := close, capped := false,
    enterNs := 0, region := region, dla := dla, line := l, poison := poison, expect := LineMeta.blank, enc := none, late := false, reread := false, second := false, acted := false, why := w }

/-- Submit a request: it goes to the back of its channel's MX-in crossing, a write being encoded on the way (R94). -/
def submit (d : Die) (r : Req) (s : State) : State :=
  let e := encodeReq d r { s with seq := s.seq + 1 }
  onChan d (r.sub / 2) (fun x => { x with mxin := x.mxin ++ [{ e.1 with seq := s.seq + 1, enterNs := s.nowNs }] }) e.2

/-- The spare to which a write of a copied block of an evacuation goes as well (R126). -/
def evacTwin (s : State) (d : Die) (i loc : Nat) : Option Nat :=
  match (die s d).sru.evac with
  | some e => if e.rebuild = false ∧ e.failing = i ∧ loc / 4 < e.q then some e.spare else none
  | none => none

/-! ### What a location holds -/

/-- The valid remap entry of a home line (R116). -/
def remapHit (b : SubSt) (h : Nat) : Option Nat :=
  (b.remap.find? (fun p => p.2.valid && p.2.home == h)).map (·.1)

/-- The location of the spare line of remap entry k (R116). -/
def spareLoc (s : State) (d : Die) (k : Nat) : Nat := 4 * (qTop s d - 8 + k / 4) + k % 4

/-- The location accessed for a home line, after remap steering. -/
def steer (s : State) (d : Die) (i loc h : Nat) : Nat :=
  match remapHit (sub s d i) h with
  | some k => spareLoc s d k
  | none => loc

/-- The stored bits of a location, a location that nothing has written since it was initialised holding a blank line of
the home given (R157). -/
def cellAt (b : SubSt) (loc h : Nat) : Stored :=
  match nget b.cells loc with
  | some x => x
  | none => encodeLine h 0 false none

/-- Whether a block is not yet initialised (R156). -/
def uninit (b : SubSt) (loc : Nat) : Bool := decide (loc / 4 < b.initW) && !(b.demand.contains (loc / 4))

/-- What a read of a line is answered with where no DRAM access is made (R129 to R132, R158), or none where the DRAM is
read. -/
inductive NoDram where
  | zeros | poison | mirror
  deriving DecidableEq, Repr

/-- Whether a write of a line has been accepted and has not reached the array. -/
def lineQueued (b : SubSt) (h : Nat) : Bool := (b.replay.map (·.req) ++ b.wrq ++ b.demandHeld).any (fun r => r.write && r.home == h)

/-- Whether a home line index is a line of a mirrored flat region. -/
def mirrorLine (s : State) (h : Nat) : Bool := (flatOf s h).any (fun p => atMirror (rgAttr s p.1))

/-- The answer of R129, R130, R131, R132 and R158 to a read of a location of a subchannel. A line that a write has been accepted for is
read after that write. During salvage the other die serves the reads of mirrored lines (Table 5.4). -/
def answerOf (s : State) (d : Die) (i loc h : Nat) : Option NoDram :=
  let b := sub s d i
  if (die s d).sru.salvage.isSome ∧ mirrorLine s h then some .mirror
  else if b.st ≠ .live ∨ (die s d).sru.memoryLost ∨ fenced s d then
    match flatOf s h with
    | some (n, _) => if atMirror (rgAttr s n) then some .mirror else some .poison
    | none => some .poison
  else if lineQueued b h then none
  else if uninit b loc then some .zeros
  else if b.fresh ≠ .none ∧ b.freshFrom ≤ loc / 4 ∧ (nget b.cells (steer s d i loc h)).isNone then
    match flatOf s h with
    | some (n, _) =>
      if (die s d).sru.rebuilt.contains n then none
      else if atMirror (rgAttr s n) then some .mirror else some .poison
    | none => some .zeros
  else none

/-- Whether a request is what came of a read that has been in the read queue already: a write-back, a poison write, or the second read of
R110. -/
def fromRead (r : Req) : Bool :=
  match r.why with
  | .wb | .wbPoison _ | .scrub true => true
  | .op _ _ | .scrub false | .verify | .retry _ _ | .opw _ _ | .post | .remap _ | .evac _ | .mirror _ _ _ => false

/-- The newest write of a line that has not reached the array: in the crossing, held, in the write queue or in the
replay buffer. -/
def newestWrite (s : State) (d : Die) (i h : Nat) : Option Req :=
  let b := sub s d i
  let m := (chan s d (i / 2)).mxin.filter (fun r => r.sub == i && !(fromRead r && r.late))
  (b.replay.map (·.req) ++ b.wrq ++ b.demandHeld ++ m).reverse.find? (fun r => r.write && r.home == h)

/-- The stored bits that a read of a line obtains once the writes before it are done. -/
def newestStored (s : State) (d : Die) (i loc h : Nat) : Stored :=
  match newestWrite s d i h with
  | some r => r.enc.getD (encodeLine h r.line r.poison none)
  | none => cellAt (sub s d i) (steer s d i loc h) h

end Sys2Proof.Machine
end

