-- ==== Sys2Proof/Machine/Repair.lean ====
section
/-!
DEFINITION. Sys2Proof/Machine/Repair.lean: the drip log (R112 to R114), the start of a repair (R115 to R122), erasure
marks (R101, R124), permanence (R400), evacuation and retirement (R125 to R132).
-/

namespace Sys2Proof.Machine

/-! ### The drip log -/

/-- Change the drip log of a die. -/
def onDrip (d : Die) (f : NMap DripEnt → NMap DripEnt) : State → State := onSru d (fun u => { u with drip := f u.drip })

/-- The drip log entries in use. -/
def dripLive (s : State) (d : Die) : NMap DripEnt := (die s d).sru.drip.filter (fun p => decide (p.2.st ≠ .free))

/-- The entry of a word. -/
def dripFind (s : State) (d : Die) (h w : Nat) : Option (Nat × DripEnt) :=
  (dripLive s d).find? (fun p => p.2.h == h && p.2.word == w)

/-- The SEEN entry with the oldest LAST, the lowest entry among equals. -/
def dripOldest (s : State) (d : Die) : Option Nat :=
  ((dripLive s d).foldl (fun (best : Option (Nat × Nat)) p =>
    if p.2.st = .seen then
      match best with
      | none => some (p.1, p.2.lastMs)
      | some (_, m) => if p.2.lastMs < m then some (p.1, p.2.lastMs) else best
    else best) none).map (·.1)

/-- The slot that a new word takes (R113, R114). -/
def dripSlot (s : State) (d : Die) : Option Nat :=
  match nfree (dripLive s d) 64 with
  | some k => some k
  | none => dripOldest s d

/-- The kinds of correction of Table 5.2; `copy` of a read of the SRU's own, which has no row while a word is FREE or SEEN. -/
inductive DripKind where
  | demand | lantern | verify | copy
  deriving DecidableEq, Repr

/-- N_DEMAND as it acts (R113). -/
def nDemand (s : State) (d : Die) (c : Nat) : Nat := max 1 (rf s F.SRU_REPAIR_CFG.N_DEMAND d c)

/-- Free the entries of the drip log that a predicate names. -/
def dripFree (d : Die) (p : DripEnt → Bool) : State → State := onDrip d (fun m => m.filter (fun e => !(p e.2)))

/-! ### The reads of copies (R19, R30) -/

/-- Count a request that a die's RRM decodes, and its crossing of the Passage to the home die and back (R24). -/
def rrmCount (d : Die) (_p : Port) (home : Option Die) (s : State) : State :=
  let cross := match home with
    | some h => h != d
    | none => false
  s |> addCount d .RRM 0 1 |> signalDie d 0x0480 1
    |> onlyIf cross (fun t => t |> addCount d .RRM 5 1 |> signalDie d 0x0380 1 |> signalDie (otherDie d) 0x0380 1)

/-- A copy read of the SRU: where its line is of an enabled region the RRM counts it, and where that is COHERENT it goes through the
directory as a non-caching read (R19, R30; log entry 126). -/
def copyRead (d : Die) (q : Req) (s : State) : State :=
  match dlaOf s q.home with
  | none => submit d q s
  | some (n, dla) =>
    let a := rgAttr s n
    let s1 := rrmCount d .sru (some d) s
    if atCoherent a then
      later (.present { asker := .copy d q, kind := .rdNC, issuer := d, port := .sru, agent := none, metaS := false, region := n, attr := a,
                        dla := dla, data := ⟨0, false⟩, mask := BitVec.allOnes 64, track := none }) s1
    else submit d q s1

/-! ### Starting a repair (R115) -/

/-- Whether an evacuation from a subchannel runs. -/
def evacFrom (s : State) (d : Die) (i : Nat) : Bool :=
  match (die s d).sru.evac with
  | some e => e.failing == i && !e.rebuild
  | none => false

/-- The bank group, bank, rank and row of a location. -/
def rowPlace (s : State) (d : Die) (loc : Nat) : Nat × Nat × Nat × Nat :=
  (qRank s d (loc / 4), qBg (loc / 4), qBank (loc / 4), qRowOf s d (loc / 4))

/-- Start the copy of a line to a remap spare line: the SRU reads the line (R117). -/
def startRemap (d : Die) (k : Nat) (e : DripEnt) (s : State) : State :=
  match nfree (sub s d e.sub).remap 32, placeOf s e.h with
  | some n, some (_, _, loc) =>
    s |> onSub d e.sub (fun b => { b with remap := nset b.remap n ⟨e.h, e.dev, false⟩ })
      |> onSru d (fun u => { u with remapCopies := u.remapCopies ++ [⟨e.sub, n, k, false, none⟩] })
      |> copyRead d (mkRead .sru e.sub loc e.h (classOf s d e.sub .sru 0) true 0xFF 0 LineMeta.blank (.remap n))
  | _, _ => s

/-- Start a run-time spare-row repair of the row of a location (R119): requests to the bank are held. -/
def startRow (d : Die) (k : Nat) (e : DripEnt) (loc : Nat) (s : State) : State :=
  let (rank, bg, bank, row) := rowPlace s d loc
  s |> onSru d (fun u => { u with rowRepairs := u.rowRepairs ++ [⟨e.sub, rank, bg, bank, row, e.dev, k⟩] })
    |> onSub d e.sub (onBank (bankKey rank bg bank) (fun b => { b with held := true }))

/-- Neither resource serves a HARD word (R122): reported once for its entry. -/
def repairExhausted (d : Die) (k : Nat) (e : DripEnt) (s : State) : State :=
  if e.exhausted then s
  else
    s |> onDrip d (fun m => nset m k { e with exhausted := true })
      |> setFlagSub F.SRU_STATUS.REPAIR_EXH_A F.SRU_STATUS.REPAIR_EXH_B d e.sub
      |> post d ⟨0x0C07, sevCorrected, locSub d e.sub, [it5 e.h, it1 e.word, it1 e.dev], none, none⟩

/-- Whether a home line lies in the row of a location. -/
def inRow (s : State) (d : Die) (loc h : Nat) : Bool :=
  match placeOf s h with
  | some (_, _, l) => decide (rowPlace s d l = rowPlace s d loc)
  | none => false

/-- Whether another HARD word lies or lay in the same row, device and rank as a location: one in the drip log, or one whose line has been
remapped (R115). -/
def sameRowHard (s : State) (d : Die) (k : Nat) (e : DripEnt) (loc : Nat) : Bool :=
  (dripLive s d).any (fun p => p.1 != k && decide (p.2.st = .hard) && p.2.sub == e.sub && p.2.dev == e.dev && inRow s d loc p.2.h) ||
    (sub s d e.sub).remap.any (fun p => p.2.dev == e.dev && inRow s d loc p.2.home)

/-- Whether a repair of the entry already runs: its own, or the copy of its line for another word of it. -/
def repairRuns (s : State) (d : Die) (k : Nat) (e : DripEnt) : Bool :=
  (die s d).sru.rowRepairs.any (·.drip == k) || (sub s d e.sub).remap.any (fun p => !p.2.valid && p.2.home == e.h)

/-- Use a repair resource for a HARD word (R115, R135). `rowFree` is whether the failing device reports a free spare row
for the bank group. -/
def startRepair (d : Die) (k : Nat) (rowFree : Bool) (s : State) : State :=
  match nget (die s d).sru.drip k with
  | none => s
  | some e =>
    if evacFrom s d e.sub || (die s d).sru.salvage.isSome || repairRuns s d k e then s
    else
      let c := e.sub / 2
      let b := sub s d e.sub
      let rowOk := rowFree && rfb s F.SRU_REPAIR_CFG.RUN_SPPR d c
      let loc := match placeOf s e.h with
        | some (_, _, l) => l
        | none => 0
      match remapHit b e.h with
      | some n => if rowOk then startRow d k e (spareLoc s d n) s else repairExhausted d k e s
      | none =>
        let free := 32 - b.remap.length
        let byRow := rf s F.SRU_REPAIR_CFG.PRIMARY d c == 1 || decide (free ≤ rf s F.SRU_REPAIR_CFG.REMAP_RESERVE d c) ||
          sameRowHard s d k e loc
        if byRow && rowOk then startRow d k e loc s
        else if 0 < free then startRemap d k e s
        else if rowOk then startRow d k e loc s
        else repairExhausted d k e s

/-- A word becomes HARD (Table 5.2). -/
def dripHard (d : Die) (k : Nat) (e : DripEnt) (rowFree : Bool) (s : State) : State :=
  s |> onDrip d (fun m => nset m k { e with st := .hard })
    |> post d ⟨0x0C03, sevCorrected, locSub d e.sub, [it5 e.h, it1 e.word, it1 e.dev], none, none⟩
    |> startRepair d k rowFree

/-- Enter a corrected word in the drip log and advance its state (R113, R114, Table 5.2). A correction at another position makes the entry
FREE first. For a verify read that does so Table 5.2 has no row: the entry goes to WATCH, with no new write-back and no new verify read
(DESIGN CHOICE, log entry 119). -/
def classify (d : Die) (i rank h w pos : Nat) (kind : DripKind) (rowFree : Bool) (s : State) : State :=
  let old : Option (Nat × DripEnt) := dripFind s d h w
  let slot := match old with
    | some (k, _) => some k
    | none => dripSlot s d
  match slot with
  | none =>
    s |> cntF F.SRU_STAT.DRIP_DROP d (i / 2) 1 |> setFlag F.SRU_STATUS.DRIP_FULL d (i / 2)
      |> postLim d 0 ⟨0x0C04, sevInfo, locSub d i, [], none, none⟩ []
  | some k =>
    let fresh : DripEnt := ⟨h, w, rank, pos, i, .free, 0, msNow s, msNow s, false⟩
    let e := match old with
      | some (_, e0) => if e0.dev = pos then { e0 with lastMs := msNow s } else fresh
      | none => fresh
    let n := nDemand s d (i / 2)
    match e.st, kind with
    | .free, .copy | .seen, .copy => onDrip d (fun m => nset m k e) s
    | .free, .demand =>
      let e1 := { e with st := .seen, demand := 1 }
      if n ≤ 1 then dripHard d k e1 rowFree s else onDrip d (fun m => nset m k e1) s
    | .seen, .demand =>
      let e1 := { e with demand := min 15 (e.demand + 1) }
      if n ≤ e.demand + 1 then dripHard d k e1 rowFree s else onDrip d (fun m => nset m k e1) s
    | .free, .lantern | .free, .verify | .seen, .lantern | .seen, .verify => onDrip d (fun m => nset m k { e with st := .watch }) s
    | .watch, _ => dripHard d k e rowFree s
    | .hard, _ => onDrip d (fun m => nset m k e) s

/-- A verify read was clean at some words of a line: their WATCH entries are freed and counted (Table 5.2). -/
def verifyClean (d : Die) (i h : Nat) (clean : List Nat) (s : State) : State :=
  each ((dripLive s d).filter (fun p => p.2.h == h && decide (p.2.st = .watch) && clean.contains p.2.word))
    (fun p t => t |> onDrip d (fun m => nerase m p.1) |> cntF F.SRU_STAT.TRANSIENT d (i / 2) 1) s

/-- A write-back was discarded (R109): the WATCH entries of its line go back to SEEN. -/
def writebackDropped (d : Die) (h : Nat) : State → State :=
  onDrip d (fun m => m.map (fun p => if p.2.h == h && decide (p.2.st = .watch) then (p.1, { p.2 with st := .seen }) else p))

/-! ### The fuse map (R120) -/

/-- Bytes 1 to 7 of a fuse map record (Table 5.3). -/
def fuseRec (kind : Nat) (d : Die) (i rank : Nat) (hardReq : Bool) (dev bg bank row source : Nat) : BitVec 64 :=
  BitVec.ofNat 64 (kind + (dieNum d + i / 2 * 2 + i % 2 * 16 + rank * 32 + b2n hardReq * 64) * 2 ^ 8 + (dev + bg * 16) * 2 ^ 16 +
    bank * 2 ^ 24 + row % 2 ^ 18 * 2 ^ 32 + source * 2 ^ 56)

/-- Queue a flash update: CFG_STATUS.UPDATING reads 1 until it is done (R376). -/
def flashJob (j : FlashJob) (s : State) : State :=
  wfc F.CFG_STATUS.UPDATING 1 0
    { s with dev := { s.dev with flash := { s.dev.flash with jobs := s.dev.flash.jobs ++ [j] } } }

/-- Append a record to the repair area, unless it is full (R120). -/
def fuseAppend (d : Die) (i : Nat) (r : BitVec 64) (s : State) : State :=
  if 1024 ≤ s.dev.fuse.length then post d ⟨0x0C0C, sevInfo, locSub d i, [], none, none⟩ s
  else
    let recs := s.dev.fuse ++ [r]
    flashJob (.repair recs) { s with dev := { s.dev with fuse := recs } }

/-! ### Subchannels that fail -/

/-- Rate code of Table 2.6 in use on a channel. -/
def rateInUse (s : State) (d : Die) (c : Nat) : Nat := rf s F.CFE_STATUS.POINT d c

/-- Post 0x0A08 for a subchannel that becomes RETIRED (Table 2.10). -/
def postRetired (d : Die) (i cause rate : Nat) (s : State) : State :=
  s |> wfSub F.CFE_RESULT_A.RETIRED F.CFE_RESULT_B.RETIRED d i 1
    |> onSub d i (fun b => { b with retCause := some (cause, rate) })
    |> post d ⟨0x0A08, sevUncorrected, locSub d i, [it1 cause, it1 rate], none, none⟩

/-- A subchannel becomes RETIRED: its ranks sleep, its queued writes are dropped, its queued reads return poison when
their data return, its counts end (R400). -/
def retireSub (d : Die) (i : Nat) (s : State) : State :=
  onSub d i (fun b => { b with
    st := .retired, r0 := { b.r0 with retrainWanted := none }, r1 := { b.r1 with retrainWanted := none }, writeMode := false, wrq := [], replay := [], demandHeld := [], isolating := none, replaying := false, retryq := [], rdq := [],
    returning := b.returning ++ b.retryq ++ b.rdq, permFails := [], permanent := false, cmdHeld := false, preaDue := false }) (sleepSub d i s)

/-- Set ACTIVE of SRU_EVAC_CTRL of a subchannel's channel. -/
def evacActive (d : Die) (i v : Nat) : State → State := wf F.SRU_EVAC_CTRL.ACTIVE d (i / 2) v

/-- The mirrored regions that requests are decoded to. -/
def mirrorRegions (s : State) : List Nat := (List.range 64).filter (fun n => rgLive s n && atMirror (rgAttr s n))

/-- The live subchannels of a die. -/
def liveSubs (s : State) (d : Die) : List Nat := (List.range 12).filter (fun i => (sub s d i).st == .live)

/-- Whether every live subchannel of a die is initialised. -/
def allInit (s : State) (d : Die) : Bool := (liveSubs s d).all (fun i => decide ((sub s d i).initW = 0))

/-- INIT_DONE and 0x0606 where the watermark of the last live subchannel has come to 0 between two states, or the last one above 0 has left the
live subchannels (R160). -/
def initEnded (d : Die) (before after : State) : State :=
  if allInit before d = false ∧ allInit after d ∧ liveSubs after d ≠ [] then
    after |> setFlag F.TME_STATUS.INIT_DONE d 0 |> post d ⟨0x0606, sevInfo, locDie d, [it1 (dieNum d)], none, none⟩
  else after

/-- The 0x5B record of a subchannel that a spare has replaced (R127, R129). -/
def spareRecord (d : Die) (i sp : Nat) : State → State := fuseAppend d i (fuseRec 0x5B d i 0 false sp 0 0 0 1)

/-- A spare takes over a position without a copy from block `from_` on (R129, R135). With no mirrored region there is
nothing to copy, and the 0x5B record is written at once. -/
def takeover (d : Die) (i sp from_ : Nat) (s : State) : State :=
  let none_ := (mirrorRegions s).isEmpty
  s |> onSru d (fun u => { u with liveList := u.liveList.map (fun x => if x = i then sp else x), spareSub := none, rebuilt := [],
                                  evac := if none_ then none else some ⟨i, sp, 0, false, false, [], [], 0, true⟩ })
    |> wakeSub d sp |> onSub d sp (fun b => { b with st := .live, fresh := .takeover, freshFrom := from_ })
    |> evacActive d i (b2n (!none_)) |> onlyIf none_ (spareRecord d i sp)

/-- A die stops serving memory (R132). -/
def memoryLost (d : Die) (s : State) : State :=
  s |> onSru d (fun u => { u with memoryLost := true, salvage := none, evac := none }) |> wf F.TME_STATUS.REHOME d 0 0
    |> each (List.range 6) (fun c t => wf F.SRU_EVAC_CTRL.ACTIVE d c 0 (wf F.SRU_RETIRE_CTRL.SALVAGE d c 0 t))
    |> degrade F.DEV_STATUS.DEG_DIE
    |> post d ⟨0x0C0D, sevUncorrected, locDie d, [it1 (dieNum d)], none, none⟩

/-- Salvage begins on a die (R130); its TME has staged nothing yet. -/
def startSalvage (d : Die) (i : Nat) (s : State) : State :=
  s |> onSru d (fun u => { u with salvage := some ⟨i, s.nowNs⟩ }) |> onDie d (fun x => { x with tme := { x.tme with staged := none } }) |> wf F.TME_STATUS.REHOME d 0 1
    |> each (List.range 6) (fun c t => wf F.SRU_RETIRE_CTRL.SALVAGE d c 1 t)
    |> degrade F.DEV_STATUS.DEG_SUBCH

/-- A live-list position is lost with no spare for it: salvage, or from L = 11 on the die serves no memory (R130, R132). -/
def loseOne (d : Die) (i : Nat) (s : State) : State :=
  let u := (die s d).sru
  if u.salvage.isSome ∨ u.liveList.length ≤ 11 then memoryLost d s else startSalvage d i s

/-- A subchannel is RETIRED at run time (R129, R130, R132, R135). While another subchannel is evacuated to the spare, the failure begins a
salvage (Table 5.5); what becomes of it is settled at its end. -/
def retireRun (d : Die) (i cause : Nat) (s : State) : State :=
  if (sub s d i).st = .retired then s
  else
    let s1 := initEnded d s (s |> retireSub d i |> postRetired d i cause (rateInUse s d (i / 2)))
    let u := (die s d).sru
    if !(u.liveList.contains i) then
      if u.spareSub = some i then
        s1 |> each (u.evac.map (·.failing)).toList (fun f => evacActive d f 0) |> onSru d (fun x => { x with spareSub := none, evac := none })
      else s1
    else match u.evac, u.spareSub with
      | some e, _ =>
        if e.failing = i ∧ e.rebuild = false then takeover d i e.spare e.q (evacActive d i 0 s1)
        else if e.rebuild ∨ u.salvage.isSome then loseOne d i s1 else startSalvage d i s1
      | none, some sp => takeover d i sp 0 s1
      | none, none => loseOne d i s1

/-- Start an evacuation where R125 allows it. -/
def startEvac (d : Die) (i trigger : Nat) (s : State) : State :=
  match (die s d).sru.spareSub, (die s d).sru.evac with
  | some sp, none =>
    if (sub s d i).st = .live ∧ (die s d).sru.liveList.contains i then
      s |> onSru d (fun u => { u with evac := some ⟨i, sp, 0, false, false, [], [], 0, false⟩ })
        |> wakeSub d sp |> onSub d sp (fun b => { b with initW := 0, demand := [] })
        |> evacActive d i 1 |> wf F.SRU_EVAC_POS.Q d (i / 2) 0
        |> post d ⟨0x0C08, sevCorrected, locSub d i, [it1 trigger, it1 sp], none, none⟩
    else s
  | _, _ => s

/-- Whether an evacuation could start (R125). -/
def evacPossible (s : State) (d : Die) : Bool := (die s d).sru.spareSub.isSome && (die s d).sru.evac.isNone

/-- What EVT_PERM_CFG.ACTION does with a permanent subchannel (R400): 0 report, 1 evacuation, 2 retirement. -/
def permWhich (s : State) (d : Die) : Nat :=
  let act := rf s F.EVT_PERM_CFG.ACTION d 0
  if (die s d).sru.evac.isSome then 0
  else if act = 0 then 0
  else if evacPossible s d then 1
  else if act = 1 then 0 else 2

/-- Act on a permanent subchannel (R400). -/
def permAct (d : Die) (i : Nat) (s : State) : State :=
  match permWhich s d with
  | 0 => s
  | 1 => startEvac d i 1 s
  | _ => retireRun d i 0x81 s

/-- Count a failure toward the permanence of a subchannel (R400). -/
def countFailure (d : Die) (i rank : Nat) (s : State) : State :=
  let win := clamp 1 720 (rf s F.EVT_PERM_CFG.WINDOW_H d 0) * 3600000000000
  let fails := ((sub s d i).permFails.filter (fun t => decide (s.nowNs ≤ t + win))) ++ [s.nowNs]
  let s1 := onSub d i (fun b => { b with permFails := fails, permTotal := satAdd 16 b.permTotal 1 }) s
  if (sub s d i).permanent = false ∧ max 1 (rf s F.EVT_PERM_CFG.COUNT d 0) ≤ fails.length then
    s1 |> onSub d i (fun b => { b with permanent := true }) |> setFlag F.EVT_STATUS.PERMANENT d 0
       |> post d ⟨0x0914, sevUncorrected, locSub d i, [it1 rank, it4 fails.length, it1 (permWhich s d)], none, none⟩
       |> permAct d i
  else s1

/-- An evacuation has ended with no spare left: ACTION applies to the subchannels that became permanent meanwhile
(Table 17.11). -/
def permPending (d : Die) (s : State) : State :=
  each (List.range 12) (fun i t => if (sub t d i).permanent ∧ (sub t d i).st = .live then permAct d i t else t) s

/-! ### Erasure marks (R101, R124) -/

/-- Ask the CWU to mark a device erased: source 0 training, 1 SRU, 2 software. The new state and whether the mark is in
force. -/
def askErase (d : Die) (i r dev source : Nat) (s : State) : Bool × State :=
  let c := i / 2
  if dev ≤ 10 ∧ markOf s d i r = none then
    (true, s |> wf (eraseDevF i r) d c dev |> wf (eraseValidF i r) d c 1
             |> dripFree d (fun e => e.sub == i && e.rank == r && e.dev == dev)
             |> post d ⟨0x0B05, sevCorrected, locSub d i, [it1 r, it1 dev, it1 source], none, none⟩)
  else if markOf s d i r = some dev then (true, s)
  else (false, s |> setFlag F.CWU_STATUS.ERASE_REFUSED d c)

/-- A run-time mark request of the SRU or of software: a refused second mark starts an evacuation (R125). -/
def eraseRun (d : Die) (i r dev source : Nat) (s : State) : State :=
  let (ok, s1) := askErase d i r dev source s
  if ok ∨ 10 < dev then s1 else startEvac d i 0 s1

end Sys2Proof.Machine
end

