-- ==== Sys2Proof/Machine/Freeze.lean ====
section
/-!
DEFINITION. Sys2Proof/Machine/Freeze.lean: entry to the FROZEN channel state and the freeze record (R394 to R396,
Tables 17.4 and 17.13), and what follows two failed retries (R399).
-/

namespace Sys2Proof.Machine

/-- A queue entry of a freeze record (Table 17.4). -/
def queueEntry (s : State) (d : Die) (r : Req) : List Byte :=
  leBytes 8 (fld r.home 0 36 + portNum r.port * 2 ^ 36 + r.cls % 4 * 2 ^ 40 + b2n r.close * 2 ^ 42 + b2n r.write * 2 ^ 43 +
    min 65535 (ctlCycles s d (r.sub / 2) (s.nowNs - r.enterNs)) * 2 ^ 48)

/-- The eight oldest entries of a queue. -/
def queuePart (s : State) (d : Die) (q : List Req) : List Byte := padTo 64 ((q.take 8).flatMap (queueEntry s d))

/-- The operating point in use: 1 in THRIFT. -/
def pointInUse (s : State) (d : Die) (c : Nat) : Nat := let p := rf s F.CFE_STATUS.POINT d c; if p = 1 ∨ p = 3 then 1 else 0

/-- The operating point whose record serves a point: at RATE_SEL 3 the two points have one rate and the record of point 0 serves both
(R53). -/
def recPoint (s : State) (d : Die) (c point : Nat) : Nat := if rf s F.CFE_POP.RATE_SEL d c = 3 then 0 else point

/-- The training record that serves a rank at a point, if there is one (R53). -/
def trecAt (s : State) (d : Die) (i rank point : Nat) : Option (List Byte) :=
  nget (sub s d i).trec (rank * 2 + recPoint s d (i / 2) point)

/-- A training record (Table 2.6), zeros where there is none. -/
def trecOf (s : State) (d : Die) (i rank point : Nat) : List Byte := padTo 576 ((trecAt s d i rank point).getD [])

/-- What a freeze is about: cause, requester port, line outcome, subchannel, rank, region, home line, DLA, and the
decoded words. -/
structure FrzInfo where
  cause : Nat
  port : Nat
  outc : Nat
  sub : Option Nat
  rank : Nat
  region : Nat
  home : Nat
  dla : Nat
  words : List WordDec
  deriving DecidableEq, Repr

/-- The command error that a freeze is for: cause 2 a CA parity failure, 3 a spent write-CRC budget (Table 17.4). -/
def FrzInfo.cmdErr (f : FrzInfo) : List (Nat × Nat) :=
  match f.sub with
  | some i => if f.cause = 2 ∨ f.cause = 3 then [(i, f.cause)] else []
  | none => []

/-- The 2,048 bytes of a freeze record (Tables 17.4 and 17.13). -/
def frzBytes (s : State) (d : Die) (c slot seq : Nat) (f : FrzInfo) : List Byte :=
  let head := [1, f.cause, slot, f.port, f.outc, f.rank, (match f.sub with | some i => i % 2 | none => 255), f.region, c, 0, 0, 0]
  let header := padTo 64 (head.flatMap (leBytes 1) ++ leBytes 4 seq ++ leBytes 8 (stampNs s d) ++ leBytes 5 f.home ++ leBytes 3 0 ++ leBytes 6 f.dla)
  let a := sub s d (2 * c)
  let b := sub s d (2 * c + 1)
  let trec := match f.sub with
    | some i => trecOf s d i 0 (pointInUse s d c) ++ trecOf s d i 1 (pointInUse s d c)
    | none => []
  let m := 1 + c / 3
  header ++ padTo 512 ((chan s d c).cmdLog.flatMap (leBytes 8))
    ++ queuePart s d a.rdq ++ queuePart s d a.wrq ++ queuePart s d b.rdq ++ queuePart s d b.wrq
    ++ padTo 1152 trec
    ++ padTo 32 (f.words.flatMap (fun w => [w.s0, w.s1, w.s2, BitVec.ofNat 8 (outcNum w.outc)]))
    ++ leBytes 4 (rdReg s .CKS_STATUS d m) ++ leBytes 4 (rdReg s .CKS_LIVE d m) ++ leBytes 4 (rdReg s .CKS_STATUS d 0)
    ++ leBytes 4 (rdReg s .CFE_STATUS d c)
    ++ leBytes 2 a.permFails.length ++ leBytes 2 b.permFails.length ++ leBytes 4 (rdReg s .CWU_UE_COUNT d c)
    ++ leBytes 4 (rdReg s .CFE_CAPAR_COUNT d c) ++ leBytes 4 0

/-- The slot for a new record: an empty one, else that of the oldest record not held (R396). -/
def frzSlot (s : State) (d : Die) : Option Nat :=
  match nfree (die s d).frz 8 with
  | some k => some k
  | none => ((die s d).frz.foldl (fun (best : Option (Nat × Nat)) p =>
      if p.2.held then best
      else match best with
        | none => some (p.1, p.2.seq)
        | some (_, q) => if p.2.seq < q then some (p.1, p.2.seq) else best) none).map (·.1)

/-- A channel enters the FROZEN channel state, with its record captured (R394 to R396); a read that fails while it is
frozen joins the freeze (R395). -/
def freezeChan (d : Die) (c : Nat) (f : FrzInfo) (join : Option Req) (s : State) : State :=
  match (chan s d c).frozen with
  | some z => onChan d c (fun x => { x with frozen := some { z with joined := z.joined ++ join.toList, cmdErrs := z.cmdErrs ++ f.cmdErr } }) s
  | none =>
    let slot := frzSlot s d
    let seq := (die s d).frzSeq + 1
    let loc := match f.sub with
      | some i => locSub d i
      | none => locChan d c
    let s1 := match slot with
      | some k =>
        onDie d (fun x => { x with frz := nset x.frz k ⟨c, f.cause, seq, false, frzBytes s d c k seq f⟩, frzSeq := seq }) s
          |> wf F.EVT_STATUS.LAST_SLOT d 0 k
      | none => s |> setFlag F.EVT_STATUS.FRZ_LOST d 0
    s1 |> onChan d c (fun x => { x with frozen := some ⟨f.cause, slot.getD 255, s.nowNs, f.sub.getD (2 * c), f.cmdErr, join.toList, false, true⟩ })
       |> setFlag F.EVT_STATUS.FROZE d 0
       |> wf F.EVT_FRZ_CTRL.FROZEN d 0 (setFld (rf s F.EVT_FRZ_CTRL.FROZEN d 0) c 1 1)
       |> onlyIf slot.isNone (post d ⟨0x1020, sevInfo, locDie d, [it1 c, it1 f.cause], none, none⟩)
       |> post d ⟨0x0910, sevUncorrected, loc, [it1 f.cause, it1 f.port, it5 f.home, it1 (slot.getD 255)], none, none⟩

/-- A command error on a subchannel freezes its channel, or joins the freeze that its channel is in, and a precharge-all goes before the
subchannel's next REF (R41, R46, R75, R394). -/
def commandError (d : Die) (i cause rank : Nat) (s : State) : State :=
  freezeChan d (i / 2) ⟨cause, 255, 0, some i, rank, 255, 0, 0, []⟩ none (onSub d i (fun b => { b with preaDue := true }) s)

/-- Submit a write of a line as poison by the SRU (R95, R110, R399), discarded where a later write overtakes it. -/
def poisonWrite (d : Die) (r : Req) (l : Line) (lantern : Bool) (s : State) : State :=
  submit d { mkWrite .sru r.sub r.loc r.home (classOf s d r.sub .sru 0) true r.region r.dla l true (.wbPoison lantern) with late := r.late } s

/-- The failures of a subchannel counted within WINDOW_H (R400). -/
def permWindow (s : State) (d : Die) (i : Nat) : Nat :=
  let win := clamp 1 720 (rf s F.EVT_PERM_CFG.WINDOW_H d 0) * 3600000000000
  ((sub s d i).permFails.filter (fun t => decide (s.nowNs ≤ t + win))).length

/-- Both retries of a read failed (R399): the line is written as poison, 0x0913, and the failure counts. -/
def demandPoisoned (d : Die) (r : Req) (l : Line) (s : State) : State :=
  let s1 := poisonWrite d r l false s
  s1 |> post d ⟨0x0913, sevUncorrected, locSub d r.sub,
          [it5 r.home, it6 r.dla, it1 r.region, it1 (portNum r.port), it4 (permWindow s1 d r.sub + 1)], some r.dla,
          some (bindOf s (rgAttr s r.region))⟩
     |> countFailure d r.sub (qRank s d (r.loc / 4))

end Sys2Proof.Machine
end

