-- ==== Sys2Proof/Machine/PageCoder.lean ====
section
/-!
DEFINITION. Sys2Proof/Machine/PageCoder.lean: the Kalkiene page coder (R163 to R174): line classes, layout, header,
CRC-16, extraction of one line and decoding of a page.
-/

namespace Sys2Proof.Machine

/-- The line classes of Table 7.2. -/
inductive LineClass where
  | zero | rep8 | bd1 | bd2 | bd4 | dup | lit
  deriving DecidableEq, Repr

/-- The code of a class. -/
def classCode : LineClass → Nat
  | .zero => 0 | .rep8 => 1 | .bd1 => 2 | .bd2 => 3 | .bd4 => 4 | .dup => 5 | .lit => 6

/-- The class of a code; 7 is reserved. -/
def classOfCode : Nat → Option LineClass
  | 0 => some .zero | 1 => some .rep8 | 2 => some .bd1 | 3 => some .bd2 | 4 => some .bd4 | 5 => some .dup | 6 => some .lit
  | _ => none

/-- The payload bytes of a class. -/
def classSize : LineClass → Nat
  | .zero => 0 | .rep8 => 8 | .bd1 => 16 | .bd2 => 24 | .bd4 => 40 | .dup => 1 | .lit => 64

/-- Word k of a line. -/
def lineQ (l : Line) (k : Nat) : Nat := lineNum l (8 * k) 8

/-- d_k of a line: modulo 2^64 (R165). -/
def delta (l : Line) (k : Nat) : Nat := (lineQ l k + 2 ^ 64 - lineQ l 0) % 2 ^ 64

/-- Whether a delta fits a signed number of n bits. -/
def fits (n v : Nat) : Bool := decide (v < 2 ^ (n - 1)) || decide (2 ^ 64 - 2 ^ (n - 1) ≤ v)

/-- The first class in the order of R166 that applies to a line, DUP apart. -/
def plainClass (l : Line) : LineClass :=
  if l = 0 then .zero
  else if (List.range 8).all (fun k => lineQ l k == lineQ l 0) then .rep8
  else if (List.range 8).all (fun k => fits 8 (delta l k)) then .bd1
  else if (List.range 8).all (fun k => fits 16 (delta l k)) then .bd2
  else if (List.range 8).all (fun k => fits 32 (delta l k)) then .bd4
  else .lit

/-- Where a payload of n bytes starts: at the offset, or at the next 256-B boundary where it would cross one (R167). -/
def payloadAt (off n : Nat) : Nat := if n ≠ 0 ∧ off / 256 ≠ (off + n - 1) / 256 then (off / 256 + 1) * 256 else off

/-- A coded line: its class, where its payload starts, and the payload. -/
structure CodedLine where
  cls : LineClass
  off : Nat
  payload : List Byte
  deriving DecidableEq, Repr

/-- The payload of a line in a class other than DUP (Table 7.2). -/
def plainPayload (c : LineClass) (l : Line) : List Byte :=
  match c with
  | .zero | .dup => []
  | .rep8 => leBytes 8 (lineQ l 0)
  | .bd1 => leBytes 8 (lineQ l 0) ++ (List.range 8).flatMap (fun k => leBytes 1 (delta l k))
  | .bd2 => leBytes 8 (lineQ l 0) ++ (List.range 8).flatMap (fun k => leBytes 2 (delta l k))
  | .bd4 => leBytes 8 (lineQ l 0) ++ (List.range 8).flatMap (fun k => leBytes 4 (delta l k))
  | .lit => lineBytes l

/-- The lowest earlier line that a line may name as its duplicate (R166): done are the earlier lines with their bytes,
in order; off is where the DUP byte would be placed. -/
def dupOf (done : List (Line × CodedLine)) (off : Nat) (l : Line) : Option Nat :=
  done.findIdx? (fun p => p.1 == l && p.2.cls != .zero && p.2.cls != .dup &&
    (p.2.off / 256 == 0 || p.2.off / 256 == payloadAt off 1 / 256))

/-- Code the lines of a page in order: the coded lines and the offset just past the last payload (R166, R167). -/
def codeLines : List Line → List (Line × CodedLine) → Nat → List (Line × CodedLine) × Nat
  | [], done, off => (done, off)
  | l :: ls, done, off =>
    let c := plainClass l
    match (if c = .zero then none else dupOf done off l) with
    | some j => codeLines ls (done ++ [(l, ⟨.dup, payloadAt off 1, leBytes 1 j⟩)]) (payloadAt off 1 + 1)
    | none =>
      let n := classSize c
      let o := payloadAt off n
      codeLines ls (done ++ [(l, ⟨c, o, plainPayload c l⟩)]) (if n = 0 then off else o + n)

/-- The sector count of a packed length (R170). -/
def sectorCode (len : Nat) : Nat := if len ≤ 256 then 0 else if len ≤ 512 then 1 else if len ≤ 1024 then 2 else 3

/-- One step of the CRC-16 of R171. -/
def crc16Step (c : BitVec 16) (b : Byte) : BitVec 16 :=
  (List.range 8).foldl (fun (v : BitVec 16) _ => if v.getMsbD 0 then (v <<< 1) ^^^ 0x1021 else v <<< 1)
    (c ^^^ (b.zeroExtend 16 <<< 8))

/-- The CRC-16 of R171. -/
def crc16 (bs : List Byte) : BitVec 16 := bs.foldl crc16Step 0xFFFF

/-- The bytes of a page. -/
def pageBytes (p : List Line) : List Byte := p.flatMap lineBytes

/-- The value of a page all of whose words are equal (R164). -/
def pageValue (p : List Line) : Option Nat :=
  let v := lineQ (p.headD 0) 0
  if p.all (fun l => (List.range 8).all (fun k => lineQ l k == v)) then some v else none

/-- A coded page: its packed length, its size code and the bytes of its sectors (R167 to R171). -/
structure CodedPage where
  len : Nat
  size : Nat
  bytes : List Byte
  deriving DecidableEq, Repr

/-- Code a page of 64 lines. -/
def codePage (p : List Line) : CodedPage :=
  let (ls, len) := codeLines p [] 32
  let size := sectorCode len
  let arr := (ls.zipIdx.foldl (fun v q => v + classCode q.1.2.cls * 8 ^ q.2) 0)
  let head := leBytes 2 len ++ leBytes 1 1 ++ leBytes 1 size ++ leBytes 2 (crc16 (pageBytes p)).toNat ++ leBytes 2 0 ++ leBytes 24 arr
  let body := ls.foldl (fun bs q => if q.2.payload = [] then bs else padTo q.2.off bs ++ q.2.payload) head
  ⟨len, size, padTo (256 * 2 ^ size) body⟩

/-! ### Decoding -/

/-- The class codes of a header sector (R169). -/
def classCodes (hd : List Byte) : List Nat := let v := fromLe ((hd.drop 8).take 24); (List.range 64).map (fun i => fld v (3 * i) 3)

/-- The offset of each line's payload, and the packed length (R167). -/
def offsets (cs : List LineClass) : List Nat × Nat :=
  cs.foldl (fun (p : List Nat × Nat) c =>
    let o := payloadAt p.2 (classSize c)
    (p.1 ++ [o], if classSize c = 0 then p.2 else o + classSize c)) ([], 32)

/-- The header checks of Table 7.4, the DUP row apart: the classes where they pass. `code` is the CLASS of the page map
entry. -/
def headerOk (hd : List Byte) (code : Nat) : Option (List LineClass) :=
  let cs := (classCodes hd).filterMap classOfCode
  let flags := (hd.getD 3 0).toNat
  let len := fromLe (hd.take 2)
  if hd.getD 2 0 = 1 ∧ flags = code ∧ code < 4 ∧ cs.length = 64 ∧ 40 ≤ len ∧ len ≤ 256 * 2 ^ code ∧ len = (offsets cs).2 ∧
     hd.getD 6 0 = 0 ∧ hd.getD 7 0 = 0 then some cs else none

/-- The sector that a read of line i needs beside the header sector (R172); the header sector itself is 0. -/
def lineSector (cs : List LineClass) (i : Nat) : Nat :=
  if cs.getD i .zero = .zero then 0 else (offsets cs).1.getD i 0 / 256

/-- A little-endian number of n bytes read as a signed delta, modulo 2^64. -/
def signed64 (n v : Nat) : Nat := if v < 2 ^ (8 * n - 1) then v else v + 2 ^ 64 - 2 ^ (8 * n)

/-- Rebuild a line from a payload of a class other than DUP (R165). -/
def fromPayload (c : LineClass) (bs : List Byte) : Line :=
  let w0 := fromLe (bs.take 8)
  let bd := fun (n : Nat) => lineOf ((List.range 8).flatMap (fun k => leBytes 8 ((w0 + signed64 n (fromLe ((bs.drop (8 + n * k)).take n))) % 2 ^ 64)))
  match c with
  | .zero | .dup => 0
  | .rep8 => lineOf ((List.range 8).flatMap (fun _ => leBytes 8 w0))
  | .bd1 => bd 1
  | .bd2 => bd 2
  | .bd4 => bd 4
  | .lit => lineOf bs

/-- Rebuild line i of a page whose bytes at an offset `at_` gives, `held` telling the sectors held; none where the DUP
check of Table 7.4 fails (R172). -/
def extractLine (cs : List LineClass) (bytes : List Byte) (held : Nat → Bool) (i : Nat) : Option Line :=
  let os := (offsets cs).1
  let take := fun j => fromPayload (cs.getD j .zero) ((bytes.drop (os.getD j 0)).take (classSize (cs.getD j .zero)))
  match cs.getD i .zero with
  | .dup =>
    let j := (bytes.getD (os.getD i 0) 0).toNat
    let c := cs.getD j .zero
    if j < i ∧ c ≠ .zero ∧ c ≠ .dup ∧ held (os.getD j 0 / 256) = true then some (take j) else none
  | _ => some (take i)

/-- Decode a whole page from its sectors (R173): none on a header failure; the lines with whether the CRC holds. -/
def decodePage (bytes : List Byte) (code : Nat) : Option (List Line × Bool) :=
  match headerOk (bytes.take 256) code with
  | none => none
  | some cs =>
    let ls := (List.range 64).map (fun i =>
      extractLine cs bytes (fun k => k == 0 || k == (offsets cs).1.getD i 0 / 256) i)
    if ls.all (·.isSome) then
      let p := ls.filterMap id
      some (p, decide ((crc16 (pageBytes p)).toNat = fromLe ((bytes.drop 4).take 2)))
    else none

end Sys2Proof.Machine
end

