-- ==== Sys2Proof/Machine/Meta.lean ====
section
/-!
DEFINITION. Sys2Proof/Machine/Meta.lean: the lines that the device keeps for itself under the internal metadata key (R141, R189, Table 8.4),
and of these the integrity metadata: metadata lines (R193), the nodes of the replay tree (R197), and the node cache (R198).
-/

namespace Sys2Proof.Machine

/-! ### Lines under the internal metadata key -/

/-- The internal metadata key: the XTS keys and the MAC key. -/
def metaKeys (s : State) : Key × Key := s.metaKey.getD (0, 0)

/-- The tweak of an internal metadata line (Table 8.4). -/
def tweakMeta (h : Nat) : BitVec 128 := BitVec.ofNat 128 (fld h 0 36 + 2 * 2 ^ 120)

/-- Encrypt and decrypt an internal metadata line; one whose ciphertext is zero is blank (R191). -/
def encMeta (s : State) (h : Nat) (l : Line) : Line := xtsLine (metaKeys s).1 (tweakMeta h) l
def decMeta (s : State) (h : Nat) (c : Line) : Line := if c = 0 then 0 else xtsUnline (metaKeys s).1 (tweakMeta h) c

/-- Write an internal metadata line: port tag TME, class TME, hint CLOSE (DESIGN CHOICE, log entry 129). -/
def putMeta (d : Die) (h : Nat) (l : Line) (poison : Bool) (s : State) : State :=
  match placeOf s h with
  | none => s
  | some (_, i, loc) => submit d (mkWrite .tme i loc h (classOf s d i .tme 0) true 0xFF 0 (encMeta s h l) poison .post) s

/-- The first line of the integrity metadata area of a die (R14). -/
def integBase (s : State) (d : Die) : Nat := dieLines s d - remapLines s d - carved s d (integrityLines s d)

/-- The first lines of the entries and of the T2 pool bitmap in the page-map area of a die (R14, R141). -/
def mapBase (s : State) (d : Die) : Nat := freeTop s d
def poolBase (s : State) (d : Die) : Nat := freeTop s d + rf s F.TME_MAP_CFG.MAP_GIB d 0 * 65536

/-! ### The lines of the integrity metadata area -/

/-- The level of a key of the node cache, 0 for a metadata line and k + 1 for a node of level k, and its index. -/
def keyLevel (key : Nat) : Nat := key / 2 ^ 40
def keyIndex (key : Nat) : Nat := key % 2 ^ 40

/-- The home line index of a line of the node cache: the metadata lines come first in the area, then the levels of the tree from level 0 up
(DESIGN CHOICE, log entry 130). -/
def nodeHome (s : State) (d : Die) (key : Nat) : Nat :=
  let tree := mibLines (rf s F.CIE_INT_CFG.MAC_GIB d 0 * 128)
  dieNum d * 2 ^ 35 + integBase s d + (if keyLevel key = 0 then 0 else tree + nodesBelow (replayCode s d) (keyLevel key - 1)) + keyIndex key

/-- The region and the first of the eight lines, on a die, of a metadata line or level-0 node of a part of the area. -/
def unitLines (s : State) (units : NMap (Nat × Nat)) (i : Nat) : Option (Nat × Nat) :=
  (nget units (i / 2 ^ 21)).map (fun p => (p.1, (rg s F.RGN_PLACE.DPA_G p.1 + p.2) * 2 ^ 24 + i % 2 ^ 21 * 8))

/-- The entry of a line in its metadata line (R193): in a MAC+REPLAY region the field VERSION is not used and is 0 (DESIGN CHOICE, log entry 130). -/
def LineMeta.bytes (integ : Nat) (m : LineMeta) : List Byte :=
  leBytes 7 (m.mac.getD 0).toNat ++ leBytes 1 (if integ = 1 then m.ver else 0)

/-- The counters of a node (R197): the leaf counters of eight lines, or the counters that cover its eight children. -/
def nodeCtrs (s : State) (d : Die) (k i : Nat) : List Nat :=
  if k = 0 then
    match unitLines s (die s d).treeUnits i with
    | some (_, x) => (List.range 8).map (fun j => (metaOf s (dieNum d * 2 ^ 35 + x + j)).ver)
    | none => List.replicate 8 0
  else (List.range 8).map (fun j => ngetD (die s d).ctrs (ctrKey (k - 1) (8 * i + j)) 0)

/-- The CMAC of a node under its parent's counter (R197): over the counters, the level in 1 byte, the index in 8 and the parent's counter in 7
(DESIGN CHOICE, log entry 130). -/
def nodeMac (s : State) (k i : Nat) (cs : List Nat) (parent : Nat) : Nat :=
  cmacTop 8 (metaKeys s).2 (cs.flatMap (leBytes 7) ++ leBytes 1 k ++ leBytes 8 i ++ leBytes 7 parent)

/-- The counter that covers a node. -/
def parentCtr (s : State) (d : Die) (k i : Nat) : Nat := ngetD (die s d).ctrs (ctrKey k i) 0

/-- The levels of a die's tree. -/
def levelsOf (s : State) (d : Die) : Nat := treeLevels (replayCode s d)

/-! ### The node cache (R198) -/

/-- Change the node cache of a die. -/
def onNodes (d : Die) (f : NMap Bool → NMap Bool) : State → State := onDie d (fun x => { x with nodes := f x.nodes })

/-- Whether the node cache of a die holds a line. -/
def cachedNode (s : State) (d : Die) (key : Nat) : Bool := (nget (die s d).nodes key).isSome

/-- A dirty line of the node cache is written back: a node advances its parent's counter first, and its CMAC is recomputed under it (R198).
A metadata line of which an entry was read as poison is written as poison (DESIGN CHOICE, log entry 130). -/
def storeNode (d : Die) (key : Nat) (s : State) : State :=
  let i := keyIndex key
  let h := nodeHome s d key
  if keyLevel key = 0 then
    match unitLines s (die s d).macUnits i with
    | some (n, x) =>
      let ms := (List.range 8).map (fun j => metaOf s (dieNum d * 2 ^ 35 + x + j))
      onNodes d (fun m => nset m key false) (putMeta d h (lineOf (ms.flatMap (LineMeta.bytes (atInteg (rgAttr s n))))) (ms.any (·.mac.isNone)) s)
    | none => onNodes d (fun m => nerase m key) s
  else
    let k := keyLevel key - 1
    let p := (parentCtr s d k i + 1) % 2 ^ 56
    let cs := nodeCtrs s d k i
    s |> putMeta d h (lineOf (cs.flatMap (leBytes 7) ++ leBytes 8 (nodeMac s k i cs p))) false
      |> onDie d (fun x => { x with ctrs := nset x.ctrs (ctrKey k i) p }) |> onNodes d (fun m => nset m key false)
      |> onlyIf (decide (k + 1 < levelsOf s d)) (touchNode d (nodeKey (k + 1) (i / 8)))

/-- The lines of the node cache that may be evicted: those with no child there. Which of them goes the spec leaves open. -/
def nodeVictims (s : State) (d : Die) : List Nat :=
  let keys := (die s d).nodes.map (·.1)
  keys.filter (fun x => !(keys.any (fun y => decide (1 ≤ keyLevel y) && keyLevel y + 1 == keyLevel x && keyIndex y / 8 == keyIndex x)))

/-- Evict a line of the node cache: a free value chooses it (R198, log entry 6). -/
def evictNode (d : Die) (s : State) : State :=
  let (v, s1) := takeFree s
  let ks := nodeVictims s d
  match ks[v.toNat % ks.length]? with
  | none => s1
  | some key => onNodes d (fun m => nerase m key) (onlyIf ((nget (die s d).nodes key).getD false) (storeNode d key) s1)

/-- The lines that the 2 MiB of the node cache hold. -/
def nodeWays : Nat := 32768

/-- A line comes into the node cache. -/
def cacheNode (d : Die) (key : Nat) (s : State) : State :=
  onNodes d (fun m => nset m key false) (each (List.range ((die s d).nodes.length + 1 - nodeWays)) (fun _ => evictNode d) s)

/-- Whether a die's node cache holds a dirty line. -/
def nodesDirty (s : State) (d : Die) : Bool := (die s d).nodes.any (·.2)

/-- Every dirty line of the node cache is written back, metadata lines first, then the tree level by level (R198, R381). -/
def flushNodes (d : Die) (s : State) : State :=
  each (List.range 10) (fun lv t => each ((die t d).nodes.filter (fun p => p.2 && keyLevel p.1 == lv)) (fun p => storeNode d p.1) t) s

/-! ### Bringing a line into the node cache -/

/-- The next line that has to come into a die's node cache before line l of a region is read or written: the tree's nodes that the leaf counter
is authenticated through, from below the first that the cache holds, and the metadata line (R198, R199). -/
def metaNext (s : State) (d : Die) (n a l : Nat) : Option Nat :=
  let ml := (metaLine s d n l).bind (fun i => if cachedNode s d (mlKey i) then none else some (mlKey i))
  if atInteg a = 0 then none
  else if atInteg a = 2 then
    match leafNode s d n l with
    | none => ml
    | some i => (((List.range (levelsOf s d)).map (fun k => nodeKey k (i / 8 ^ k))).takeWhile (fun key => !(cachedNode s d key))).getLast?.or ml
  else ml

/-- Change the metadata of a line. -/
def onMeta (h : Nat) (f : LineMeta → LineMeta) (s : State) : State := setMeta h (f (metaOf s h)) s

/-- A metadata line has come: its entries are as it holds them, none where it was read as poison. -/
def metaCame (d : Die) (key : Nat) (l : LineData) (s : State) : State :=
  match unitLines s (die s d).macUnits (keyIndex key) with
  | none => s
  | some (n, x) =>
    let p := decMeta s (nodeHome s d key) l.line
    let integ := atInteg (rgAttr s n)
    cacheNode d key (each (List.range 8) (fun j => onMeta (dieNum d * 2 ^ 35 + x + j) (fun m =>
      { m with mac := if l.poison then none else some (BitVec.ofNat 56 (lineNum p (8 * j) 7)),
               ver := if integ = 1 then (if l.poison then 0 else lineNum p (8 * j + 7) 1) else m.ver })) s)

/-- Whether a node that has come passes its check (R197, R199): a node that nothing has written since the tree was blank is zero under a
counter of 0 (DEDUCED, log entry 130). -/
def nodeOk (s : State) (d : Die) (k i : Nat) (p : Line) : Bool :=
  let c := parentCtr s d k i
  (c == 0 && decide (p = 0)) || lineNum p 56 8 == nodeMac s k i ((List.range 8).map (fun j => lineNum p (7 * j) 7)) c

/-- A node has come, for an access to a DLA of a region: it is checked, and its counters are taken, or the region fails below it (R199). -/
def nodeCame (d : Die) (n dla key : Nat) (l : LineData) (s : State) : State :=
  let k := keyLevel key - 1
  let i := keyIndex key
  let p := decMeta s (nodeHome s d key) l.line
  if l.poison ∨ nodeOk s d k i p = false then treeFail d n dla k s
  else
    let c := fun (j : Nat) => lineNum p (7 * j) 7
    let s1 := if k = 0 then
        (match unitLines s (die s d).treeUnits i with
         | some (_, x) => each (List.range 8) (fun j => onMeta (dieNum d * 2 ^ 35 + x + j) (fun m => { m with ver := c j })) s
         | none => s)
      else onDie d (fun y => { y with ctrs := (List.range 8).foldl (fun m j => nset m (ctrKey (k - 1) (8 * i + j)) (c j)) y.ctrs }) s
    cacheNode d key s1

/-- A line of the integrity metadata area has come. -/
def nodeLoaded (d : Die) (n dla key : Nat) (l : LineData) (s : State) : State :=
  if keyLevel key = 0 then metaCame d key l s else nodeCame d n dla key l s

/-- The operation that brings a line into a die's node cache. -/
def nodeOp (s : State) (d : Die) (key : Nat) : Option Nat := (s.ops.find? (fun p => p.2.job == .node d key)).map (·.1)

/-- Bring a line into the node cache, for an access of a requester port, and let what needs it wait: the read carries the port's tag and class
(DESIGN CHOICE, log entry 129). -/
def askNode (d : Die) (key : Nat) (p : Port) (n dla : Nat) (t : Todo) (s : State) : State :=
  match nodeOp s d key with
  | some id => { s with ops := nupd s.ops id (fun o => { o with after := o.after ++ [t] }) }
  | none =>
    let h := nodeHome s d key
    let a := rgAttr s n
    let id := s.seq + 1
    let o : OpSt := { asker := .nobody, job := .node d key, port := p, region := n, attr := a, dla := dla, cmp := .plain, track := none, page := none,
                      want := [0], got := [], after := [t] }
    match placeOf s h with
    | none => later t (nodeLoaded d n dla key ⟨0, true⟩ s)
    | some (_, i, loc) =>
      { s with seq := id, ops := nset s.ops id o } |> onlyIf (decide (1 ≤ keyLevel key)) (signalDie d 0x0881 1)
        |> submit d (mkRead p i loc h (classOf s d i p a) (hintOf p a true) 0xFF 0 LineMeta.blank (.op id 0))

/-! ### Shares (R200) -/

/-- The least key from i on that a map does not list. -/
def lowGap {α : Type} : NMap α → Nat → Nat
  | [], i => i
  | (k, _) :: m, i => if k < i then lowGap m i else if k = i then lowGap m (i + 1) else i

/-- A part of the area with a region's share taken: for each GiB the lowest free unit. -/
def takeUnits (n gib : Nat) (m : NMap (Nat × Nat)) : NMap (Nat × Nat) := (List.range gib).foldl (fun u g => nset u (lowGap u 0) (n, g)) m

/-- A region takes its share on a die. -/
def takeShare (n a gib : Nat) (d : Die) : State → State :=
  onDie d (fun x => { x with macUnits := if atInteg a = 0 then x.macUnits else takeUnits n gib x.macUnits,
                             treeUnits := if atInteg a = 2 then takeUnits n gib x.treeUnits else x.treeUnits })

/-- The units of a part of the area that are a region's. -/
def unitsOf (m : NMap (Nat × Nat)) (n : Nat) : List Nat := (m.filter (fun p => p.2.1 == n)).map (·.1)

/-- Whether a key of the node cache is a line of one of the units given of the two parts: metadata lines, and nodes up to level 7, each of which
covers lines of one unit. -/
def keyIn (us vs : List Nat) (key : Nat) : Bool :=
  if keyLevel key = 0 then us.contains (keyIndex key / 2 ^ 21) else decide (keyLevel key ≤ 8) && vs.contains (keyIndex key / 8 ^ (8 - keyLevel key))

/-- A region's share is free again: the cached lines of it go. -/
def dropShare (n : Nat) (d : Die) (s : State) : State :=
  let us := unitsOf (die s d).macUnits n
  let vs := unitsOf (die s d).treeUnits n
  onDie d (fun x => { x with nodes := x.nodes.filter (fun p => !(keyIn us vs p.1)), macUnits := x.macUnits.filter (fun p => p.2.1 != n),
                             treeUnits := x.treeUnits.filter (fun p => p.2.1 != n) }) s

/-- The runs of lines of a region's share on a die: first home line index on the die, and length. -/
def shareRuns (s : State) (d : Die) (n : Nat) : List (Nat × Nat) :=
  let at0 := fun (key : Nat) => fld (nodeHome s d key) 0 35
  (unitsOf (die s d).macUnits n).map (fun u => (at0 (mlKey (u * 2 ^ 21)), 2 ^ 21)) ++
    (unitsOf (die s d).treeUnits n).flatMap (fun v => (List.range (min 8 (levelsOf s d))).map (fun k => (at0 (nodeKey k (v * 8 ^ (7 - k))), 8 ^ (7 - k))))

/-- The counters of a region's share are 0 again, as its blank lines have them (R138); a node above level 7 that covers the share is dirty. -/
def blankShare (n : Nat) (d : Die) (s : State) : State :=
  let us := unitsOf (die s d).macUnits n
  let vs := unitsOf (die s d).treeUnits n
  s |> onDie d (fun x => { x with nodes := x.nodes.filter (fun p => !(keyIn us vs p.1)),
                                  ctrs := x.ctrs.filter (fun p => !(keyIn [] vs (p.1 + 2 ^ 40))) })
    |> onlyIf (decide (8 < levelsOf s d)) (each vs (fun v => touchNode d (nodeKey 8 (v / 8))))

end Sys2Proof.Machine
end

