-- ==== Sys2Proof/Machine/OpDone.lean ====
section
/-!
DEFINITION. Sys2Proof/Machine/OpDone.lean: operations in flight: their lines as they come back, and their completion
toward the host or the peer that asked (R26, R172, R252).
-/

namespace Sys2Proof.Machine

/-- Change a started descriptor of a submission ring. -/
def onDesc (d : Die) (sq seq : Nat) (f : Desc → Desc) : State → State :=
  onDie d (fun x => { x with cpr := { x.cpr with sqs := nupd x.cpr.sqs sq (fun q =>
    { q with started := q.started.map (fun (e : Desc) => if e.seq = seq then f e else e) }) } })

/-- An access of a descriptor is done, with the line of a read. -/
def Desc.done (k : Nat) (l : Option LineData) (e : Desc) : Desc :=
  { e with left := e.left - 1, got := match l with
      | some v => nset e.got k v
      | none => e.got }

/-- Change a piece of an engine's own work. -/
def onWork (d : Die) (id : Nat) (f : EngWork → EngWork) : State → State := onDie d (fun x => { x with work := nupd x.work id f })

/-- An access of an engine's own work is done, with the line of a read. -/
def EngWork.done (k : Nat) (l : Option LineData) (w : EngWork) : EngWork :=
  { w with left := w.left - 1, got := match l with
      | some v => nset w.got k v
      | none => w.got }

/-- A line of the page that a move reads has come; what a move that is gone asked for is discarded (R153). -/
def moveLine (d : Die) (slot id k : Nat) (l : LineData) (s : State) : State :=
  match nget (die s d).tme.moves slot with
  | some m =>
    if m.id = id then
      let got := nset m.got k l
      let s1 := onDie d (fun x => { x with tme := { x.tme with moves := nset x.tme.moves slot { m with got := got } } }) s
      if 64 ≤ got.length then later (.moved d slot id) s1 else s1
    else s
  | none => s

/-- Poison as delivered. -/
def poisoned : LineData := ⟨0, true⟩

/-- Whether a host port's link retrains or falls back: nothing is lost, and everything waits for L0 (R257). -/
def linkHeld (s : State) (p : Die) : Bool := rf s F.HPC_LINK_STATUS.RUNG p 0 == 1 || rf s F.HPC_LINK_STATUS.RUNG p 0 == 2

/-- The completion of a host's request, kept while the link retrains (R257); the port counts what it returns as poison (R252). -/
def hostCpl (p : Die) (tag : Nat) (l : Option LineData) (c : Cmp) (s : State) : State :=
  let s1 := onlyIf (l.any (·.poison)) (addCount p .HPC 4 1) s
  if linkHeld s p then onDie p (fun x => { x with hpc := { x.hpc with cpls := x.hpc.cpls ++ [(tag, l, c)] } }) s1
  else send (.hostCpl p tag l c) s1

/-- Answer whoever asked: a host with its completion, a peer's request with the line done, a descriptor with its access. -/
def answer (a : Asker) (l : Option LineData) (c : Cmp) (s : State) : State :=
  match a with
  | .host p tag => hostCpl p tag l c s
  | .peer id k =>
    later (.served id) { s with serves := nupd s.serves id (fun v => { v with got := nset v.got k (l.getD ⟨0, false⟩) }) }
  | .desc d sq seq k => later (.desc d sq seq) (onDesc d sq seq (Desc.done k l) s)
  | .work d id k => later (.work d id) (onWork d id (EngWork.done k l) s)
  | .move d slot id k => moveLine d slot id k (l.getD poisoned) s
  | .copy d q => submit d q s
  | .nobody => s

/-- The first row of Table 7.4 that a header sector fails, by order in the table. -/
def headerRow (hd : List Byte) (code : Nat) : Nat :=
  let flags := (hd.getD 3 0).toNat
  let cs := (classCodes hd).filterMap classOfCode
  let len := fromLe (hd.take 2)
  if hd.getD 2 0 ≠ 1 then 0
  else if flags ≠ code then 1
  else if len < 40 ∨ 256 * 2 ^ code < len ∨ (cs.length = 64 ∧ len ≠ (offsets cs).2) then 2
  else if cs.length ≠ 64 then 3
  else if hd.getD 6 0 ≠ 0 ∨ hd.getD 7 0 ≠ 0 then 5 else 4

/-- A T1 page's format is found wrong (Table 7.5). -/
def formatError (d : Die) (n dla row : Nat) (s : State) : State :=
  s |> setFlag F.CMP_STATUS.FORMAT d 0
    |> post d ⟨0x0701, sevUncorrected, locDie d, [it1 n, it6 (dla / 4096 * 4096), it1 (Config.detailCode 0x0701 row)], some dla, some (bindOf s (rgAttr s n))⟩

/-- The plaintext of a sector out of its four lines as stored. -/
def sectorBytes (s : State) (n a h : Nat) (g : List LineData) : List Byte :=
  let ks := lineKeys s n a h
  let ls := g.map (·.line)
  (if ls.all (fun l => decide (l = 0)) then ls else decSector ks.1 ks.2.2 h ls).flatMap lineBytes

/-- The header sector that has come for a tier-1 read: none where a line of it is poison. -/
def tier1Head (s : State) (o : OpSt) (h : Nat) : Option (List Byte) :=
  let g := (List.range 4).map (fun k => ngetD o.got k ⟨0, true⟩)
  if g.any (·.poison) then none else some (sectorBytes s o.region o.attr h g)

/-- Extract the line of a tier-1 read from its sectors (R172, Table 7.5). Of a DUP line, the DUP byte that Table 7.4 checks is that of the
line itself (DESIGN CHOICE, log entry 123). -/
def tier1Line (d : Die) (n a dla line code h1 h2 : Nat) (got : NMap LineData) (s : State) : LineData × State :=
  let pick := fun o => (List.range 4).map (fun k => ngetD got (o + k) ⟨0, true⟩)
  let g1 := pick 0
  let g2 := if h1 = h2 then g1 else pick 4
  let s0 := s |> addCount d .CMP 7 1 |> signalDie d 0x0880 (if h1 = h2 then 1 else 2)
  if g1.any (·.poison) || g2.any (·.poison) then (⟨0, true⟩, s0)
  else
    let hd := sectorBytes s n a h1 g1
    let k := fld h2 2 33 - fld h1 2 33
    let bytes := if k = 0 then hd else padTo (256 * k) hd ++ sectorBytes s n a h2 g2
    match headerOk hd code with
    | none => (⟨0, true⟩, formatError d n dla (headerRow hd code) s0)
    | some cs =>
      match extractLine cs bytes (fun j => j == 0 || j == k) line with
      | some l => (⟨l, false⟩, s0)
      | none => (⟨0, true⟩, formatError d n dla 4 s0)

/-- The destination writes of a move have all been accepted. -/
def moveAccepted (d : Die) (k : Nat) : State → State :=
  onDie d (fun x => { x with tme := { x.tme with moves := nupd x.tme.moves k (fun m => { m with accepted := true }) } })

/-- The sectors that a move reads have come. -/
def gathered (d : Die) (k id : Nat) (got : NMap LineData) (s : State) : State :=
  match nget (die s d).tme.moves k with
  | some m =>
    if m.id = id then
      later (.moved d k id) (onDie d (fun x => { x with tme := { x.tme with moves := nset x.tme.moves k { m with got := got } } }) s)
    else s
  | none => s

/-- The lines of a block that a rotation reads have come on a die; what a rotation that is gone asked for is discarded. -/
def rotGot (slot id : Nat) (d : Die) (got : NMap LineData) (s : State) : State :=
  match nget s.rots slot with
  | some r =>
    if r.id = id then
      let r1 := { r with need := r.need.filter (· != d), got := got.foldl (fun m p => nset m (4 * dieNum d + p.1) p.2) r.got }
      later (.rotated slot) { s with rots := nset s.rots slot r1 }
    else s
  | none => s

/-- What has waited for ways of a die's page map cache is tried again, where an operation on a placement ends (R143). -/
def wakeWays (page : Option (Die × Nat × Nat)) (s : State) : State :=
  match page with
  | some (d, _, _) => each (die s d).tme.full (fun p => later p.2) (onDie d (fun x => { x with tme := { x.tme with full := [] } }) s)
  | none => s

/-- Complete operation n when every line or copy it awaits has come; a transaction of the directory that it carried out goes
on (R223). -/
def finishOp (n : Nat) (s : State) : State :=
  match nget s.ops n with
  | none => s
  | some o =>
    if o.want.all (fun k => (nget o.got k).isSome) then
      let s1 := { s with ops := nerase s.ops n }
      let s2 := match o.job with
        | .read => answer o.asker (o.want.head?.map (fun k => ngetD o.got k ⟨0, true⟩)) o.cmp s1
        | .write => answer o.asker none o.cmp s1
        | .tier1 _ _ _ none => later (.sector n) s
        | .tier1 line code h1 (some h2) =>
          let (l, t) := tier1Line (dieOf (fld h1 35 1)) o.region o.attr o.dla line code h1 h2 o.got s1
          answer o.asker (some l) o.cmp t
        | .move d k => moveAccepted d k s1
        | .gather d k id => gathered d k id o.got s1
        | .rot slot id d _ => rotGot slot id d o.got s1
        | .node d key => each o.after later (nodeLoaded d o.region o.dla key (ngetD o.got 0 ⟨0, true⟩) s1)
        | .merge _ => later (.merged n) s
        | .map _ _ | .record _ _ _ => later (.loaded n) s
      match o.track, o.job with
      | _, .tier1 _ _ _ none => s2
      | some (d, key), _ => later (.line d key) (wakeWays o.page s2)
      | none, _ => wakeWays o.page s2
    else s

/-- Line or copy k of operation n has come. -/
def opGot (n k : Nat) (l : LineData) (s : State) : State :=
  match nget s.ops n with
  | none => s
  | some o => finishOp n { s with ops := nset s.ops n { o with got := nset o.got k l } }

/-- Whether an operation takes its lines as ciphertext. -/
def opRaw (o : OpSt) : Bool :=
  match o.job with
  | .tier1 _ _ _ _ | .gather _ _ _ | .node _ _ | .map _ _ | .record _ _ _ => true
  | .rot _ _ _ raw => raw
  | .read | .write | .move _ _ | .merge _ => false

end Sys2Proof.Machine
end

