-- ==== Sys2Proof/Machine/Lantern.lean ====
section
/-!
DEFINITION. Sys2Proof/Machine/Lantern.lean: the scrubber's walk and its reads (R105 to R108), and the report of a line
found uncorrectable (R110, R119).
-/

namespace Sys2Proof.Machine

/-- Change Lantern's place on a subchannel. -/
def onScrub (d : Die) (i : Nat) (f : ScrubSt → ScrubSt) : State → State := onSub d i (fun b => { b with scrub := f b.scrub })

/-- The remap entry whose spare line is a location. -/
def entryAt (s : State) (d : Die) (b : SubSt) (loc : Nat) : Option (Nat × RemapEnt) :=
  b.remap.find? (fun p => p.2.valid && spareLoc s d p.1 == loc)

/-- Whether Lantern skips a location as the original of a remapped line (R105). -/
def remappedAway (s : State) (d : Die) (i loc : Nat) : Bool := (remapHit (sub s d i) (homeOf s d i loc)).isSome

/-- The first block from q on that is initialised (R105, R156). -/
def nextInit (b : SubSt) (q : Nat) : Nat :=
  if b.initW ≤ q then q
  else if b.demand.contains q then q
  else (b.demand.filter (fun x => decide (q ≤ x))).foldl min b.initW

/-- The next location that Lantern reads at or after a position, and whether the walk passed the top: none where nothing
is left to read within `fuel` places. -/
def scrubFind (s : State) (d : Die) (i : Nat) : Nat → Nat → Nat → Bool → Option (Nat × Nat × Bool)
  | 0, _, _, _ => none
  | fuel + 1, q, l, wrapped =>
    let q1 := nextInit (sub s d i) q
    let l1 := if q1 = q then l else 0
    if qTop s d ≤ q1 then (if wrapped then none else scrubFind s d i fuel 0 0 true)
    else if remappedAway s d i (4 * q1 + l1) then
      (if l1 = 3 then scrubFind s d i fuel (q1 + 1) 0 wrapped else scrubFind s d i fuel q1 (l1 + 1) wrapped)
    else some (q1, l1, wrapped)

/-- The position register of a subchannel. -/
def scrubPosF (i : Nat) : Fld × Fld :=
  if i % 2 = 0 then (F.SRU_SCRUB_POS_A.Q, F.SRU_SCRUB_POS_A.LINE) else (F.SRU_SCRUB_POS_B.Q, F.SRU_SCRUB_POS_B.LINE)

/-- Issue Lantern's next read of a subchannel (R105). -/
def scrubIssue (d : Die) (i : Nat) (s : State) : State :=
  let z := (sub s d i).scrub
  match scrubFind s d i 200 z.q z.line false with
  | none => s
  | some (q, l, wrapped) =>
    let loc := 4 * q + l
    let h := match entryAt s d (sub s d i) loc with
      | some (_, e) => e.home
      | none => homeOf s d i loc
    let q2 := if l = 3 then q + 1 else q
    let l2 := (l + 1) % 4
    let done := wrapped || decide (qTop s d ≤ q2)
    let q3 := if qTop s d ≤ q2 then 0 else q2
    s |> onScrub d i (fun z => { z with q := q3, line := l2, outstanding := z.outstanding + 1,
                                        behindPosted := if done then false else z.behindPosted })
      |> onlyIf done (cntF F.SRU_STAT.PASSES d (i / 2) 1)
      |> wf (scrubPosF i).1 d (i / 2) q3 |> wf (scrubPosF i).2 d (i / 2) l2
      |> submit d (mkRead .sru i loc h (classOf s d i .sru 0) true 0xFF 0 LineMeta.blank (.scrub false))

/-- Whether the states of R108 keep Lantern from issuing. -/
def scrubHeld (s : State) (d : Die) (i : Nat) : Bool :=
  let c := chan s d (i / 2)
  let b := sub s d i
  c.frozen.isSome || c.clockRec || b.r0.retrain.isSome || b.r1.retrain.isSome || s.dev.mode == .hold || decide (b.st ≠ .live)

/-- A further read of Lantern's: the second read of R110, or a verify read. In a state of R108 it waits. -/
def scrubSend (d : Die) (r : Req) (s : State) : State :=
  if scrubHeld s d r.sub then onScrub d r.sub (fun z => { z with held := z.held ++ [r] }) s else submit d r s

/-- Issue one owed step where Lantern may (R107, R108). -/
def scrubOne (d : Die) (i : Nat) (s : State) : State :=
  let z := (sub s d i).scrub
  if 0 < z.owed ∧ z.outstanding < 4 ∧ scrubHeld s d i = false then scrubIssue d i (onScrub d i (fun z => { z with owed := z.owed - 1 }) s) else s

/-- Issue what Lantern owes a subchannel, as far as R107 and R108 let it: what waited for a state of R108 to end, then owed steps. -/
def scrubPump (d : Die) (i : Nat) (s : State) : State :=
  if scrubHeld s d i then s
  else
    let hs := (sub s d i).scrub.held
    scrubOne d i (scrubOne d i (scrubOne d i (scrubOne d i (each hs (submit d) (onScrub d i (fun z => { z with held := [] }) s)))))

/-- The same for both subchannels of a channel. -/
def scrubPumpChan (d : Die) (c : Nat) (s : State) : State := scrubPump d (2 * c + 1) (scrubPump d (2 * c) s)

/-- A Lantern read has ended: owed steps are issued (R107). -/
def scrubEnded (d : Die) (i : Nat) (s : State) : State :=
  scrubPump d i (onScrub d i (fun z => { z with outstanding := z.outstanding - 1 }) s)

/-- The items of 0x0C01 for a line: home DPA, outcome, area, and region and DLA in a FLAT region (R110, Table 17.12). -/
def ueItems (s : State) (h outc : Nat) : List (List Byte) :=
  [it6 (h * 64), it1 outc] ++
    (match flatOf s h with
     | some (n, dla) => [it1 0, it1 n, it6 dla]
     | none =>
       match areaOf s h, backingOf s h with
       | some a, _ => [it1 a]
       | none, some _ => [it1 1]
       | none, none => [it1 5])

/-- 0x0C01 for a line found UNCORRECTABLE or ADDRESS without a demand read (R110, R119). -/
def uePosted (d : Die) (i h outc : Nat) (s : State) : State :=
  s |> post d ⟨0x0C01, sevDeferred, locSub d i, ueItems s h outc, (flatOf s h).map (·.2),
         (flatOf s h).map (fun p => bindOf s (rgAttr s p.1))⟩

/-- One more line written as poison by the SRU (SRU_STAT.POISONED). -/
def countPoisoned (d : Die) (i : Nat) : State → State := cntF F.SRU_STAT.POISONED d (i / 2) 1

/-- Lantern has found a line UNCORRECTABLE or ADDRESS twice (R110). -/
def scrubUe (d : Die) (i h outc : Nat) (s : State) : State :=
  s |> setFlagSub F.SRU_STATUS.SCRUB_UE_A F.SRU_STATUS.SCRUB_UE_B d i |> uePosted d i h outc

end Sys2Proof.Machine
end

