-- ==== Sys2Proof/Machine/Enter.lean ====
section
/-!
DEFINITION. Sys2Proof/Machine/Enter.lean: how a write enters its subchannel's write queue (R61, R65, R67, R109, R116, R126), and the blank
writes of the fill (R156 to R160).
-/

namespace Sys2Proof.Machine

/-! ### The write queue -/

/-- WR_HI and WR_LO as they act. -/
def wrHi (s : State) (d : Die) (c : Nat) : Nat := max 17 (rf s F.MSC_ARB_CFG.WR_HI d c)
def wrLo (s : State) (d : Die) (c : Nat) : Nat := min (rf s F.MSC_ARB_CFG.WR_LO d c) (wrHi s d c - 1)

/-- Set write mode where the write queue has reached WR_HI (R67). -/
def enterDrain (d : Die) (i : Nat) (s : State) : State :=
  if wrHi s d (i / 2) ≤ (sub s d i).wrq.length then onSub d i (fun b => { b with writeMode := true }) s else s

/-- Mark the reads and write-backs that a write of another requester overtakes (R109, R110, R399). -/
def markLate (h : Nat) (q : List Req) : List Req :=
  q.map (fun (r : Req) => if r.home = h ∧ (r.write = false ∨ fromRead r) then { r with late := true } else r)

/-- The same where a read has not come to its read queue yet: the write that overtakes it is older there. -/
def markWaiting (h : Nat) (q : List Req) : List Req :=
  q.map (fun (r : Req) => if r.home = h ∧ fromRead r then { r with late := true } else r)

/-- Mark the reads that joined a freeze. -/
def FrzSt.overtaken (h : Nat) (z : FrzSt) : FrzSt := { z with joined := markLate h z.joined }

/-- A write of another requester than the SRU enters a write queue. -/
def overtake (d : Die) (r : Req) (s : State) : State :=
  if r.port = .sru then s
  else
    s |> onSub d r.sub (fun b => { b with rdq := markLate r.home b.rdq, returning := markLate r.home b.returning,
                                          retryq := markLate r.home b.retryq,
                                          scrub := { b.scrub with held := markWaiting r.home b.scrub.held } })
      |> onChan d (r.sub / 2) (fun c => { c with mxin := markWaiting r.home c.mxin,
                                                 frozen := c.frozen.map (FrzSt.overtaken r.home) })

/-- A write of an operation is accepted. -/
def writeAccepted (r : Req) (s : State) : State :=
  match r.why with
  | .opw n k => opGot n k ⟨0, false⟩ s
  | _ => s

/-- Whether a word of a line is in WATCH. -/
def lineWatched (s : State) (d : Die) (h : Nat) : Bool := (dripLive s d).any (fun p => p.2.h == h && decide (p.2.st = .watch))

/-- Put a write at the back of a subchannel's write queue, steered by the remap table (R116). -/
def pushWrite (d : Die) (r : Req) (s : State) : State :=
  let loc := steer s d r.sub r.loc r.home
  onSub d r.sub (fun b => { b with wrq := b.wrq ++ [{ r with seq := s.seq + 1, loc := loc, enterNs := s.nowNs }] }) { s with seq := s.seq + 1 }
    |> enterDrain d r.sub

/-- A write of a block that an evacuation has copied goes to the spare as well, encoded there (R126). -/
def twinWrite (d : Die) (r : Req) (s : State) : State :=
  match evacTwin s d r.sub r.loc with
  | some j => let e := encodeReq d { r with sub := j, enc := none, why := .post } s; pushWrite d e.1 e.2
  | none => s

/-- A write enters its write queue. A write-back of a watched word is followed by the verify read (Table 5.2). -/
def enterWrite (d : Die) (r : Req) (s : State) : State :=
  s |> pushWrite d r |> twinWrite d r |> overtake d r |> writeAccepted r
    |> onlyIf (r.why == .wbPoison true) (countPoisoned d r.sub)
    |> onlyIf (r.why == .wb && lineWatched s d r.home)
         (scrubSend d (mkRead .sru r.sub r.loc r.home (classOf s d r.sub .sru 0) true 0xFF 0 LineMeta.blank .verify))

/-- Whether the write queue that writes to a location go to has room for k, and the spare's where they go there too. -/
def queueRoom (s : State) (d : Die) (i loc k : Nat) : Bool :=
  decide ((sub s d i).wrq.length + k ≤ 64) &&
    (match evacTwin s d i loc with
     | some j => decide ((sub s d j).wrq.length + k ≤ 64)
     | none => true)

/-- Whether the write queue that a write goes to has room. -/
def writeRoom (s : State) (d : Die) (r : Req) : Bool := queueRoom s d r.sub r.loc 1

/-! ### The fill (R156 to R160) -/

/-- A block enters the demand table; 0x0607 when the table becomes full (R159). -/
def demandEnter (d : Die) (i q : Nat) (s : State) : State :=
  if (sub s d i).demand.contains q then s
  else
    let s1 := onSub d i (fun b => { b with demand := b.demand ++ [q] }) s
    if (sub s1 d i).demand.length = 1024 then postLim d i ⟨0x0607, sevInfo, locSub d i, [it1 i], none, none⟩ [] s1 else s1

/-- Entries of the demand table in use or spoken for by held writes. -/
def demandUse (b : SubSt) : Nat := (b.demand ++ b.demandHeld.map (fun (r : Req) => r.loc / 4)).eraseDups.length

/-- Whether the subchannel's fill may write now (R160, R383): not while its channel is frozen, retrains or recovers its clock. -/
def fillRuns (s : State) (d : Die) (i : Nat) : Bool :=
  let c := chan s d (i / 2)
  let b := sub s d i
  (serving s || s.dev.mode == .sanitize) && !(resting s) && c.frozen.isNone && !c.clockRec && b.r0.retrain.isNone && b.r1.retrain.isNone && !(fenced s d) &&
    (b.st == .live || (b.st == .spare && s.dev.mode == .sanitize))

/-- The fill's blank writes of a block enter the write queue, at class TME_INIT_CFG.PRIO (R156, R157). -/
def fillBlock (d : Die) (i q : Nat) (s : State) : State :=
  each (List.range 4) (fun l t =>
    let e := encodeReq d (mkWrite .tme i (4 * q + l) (homeOf t d i (4 * q + l)) (rf t F.TME_INIT_CFG.PRIO d 0) true 0xFF 0 0 false .post) t
    enterWrite d e.1 e.2) s

/-- Whether the fill can write a block now. -/
def fillReady (s : State) (d : Die) (i q : Nat) : Bool := fillRuns s d i && queueRoom s d i (4 * q) 4

/-- The fill initialises a block that a read has come to, and enters it in the demand table where that has at least 256 free entries
(R158). Where the fill is paused or the queue has no room, it leaves the block (DESIGN CHOICE, log entry 122). -/
def fillForRead (d : Die) (i q : Nat) (s : State) : State :=
  if (sub s d i).demand.length ≤ 768 ∧ fillReady s d i q then demandEnter d i q (fillBlock d i q s) else s

end Sys2Proof.Machine
end

