-- ==== Sys2Proof/Machine/Codeword.lean ====
section
/-!
DEFINITION. Sys2Proof/Machine/Codeword.lean: what follows a line outcome (R98, R99, Table 4.2), the checks on the way to
the requester (R140, R196, R199), the retries of a freeze (R398, R399), and the CWU's own commands (R101, R102, R123).
-/

namespace Sys2Proof.Machine

/-! ### The CWU's records of an outcome -/

/-- CWU_LAST and CWU_SYND of the latest outcome other than NONE. -/
def noteLast (d : Die) (i rank : Nat) (erased : Bool) (dec : LineDec) (s : State) : State :=
  if dec.outc = .none then s
  else
    let (k, w) := worstWord dec
    let f := fun (a b : Fld) (v : Nat) => wf (ab a b i) d (i / 2) v
    s |> f F.CWU_LAST_A.OUTCOME F.CWU_LAST_B.OUTCOME (outcNum dec.outc)
      |> f F.CWU_LAST_A.ERASURE F.CWU_LAST_B.ERASURE (b2n erased)
      |> f F.CWU_LAST_A.POSITION F.CWU_LAST_B.POSITION w.pos
      |> f F.CWU_LAST_A.WORD F.CWU_LAST_B.WORD k
      |> f F.CWU_LAST_A.RANK F.CWU_LAST_B.RANK rank
      |> f F.CWU_SYND_A.S0 F.CWU_SYND_B.S0 w.s0.toNat
      |> f F.CWU_SYND_A.S1 F.CWU_SYND_B.S1 w.s1.toNat
      |> f F.CWU_SYND_A.S2 F.CWU_SYND_B.S2 w.s2.toNat

/-- The key of a device count: rank and device. -/
def devKey (rank dev : Nat) : Nat := rank * 16 + dev

/-- The corrected words of a line, by index and position. -/
def correctedWords (dec : LineDec) : List (Nat × Nat) :=
  (dec.words.zipIdx.filter (fun p => p.1.outc == .corrected)).map (fun p => (p.2, p.1.pos))

/-- A CORRECTED line (Table 4.2): device counts, 0x0B01, and the words to the drip log. -/
def corrected (d : Die) (i rank h : Nat) (dec : LineDec) (kind : DripKind) (rowFree : Bool) (s : State) : State :=
  let ws := correctedWords dec
  let s1 := each ws (fun p => onSub d i (fun b => { b with devcnt := nmod b.devcnt (devKey rank p.2) 0 (fun v => satAdd 32 v 1) })) s
  let tally := (List.range 11).map (fun a => (ws.filter (fun p => p.2 == a)).length)
  let s2 := postLim d i ⟨0x0B01, sevCorrected, locSub d i, [], none, none⟩ tally s1
  each ws (fun p => classify d i rank h p.1 p.2 kind rowFree) s2

/-- The words of a line whose outcome is NONE. -/
def cleanWords (dec : LineDec) : List Nat := (dec.words.zipIdx.filter (fun p => p.1.outc == .none)).map (·.2)

/-- The items of 0x0B02 and 0x0B03. -/
def errItems (h : Nat) (dec : LineDec) : List (List Byte) :=
  let (k, w) := worstWord dec
  [it5 h, it1 k, [w.s0, w.s1, w.s2]]

/-- The flags, counts and events of a line outcome (Table 4.2), and the drip log. A retry reports no 0x0B02 or 0x0B03
and advances no count (R398). -/
def lineEffects (d : Die) (i rank h : Nat) (port : Port) (retry : Bool) (kind : DripKind) (rowFree : Bool)
    (dla bind : Option Nat) (dec : LineDec) (s : State) : State :=
  let s1 := noteLast d i rank (markOf s d i rank).isSome dec s
  match dec.outc with
  | .none => s1
  | .corrected => corrected d i rank h dec kind rowFree s1
  | .poison =>
    s1 |> setFlagSub F.CWU_STATUS.POISON_A F.CWU_STATUS.POISON_B d i
       |> onlyIf (port != .sru) (post d ⟨0x0B04, sevInfo, locSub d i, [it5 h, it1 (portNum port)], none, none⟩)
  | .address =>
    if retry then s1
    else s1 |> setFlagSub F.CWU_STATUS.ADDR_A F.CWU_STATUS.ADDR_B d i
            |> cntSub F.CWU_UE_COUNT.ADDR_A F.CWU_UE_COUNT.ADDR_B d i 1
            |> post d ⟨0x0B02, sevUncorrected, locSub d i, errItems h dec, dla, bind⟩
  | .uncorrectable =>
    if retry then s1
    else s1 |> setFlagSub F.CWU_STATUS.UE_A F.CWU_STATUS.UE_B d i
            |> cntSub F.CWU_UE_COUNT.UE_A F.CWU_UE_COUNT.UE_B d i 1
            |> post d ⟨0x0B03, sevUncorrected, locSub d i, errItems h dec, dla, bind⟩

/-! ### Writing a line of a region -/

/-- Write a plaintext line of a region at its home on a die: encrypted, stamped and submitted (Table 1.8). Nothing
happens below a failed tree node (R199) or where the line has no place. The requester's operation counts the copy as
accepted at once where nothing is submitted. -/
def writeLine (d : Die) (p : Port) (n a h dla : Nat) (l : LineData) (open_ : Bool) (w : Why) (s : State) : Bool × State :=
  match placeOf s h with
  | none => (false, s)
  | some (_, i, loc) =>
    if belowBad s d n dla then (false, s)
    else
      let c := sealLine s n a h l.line
      let s1 := stampMeta n a h c s
      (true, submit d (mkWrite p i loc h (classOf s d i p a) (hintOf p a open_) n dla c l.poison w) s1)

/-- A MAC failure that stands (R196). -/
def macFail (d : Die) (i n dla h : Nat) (s : State) : State :=
  s |> setFlag F.CIE_STATUS.MAC_FAIL d 0 |> cntF F.CIE_FAIL_COUNT.MAC d 0 1
    |> post d ⟨0x0801, sevUncorrected, locSub d i, [it1 n, it6 dla, it5 h], some dla, some (bindOf s (rgAttr s n))⟩

/-! ### Delivering a returned read -/

/-- The operation of a read, with the line of it. -/
def whyOp : Why → Option (Nat × Nat)
  | .op n k | .mirror n k _ => some (n, k)
  | .retry _ t => t
  | .scrub _ | .verify | .opw _ _ | .post | .wb | .wbPoison _ | .remap _ | .evac _ => none

/-- Whether a read is of the copy that answers for another die's. -/
def isMirror : Why → Bool
  | .mirror _ _ _ => true
  | .op _ _ | .retry _ _ | .scrub _ | .verify | .opw _ _ | .post | .wb | .wbPoison _ | .remap _ | .evac _ => false

/-- The line of a read goes to its operation: as ciphertext, or decrypted. -/
def deliverTo (n k : Nat) (o : OpSt) (h : Nat) (m : LineMeta) (c : Line) (poison : Bool) (s : State) : State :=
  opGot n k ⟨if opRaw o then c else openLine s o.region o.attr h m c, poison⟩ s

/-- A request and its result cross the Passage (R24). -/
def crossings (a b : Die) (s : State) : State := s |> signalDie a 0x0380 1 |> signalDie b 0x0380 1

/-- Read the other die's copy of a mirrored line for line k of an operation (R140, R129 to R132): the read crosses the Passage and its data
come back. Where that die has no copy to read, the answer is poison. `heal` is whether this die's copy failed. -/
def readOther (d : Die) (n k : Nat) (o : OpSt) (r : Req) (heal : Bool) (s : State) : State :=
  let e := otherDie d
  let h := flatHome s o.region e r.dla
  match placeOf s h with
  | some (_, i, loc) =>
    if unreachable s e ∨ belowBad s e o.region r.dla then opGot n k poisoned s
    else if let some key := metaNext s e o.region o.attr (rgLine s o.region r.dla) then
      askNode e key r.port o.region r.dla (.other d n k heal r) s
    else
      submit e (mkRead r.port i loc h (classOf s e i r.port o.attr) r.close o.region r.dla (metaOf s h) (.mirror n k heal)) (crossings d e s)
  | none => opGot n k poisoned s

/-- The metadata that a read of the other die's copy waited for has come. -/
def otherGo (d : Die) (n k : Nat) (heal : Bool) (r : Req) (s : State) : State :=
  match nget s.ops n with
  | some o => readOther d n k o r heal s
  | none => s

/-- Rewrite a failing copy with the other copy's data (R140); below a failed tree node, and where a later write of the line has replaced
both copies, it is not rewritten. -/
def healCopy (d : Die) (o : OpSt) (r : Req) (l : Line) (s : State) : State :=
  let h := flatHome s o.region d r.dla
  let newer := r.late || (newestWrite s (otherDie d) r.sub r.home).isSome
  s |> onlyIf (!newer) (fun t => (writeLine d r.port o.region o.attr h r.dla ⟨l, false⟩ true .post t).2)
    |> post d ⟨0x0406, sevCorrected, locDie d, [it1 o.region, it6 r.dla, it1 (dieNum d)], some r.dla, some (bindOf s o.attr)⟩

/-- A read that failed is answered with poison, the data as they were read, or from the other copy of a mirrored line (R99, R140). `c` is
none where nothing was read. -/
def failLine (d : Die) (r : Req) (c : Option Line) (s : State) : State :=
  match whyOp r.why with
  | none => s
  | some (n, k) =>
    match nget s.ops n with
    | none => s
    | some o =>
      if atMirror o.attr && !(opRaw o) && !(isMirror r.why) then readOther d n k o r true s
      else match c with
        | some x => deliverTo n k o r.home r.expect x true s
        | none => opGot n k poisoned s

/-- Ciphertext that has passed every check goes to its operation; from the other copy of a mirrored line, the failing copy is rewritten. -/
def passed (d : Die) (n k : Nat) (o : OpSt) (r : Req) (c : Line) (s : State) : State :=
  match r.why with
  | .mirror _ _ true => deliverTo n k o r.home r.expect c false (healCopy (otherDie d) o r (openLine s o.region o.attr r.home r.expect c) s)
  | _ => deliverTo n k o r.home r.expect c false s

/-- The second read of a line whose MAC check failed, which is made after the writes that the line waits for (R196). -/
def readAgain (d : Die) (n k : Nat) (r : Req) (s : State) : State :=
  submit d { r with why := (if isMirror r.why then r.why else .op n k), second := true, enc := none, late := false, reread := false,
                    capped := false, acted := false, cls := classOf s d r.sub r.port (rgAttr s r.region), expect := metaOf s r.home } s

/-- Deliver ciphertext that the CWU passed (R190, R196, R199). A mirrored line's first copy is not read again (R196). -/
def passLine (d : Die) (r : Req) (c : Line) (s : State) : State :=
  match whyOp r.why with
  | none => s
  | some (n, k) =>
    match nget s.ops n with
    | none => s
    | some o =>
      if opRaw o then opGot n k ⟨c, false⟩ s
      else
        let s := signalDie d 0x0880 1 s
        if atInteg o.attr = 0 then passed d n k o r c s
        else
          if belowBad s d o.region r.dla then failLine d r none s
          else if macOk s o.region o.attr r.home r.expect c then passed d n k o r c (onlyIf r.second (cntF F.CIE_FAIL_COUNT.MAC_RETRY d 0 1) s)
          else if r.second ∨ (atMirror o.attr ∧ isMirror r.why = false) then failLine d r none (macFail d r.sub o.region r.dla r.home s)
          else readAgain d n k r s

/-- A copy read of the SRU has its line, or nothing to copy (R117, R126). -/
def copyGot (d : Die) (r : Req) (l : Option LineData) (lost : Bool) (s : State) : State :=
  match r.why with
  | .remap k =>
    onSru d (fun u => { u with remapCopies := u.remapCopies.map (fun c => if c.sub = r.sub ∧ c.entry = k then { c with got := some l } else c) }) s
  | .evac k =>
    onSru d (fun u => { u with evac := u.evac.map (fun e =>
      if e.failing = r.sub ∧ e.rebuild = false ∧ r.loc / 4 = e.q then { e with left := e.left.filter (· != k), got := (match l with | some x => nset e.got k x | none => e.got), poisoned := e.poisoned + b2n lost } else e) }) s
  | _ => s

/-- Answer a read that needs no DRAM access (R129 to R132, R158). -/
def answerRead (d : Die) (r : Req) (x : NoDram) (s : State) : State :=
  match r.why, x with
  | .scrub _, _ => scrubEnded d r.sub s
  | .remap _, x | .evac _, x => copyGot d r (if x = .mirror then none else some ⟨0, x == .poison⟩) false s
  | _, .zeros => passLine d r 0 s
  | _, .poison => (match whyOp r.why with
    | some (n, k) => opGot n k poisoned s
    | none => s)
  | w, .mirror => (match whyOp w with
    | some (n, k) => (match nget s.ops n with
      | some o => if opRaw o || isMirror w then opGot n k poisoned s else readOther d n k o r false s
      | none => s)
    | none => s)

/-- Put a retry of a read into its subchannel's retry queue: class 3, hint CLOSE (R398). -/
def queueRetry (d : Die) (t : Nat) (r : Req) (s : State) : State :=
  let r1 := { r with seq := s.seq + 1, cls := 3, close := true, enterNs := s.nowNs, enc := none, late := false,
                     capped := false, why := .retry t (whyOp r.why) }
  onSub d r.sub (fun b => { b with retryq := b.retryq ++ [r1] }) { s with seq := s.seq + 1 }

/-- What Lantern does with the outcome of its read (R109 to R111). -/
def lanternDone (d : Die) (r : Req) (again : Bool) (dec : LineDec) (s : State) : State :=
  match dec.outc with
  | .none | .poison => scrubEnded d r.sub s
  | .corrected =>
    scrubEnded d r.sub (submit d { mkWrite .sru r.sub r.loc r.home r.cls true 0xFF 0 dec.line false .wb with late := r.late } s)
  | .address | .uncorrectable =>
    if again then
      scrubEnded d r.sub (scrubUe d r.sub r.home (outcNum dec.outc) (poisonWrite d r dec.line true s))
    else scrubSend d { r with why := .scrub true, enc := none, reread := false, capped := false, acted := false } s

/-- The drip log kind of a read. -/
def dripKindOf (r : Req) : DripKind :=
  match r.why with
  | .scrub _ => .lantern
  | .verify => .verify
  | .remap _ | .evac _ => .copy
  | .op _ _ | .mirror _ _ _ | .opw _ _ | .retry _ _ | .post | .wb | .wbPoison _ => .demand

/-- Whether a read is a retry of R398, or not. -/
def isRetry (r : Req) : Bool :=
  match r.why with
  | .retry _ _ => true
  | _ => false

/-- A failing demand read freezes its channel or joins the freeze (R394, R395). -/
def joinFreeze (d : Die) (r : Req) (dec : LineDec) (mirrored : Bool) (s : State) : State :=
  let cause := if dec.outc = .address then 1 else 0
  let f : FrzInfo := ⟨cause, portNum r.port, outcNum dec.outc, some r.sub, qRank s d (r.loc / 4), r.region, r.home, r.dla, dec.words⟩
  freezeChan d (r.sub / 2) f (some (if mirrored then { r with why := .post } else r)) s

/-- Whether the operation that a read serves is of a mirrored region. -/
def mirroredOp (s : State) (r : Req) : Bool :=
  match whyOp r.why with
  | some (n, _) => (match nget s.ops n with
    | some o => atMirror o.attr && !(opRaw o)
    | none => false)
  | none => false

/-- Whether a failing read is issued again once the channel is ACTIVE, for lock was being lost when its data came (R360). -/
def issueAgain (s : State) (d : Die) (r : Req) (dec : LineDec) : Bool :=
  (chan s d (r.sub / 2)).clockRec && !r.reread && (dec.outc == .uncorrectable || dec.outc == .address)

/-- A line read returns: decoded, recorded, and handed on by what it was for (R98, R99). -/
def readReturn (d : Die) (r : Req) (flips : Flips) (rowFree : Bool) (s : State) : State :=
  let i := r.sub
  let b := sub s d i
  let s0 := onSub d i (fun b => { b with returning := b.returning.filter (fun x => x.seq != r.seq) }) s
  if b.st = .retired then
    (match r.why with
     | .scrub _ => scrubEnded d i s0
     | _ => failLine d r none s0)
  else
    let rank := qRank s d (r.loc / 4)
    let stored := (r.enc.getD (cellAt b r.loc r.home)) ^^^ flips
    let dec := decodeLine r.home (markOf s d i rank) stored
    let hasDla := r.region < 64
    let s0 := s0 |> signalSub d i 0x0B80 1 |> onlyIf (dec.outc == .corrected) (signalSub d i 0x0B81 1)
    let s1 := lineEffects d i rank r.home r.port (isRetry r) (dripKindOf r) rowFree
      (if hasDla then some r.dla else none) (if hasDla then some (bindOf s (rgAttr s r.region)) else none) dec s0
    if issueAgain s d r dec then
      onSub d i (fun b => { b with rdq := { r with enc := none, reread := true, acted := false } :: b.rdq }) s1
    else match r.why with
    | .scrub g => lanternDone d r g dec s1
    | .verify => verifyClean d i r.home (cleanWords dec) s1
    | .remap _ | .evac _ => copyGot d r (some ⟨dec.line, outcPoison dec.outc⟩) (dec.outc == .uncorrectable || dec.outc == .address) s1
    | .retry t _ =>
      (match dec.outc with
       | .none | .corrected =>
         passLine d r dec.line
           (post d ⟨0x0912, sevCorrected, locSub d i, [it5 r.home, it1 t], none, none⟩ s1)
       | .poison => failLine d r (some dec.line) s1
       | .address | .uncorrectable =>
         if t < 2 then queueRetry d 2 r s1
         else demandPoisoned d r dec.line (failLine d r (some dec.line) s1))
    | .op _ _ | .mirror _ _ _ | .post =>
      (match dec.outc with
       | .none | .corrected => passLine d r dec.line s1
       | .poison => failLine d r (some dec.line) s1
       | .address | .uncorrectable =>
         if mirroredOp s1 r then joinFreeze d r dec true (failLine d r (some dec.line) s1) else joinFreeze d r dec false s1)
    | .opw _ _ | .wb | .wbPoison _ => s1

/-! ### The CWU's own commands -/

/-- CWU_ERASE_WRITE: for each subchannel and rank of the channel, a write of 1 to VALID asks for a mark on DEV; DEV is
writable while VALID is 0 (R101). What DEV holds after a refused DEV above 10 the spec does not say: it is left as it was (DESIGN CHOICE,
log entry 120). -/
def eraseWrite (d : Die) (c v : Nat) (s : State) : State :=
  each [(0, 0), (0, 1), (1, 0), (1, 1)] (fun (p : Nat × Nat) t =>
    let i := 2 * c + p.1
    let fd := eraseDevF i p.2
    let fv := eraseValidF i p.2
    let dev := fld v fd.lo fd.w
    if fld v fv.lo 1 = 1 then eraseRun d i p.2 dev 2 t
    else if markOf t d i p.2 = none then wf fd d c dev t else t) s

/-- CWU_ERASE_WRITE (R101). -/
def execCwuEraseWrite (d : Die) (chan : Nat) (value : Word) (s : State) : Host.Outcome State Fault Refusal :=
  .next (barWrite .CWU d (eraseWrite d chan value.toNat) s)

/-- The flip-mask of the CWU_INJ_MASK registers. -/
def injMask (s : State) (d : Die) (c : Nat) : BitVec 88 :=
  BitVec.ofNat 88 (rf s F.CWU_INJ_MASK0.MASK d c + rf s F.CWU_INJ_MASK1.MASK d c * 2 ^ 32 + fld (rf s F.CWU_INJ_MASK2.MASK d c) 0 24 * 2 ^ 64)

/-- Arm an injection with the settings of CWU_INJ_CTRL and the masks as they stand (R102). -/
def injArm (d : Die) (c : Nat) (s : State) : State :=
  let g := fun f => rf s f d c
  let word : WordInj := ⟨g F.CWU_INJ_CTRL.WORD,
    if g F.CWU_INJ_CTRL.FLIP_EN = 1 then some (injMask s d c) else none,
    if g F.CWU_INJ_CTRL.SKEW_EN = 1 then some (BitVec.ofNat 16 (g F.CWU_INJ_CTRL.SKEW)) else none⟩
  s |> onChan d c (fun x => { x with inj := some ⟨g F.CWU_INJ_CTRL.SUB, word, g F.CWU_INJ_CTRL.MATCH_EN == 1⟩ }) |> wf F.CWU_INJ_CTRL.ARMED d c 1

/-- CWU_INJ_ARM: CWU_INJ_CTRL is written with ARM = 1 (R102). -/
def execCwuInjArm (d : Die) (chan : Nat) (value : Word) (s : State) : Host.Outcome State Fault Refusal :=
  let v := value.toNat
  let put := fun (f : Fld) => wf f d chan (fld v f.lo f.w)
  .next (barWrite .CWU d (fun t => t |> put F.CWU_INJ_CTRL.SUB |> put F.CWU_INJ_CTRL.WORD |> put F.CWU_INJ_CTRL.FLIP_EN
    |> put F.CWU_INJ_CTRL.SKEW_EN |> put F.CWU_INJ_CTRL.MATCH_EN |> put F.CWU_INJ_CTRL.SKEW |> injArm d chan) s)

/-- Disarm an injection: DONE is left as it is (R104). -/
def injDisarm (d : Die) (c : Nat) (s : State) : State :=
  s |> onChan d c (fun x => { x with inj := none }) |> wf F.CWU_INJ_CTRL.ARMED d c 0

/-- CWU_INJ_DISARM (R104). -/
def execCwuInjDisarm (d : Die) (chan : Nat) (s : State) : Host.Outcome State Fault Refusal := .next (barWrite .CWU d (injDisarm d chan) s)

/-- Zero the count that a CWU_DEVCNT_SEL value selects. -/
def devcntClear (d : Die) (c v : Nat) (s : State) : State :=
  onSub d (2 * c + fld v 5 1) (fun b => { b with devcnt := nerase b.devcnt (devKey (fld v 4 1) (fld v 0 4)),
                                                 devSnap := nerase b.devSnap (devKey (fld v 4 1) (fld v 0 4)) }) s

/-- DEVCNT_CLEAR: CWU_DEVCNT_SEL is written with CLEAR = 1. -/
def execDevcntClear (d : Die) (chan : Nat) (value : Word) (s : State) : Host.Outcome State Fault Refusal :=
  let v := value.toNat
  .next (barWrite .CWU d (fun t => t |> wf F.CWU_DEVCNT_SEL.DEV d chan (fld v 0 4) |> wf F.CWU_DEVCNT_SEL.RANK d chan (fld v 4 1)
    |> wf F.CWU_DEVCNT_SEL.SUB d chan (fld v 5 1) |> devcntClear d chan v) s)

end Sys2Proof.Machine
end

