-- ==== Sys2Proof/Machine/Synth.lean ====
section
/-!
DEFINITION. Sys2Proof/Machine/Synth.lean: the clock synthesizers (chapter 15): their plans, stages and commits (R348 to R353),
the start of a relock (R355), the status registers, and the core clock's frequency.
-/

namespace Sys2Proof.Machine

/-- Synthesizer `m` of a die: 0 CKS-C, 1 CKS-M0, 2 CKS-M1, 3 CKS-A. -/
def synth (s : State) (d : Die) (m : Nat) : SynthSt := ngetD (die s d).cks m SynthSt.reset

/-- Change a synthesizer. -/
def onSynth (d : Die) (m : Nat) (f : SynthSt → SynthSt) : State → State :=
  onDie d (fun x => { x with cks := nmod x.cks m SynthSt.reset f })

/-- Whether a synthesizer is a CKS-M. -/
def isM (m : Nat) : Bool := m == 1 || m == 2

/-- The channels of a CKS-M (Table 15.1). -/
def synthChans (m : Nat) : List Nat := if m = 1 then [0, 1, 2] else if m = 2 then [3, 4, 5] else []

/-- The CKS-M of a channel. -/
def chanSynth (c : Nat) : Nat := 1 + c / 3

/-! ### The plan (R349 to R351) -/

/-- f_PFD in units of 50 MHz (R349); 3 acts as 0. -/
def pfdUnits (sel : Nat) : Nat := if sel = 1 then 4 else if sel = 2 then 1 else 2

/-- PFD_SEL as it acts. -/
def planPfd (s : State) (d : Die) (m : Nat) : Nat := let p := rf s F.CKS_PLAN.PFD_SEL d m; if p = 3 then 0 else p

/-- f_VCO in MHz that a CKS-M needs at a point: twice the CK of Table 2.3 (R350). -/
def vcoMhz (s : State) (d : Die) (m point : Nat) : Nat :=
  if point = 0 then 8800 - 800 * rf s F.CFE_POP.RATE_SEL d (3 * (m - 1)) else 6400

/-- N of a plan at a point (R350). -/
def planN (s : State) (d : Die) (m point : Nat) : Nat :=
  if isM m then vcoMhz s d m point / (50 * pfdUnits (planPfd s d m))
  else if point = 0 then rf s F.CKS_PLAN.N_S d m else rf s F.CKS_PLAN.N_T d m

/-- The register of output k. -/
def outReg (k : Nat) : RegName :=
  match k with
  | 0 => .CKS_OUT0 | 1 => .CKS_OUT1 | 2 => .CKS_OUT2 | 3 => .CKS_OUT3 | 4 => .CKS_OUT4 | _ => .CKS_OUT5

/-- The number of outputs of a synthesizer (Table 15.1). -/
def outCount (m : Nat) : Nat := if isM m then 6 else 2

/-- A divider field: 0 means 64. -/
def divOf (v : Nat) : Nat := if v = 0 then 64 else v

/-- Output k of a plan at a point: a channel in FALLBACK uses DIV_F (R350, R463). -/
def planOut (s : State) (d : Die) (m point k : Nat) : OutSt :=
  let v := rdReg s (outReg k) d m
  let x := chan s d (3 * (m - 1) + k / 2)
  let fb := isM m && (x.fallback || (point == 1 && x.tFallback))
  let div := if fb then fld v 16 6 else if point = 0 then fld v 0 6 else fld v 8 6
  ⟨divOf div, fld v 22 5, fld v 22 5, bitn v 31⟩

/-- The stage of a point from the plan. -/
def planStage (s : State) (d : Die) (m point mask : Nat) : CksStage :=
  ⟨point, planN s d m point, planPfd s d m, (List.range (outCount m)).map (planOut s d m point), mask⟩

/-- Whether every output of a synthesizer is in the mask. -/
def allOuts : Nat := 63

/-- The check of R349 that a plan fails, if any: 1 N, 2 f_VCO, 3 a divider, 4 a CKS-M's controller dividers. -/
def planFault (s : State) (d : Die) (m : Nat) : Option Nat :=
  let u := pfdUnits (planPfd s d m)
  let ns := [planN s d m 0, planN s d m 1]
  let vs := (List.range (outCount m)).map (fun k => rdReg s (outReg k) d m)
  let divs := fun (v : Nat) => [divOf (fld v 0 6), divOf (fld v 8 6)] ++ (if isM m then [divOf (fld v 16 6)] else [])
  if ns.any (fun n => n < 16 || 255 < n) then some 1
  else if ns.any (fun n => n * u * 50 < 6000 || 9600 < n * u * 50) then some 2
  else if vs.any (fun v => (divs v).any (fun x => x < 2)) then some 3
  else if isM m && (List.range 3).any (fun c => decide ((divs (vs.getD (2 * c + 1) 0)) ≠ (divs (vs.getD (2 * c) 0)).map (4 * ·))) then some 4
  else none

/-- The factory plan of a synthesizer (Table 15.2): CKS_PLAN and CKS_OUT values. -/
def factoryPlan (m : Nat) : Nat × List Nat :=
  let out := fun (ds dt df : Nat) => ds + dt * 2 ^ 8 + df * 2 ^ 16 + 2 ^ 31
  match m with
  | 0 => (72 + 72 * 256, [out 4 6 0, out 2 2 0, 0, 0, 0, 0])
  | 3 => (80 + 80 * 256, [out 40 40 0, out 40 40 0, 0, 0, 0, 0])
  | _ => (0, [out 2 2 3, out 8 8 12, out 2 2 3, out 8 8 12, out 2 2 3, out 8 8 12])

/-- Put the factory plan into a synthesizer's registers. -/
def setFactoryPlan (d : Die) (m : Nat) (s : State) : State :=
  let p := factoryPlan m
  each p.2.zipIdx (fun q t => wrReg (outReg q.2) d m q.1 t) (wrReg .CKS_PLAN d m p.1 s)

/-! ### Status -/

/-- CKS_STATUS and CKS_LIVE as the state of a synthesizer gives them. -/
def syncCks (d : Die) (m : Nat) (s : State) : State :=
  let y := synth s d m
  let locked := decide (y.phase = .locked) || decide (y.phase = .relocked) || (decide (y.phase = .quiesce) && !y.lost)
  let running := decide (y.phase = .locked) || decide (y.phase = .quiesce)
  let en := (y.outs.zipIdx.foldl (fun v q => v + b2n q.1.en * 2 ^ q.2) 0)
  s |> wf F.CKS_STATUS.LOCKED d m (b2n locked) |> wf F.CKS_STATUS.GATED d m (b2n (!running))
    |> wf F.CKS_STATUS.HOLDOVER d m (b2n (decide (y.phase = .quiesce) && y.lost))
    |> wf F.CKS_STATUS.BYPASS d m (b2n (!(isM m) && !running))
    |> wf F.CKS_STATUS.FAILED d m (b2n (decide (y.phase = .failed)))
    |> wf F.CKS_STATUS.SEARCH d m (match y.phase with | .search _ => 1 | _ => 0)
    |> wf F.CKS_LIVE.N d m y.n |> wf F.CKS_LIVE.PFD_SEL d m y.pfd |> wf F.CKS_LIVE.OUT_EN d m en

/-- Put a synthesizer into a phase. -/
def setPhase (d : Die) (m : Nat) (p : CksPhase) (s : State) : State := syncCks d m (onSynth d m (fun y => { y with phase := p }) s)

/-- The live point of a synthesizer. -/
def livePoint (s : State) (d : Die) (m : Nat) : Nat := rf s F.CKS_STATUS.POINT d m

/-! ### Relocks and commits -/

/-- The band memory slot of the live settings (R355). -/
def bandSlot (y : SynthSt) : Option (Nat × BandSt) := y.bands.find? (fun p => p.2.pfd == y.pfd && p.2.n == y.n)

/-- A relock begins: on a stored band, or with a full search (R355). -/
def startRelock (d : Die) (m : Nat) (s : State) : State :=
  match bandSlot (synth s d m) with
  | some _ => setPhase d m .stored (onSynth d m (fun y => { y with byStored := true }) s)
  | none => setPhase d m (.search 1) (onSynth d m (fun y => { y with byStored := false }) s)

/-- Put the channels of a CKS-M into CLOCK_RECOVERY (R359). -/
def recoverChans (d : Die) (m : Nat) (s : State) : State :=
  each (synthChans m) (fun c t => onChan d c (fun x => { x with clockRec := true, released := false }) t) s

/-- The outputs after a commit: the masked ones take the staged values; a delay that alone changes is stepped toward
(R352, Table 15.3). -/
def commitOuts (relock : Bool) (mask : Nat) (old new_ : List OutSt) : List OutSt :=
  new_.zipIdx.map (fun q =>
    let o := old.getD q.2 q.1
    if bitn mask q.2 then
      (if !relock ∧ o.div = q.1.div ∧ o.en = q.1.en then { o with want := q.1.want } else q.1)
    else o)

/-- A commit takes effect on a locked synthesizer (R352). -/
def applyStage (d : Die) (m : Nat) (st : CksStage) (s : State) : State :=
  let y := synth s d m
  let relock := decide (y.n ≠ st.n) || decide (y.pfd ≠ st.pfd)
  let s1 := s |> onSynth d m (fun y => { y with n := st.n, pfd := st.pfd, outs := commitOuts relock st.mask y.outs st.outs })
    |> wf F.CKS_STATUS.POINT d m st.point
  if relock then
    if isM m ∧ s.dev.mode ≠ .boot ∧ s.dev.mode ≠ .train then
      s1 |> onSynth d m (fun y => { y with sinceNs := s.nowNs }) |> recoverChans d m |> setPhase d m .quiesce
    else startRelock d m (onSynth d m (fun y => { y with sinceNs := s.nowNs }) s1)
  else syncCks d m s1

/-- Two commits that wait merge, the later values standing (R353). -/
def mergeStage (a : Option CksStage) (b : CksStage) : CksStage :=
  match a with
  | none => b
  | some x => { b with mask := x.mask ||| b.mask,
                       outs := b.outs.zipIdx.map (fun q => if bitn b.mask q.2 then q.1 else x.outs.getD q.2 q.1) }

/-- Commit a stage: at once, or at release where the synthesizer is relocking or gated (R353). -/
def commitStage (d : Die) (m : Nat) (st : CksStage) (s : State) : State :=
  match (synth s d m).phase with
  | .locked => applyStage d m st s
  | .failed => s
  | _ => onSynth d m (fun y => { y with pend := some (mergeStage y.pend st) }) s

/-- Stage a channel's dividers at the live point and commit its two outputs (R50). -/
def commitChan (d : Die) (c : Nat) (s : State) : State :=
  let m := chanSynth c
  commitStage d m (planStage s d m (livePoint s d m) (3 * 2 ^ (2 * (c % 3)))) s

/-- Whether a CKS-M and its channels have come to a point and serve at it. -/
def atPoint (s : State) (d : Die) (point m : Nat) : Bool :=
  let y := synth s d m
  decide (y.phase = .failed) ||
    (decide (y.phase = .locked) && y.pend.isNone && livePoint s d m == point && (synthChans m).all (fun c => !(chan s d c).clockRec))

/-- The next part of a die's change to or from THRIFT (R380): CKS-M0, then CKS-M1, and on leaving CKS-C last. -/
def thriftNext (d : Die) (s : State) : State :=
  let go := fun (point : Nat) (last : State → State) =>
    if atPoint s d point 1 = false then
      (if (synth s d 1).phase = .locked ∧ livePoint s d 1 ≠ point then commitStage d 1 (planStage s d 1 point allOuts) s else s)
    else if atPoint s d point 2 = false then
      (if (synth s d 2).phase = .locked ∧ livePoint s d 2 ≠ point then commitStage d 2 (planStage s d 2 point allOuts) s else s)
    else last s
  match s.dev.trans with
  | some .toThrift => go 1 id
  | some .fromThrift => go 0 (fun t => if livePoint t d 0 = 0 then t else commitStage d 0 (planStage t d 0 0 allOuts) t)
  | _ => s

/-- The same, as often as a part is done at once. -/
def thriftAdvance (d : Die) (s : State) : State := thriftNext d (thriftNext d (thriftNext d s))

/-! ### The core clock -/

/-- The core clock of a die in MHz: output 0 of CKS-C, or the 100 MHz bypass, or the 25 MHz auxiliary oscillator (R361, R362). -/
def coreMhz (s : State) (d : Die) : Nat :=
  let y := synth s d 0
  match y.phase with
  | .locked => y.n * pfdUnits y.pfd * 50 / (y.outs.getD 0 ⟨4, 0, 0, true⟩).div
  | .off => if s.dev.mode = .hold then 0 else if (die s d).refLost then 25 else 100
  | _ => if (die s d).refLost then 25 else 100

end Sys2Proof.Machine
end

