-- ==== Sys2Proof/Machine/Retrain.lean ====
section
/-!
DEFINITION. Sys2Proof/Machine/Retrain.lean: the start of a run-time retrain of a rank (R54 to R56, Table 2.8, Table 2.9).
-/

namespace Sys2Proof.Machine

/-- Whether a rank of a channel retrains. -/
def chanRetrains (s : State) (d : Die) (c : Nat) : Bool :=
  let a := sub s d (2 * c)
  let b := sub s d (2 * c + 1)
  a.r0.retrain.isSome || a.r1.retrain.isSome || b.r0.retrain.isSome || b.r1.retrain.isSome

/-- The larger of two kinds (Table 2.9). -/
def largerKind (a : RetrainKind) (b : Option RetrainKind) : RetrainKind :=
  match a, b with
  | .full, _ => .full
  | .quick, some .full => .full
  | .quick, _ => .quick

/-- The raw lines of the training row of a rank: row 0 of bank group 0, bank 0 (R56). -/
def trainingRow (s : State) (d : Die) (i r : Nat) : List Stored :=
  let q0 := rowFirstQ s d r 0 0 0
  (List.range 128).map (fun k =>
    let loc := 4 * q0 + k
    let b := sub s d i
    match nget b.cells loc with
    | some x => x
    | none => if uninit b loc then Config.undefinedCells (dieNum d * 2 ^ 40 + i * 2 ^ 32 + loc) else cellAt b loc (homeOf s d i loc))

/-- A rank enters RETRAIN: its rows are closed, its interval timer stops (R76), the training row is saved (R56), and write CRC is off in it
while it trains (R48). -/
def beginRetrain (d : Die) (i r : Nat) (k : RetrainKind) (s : State) : State :=
  s |> onChan d (i / 2) (fun c => { c with rowSave := some ⟨i, r, trainingRow s d i r⟩ })
    |> onSub d i (fun b => onRank r (fun x => { x with retrain := some k, retrainWanted := none, crcOn := false, leftNs := some (x.nextNs - s.nowNs) })
        { b with banks := b.banks.map (fun p => if p.1 / 32 = r then (p.1, { p.2 with row := none }) else p) })
    |> wf F.CFE_TRAIN_CTRL.BUSY d (i / 2) 1

/-- Whether a channel's state keeps a retrain from beginning: FROZEN, or CLOCK_RECOVERY before its outputs are released
(R359); a recovery goes on in a FROZEN channel (Table 15.6). -/
def retrainBarred (s : State) (d : Die) (c : Nat) : Bool :=
  let x := chan s d c
  (x.frozen.isSome && !x.clockRec) || (x.clockRec && !x.released)

/-- A trigger of Table 2.8: the rank retrains at once, or when the channel is ACTIVE and no other rank of it retrains
(R56, Table 2.9). -/
def wantRetrain (d : Die) (i r : Nat) (k : RetrainKind) (s : State) : State :=
  let x := rankOf (sub s d i) r
  let kind := largerKind k x.retrainWanted
  match x.retrain with
  | some cur => onSub d i (onRank r (fun x => { x with retrain := some (largerKind k (some cur)) })) s
  | none =>
    if retrainBarred s d (i / 2) ∨ chanRetrains s d (i / 2) ∨ x.selfRefresh then
      onSub d i (onRank r (fun x => { x with retrainWanted := some kind })) s
    else beginRetrain d i r kind s

/-- A channel's recovery is over: it returns to ACTIVE, and a change to or from THRIFT goes on (R359, R380). -/
def recovered (d : Die) (c : Nat) (s : State) : State :=
  if (chan s d c).clockRec ∧ (chan s d c).released then
    scrubPumpChan d c (thriftAdvance d (onChan d c (fun x => { x with clockRec := false, released := false }) s))
  else s

/-- Start the next retrain that waits on a channel. -/
def nextRetrain (d : Die) (c : Nat) (s : State) : State :=
  if retrainBarred s d c ∨ chanRetrains s d c then s
  else
    match [(2 * c, 0), (2 * c, 1), (2 * c + 1, 0), (2 * c + 1, 1)].find? (fun p =>
        let x := rankOf (sub s d p.1) p.2
        x.retrainWanted.isSome && !x.selfRefresh) with
    | some (i, r) => beginRetrain d i r ((rankOf (sub s d i) r).retrainWanted.getD .quick) s
    | none => recovered d c s

end Sys2Proof.Machine
end

