-- ==== Sys2Proof/Machine/Msc.lean ====
section
/-!
DEFINITION. Sys2Proof/Machine/Msc.lean: the memory scheduler's commands (chapter 3): acceptance from the MX-in crossing,
arbitration, refresh, the echo table and its mitigations, and the release of writes held by the init watermark (R159).
-/

namespace Sys2Proof.Machine

/-! ### Acceptance (R60, R61, R67) -/

/-- A copy read of the SRU has entered the read queue: from now on requests to its line or block wait (R117, R126). -/
def copyEntered (d : Die) (r : Req) (s : State) : State :=
  match r.why with
  | .remap k => onSru d (fun u => { u with remapCopies := u.remapCopies.map (fun c => if c.sub = r.sub ∧ c.entry = k then { c with entered := true } else c) }) s
  | .evac _ => onSru d (fun u => { u with evac := u.evac.map (fun e => { e with entered := true }) }) s
  | .op _ _ | .scrub _ | .verify | .retry _ _ | .opw _ _ | .post | .wb | .wbPoison _ | .mirror _ _ _ => s

/-- A read enters its read queue. -/
def enterRead (d : Die) (r : Req) (s : State) : State :=
  let loc := steer s d r.sub r.loc r.home
  onSub d r.sub (fun b => { b with rdq := b.rdq ++ [{ r with seq := s.seq + 1, loc := loc, enterNs := s.nowNs }] })
    { s with seq := s.seq + 1 } |> copyEntered d r

/-- Whether a request is a copy read of the SRU. -/
def isCopy (r : Req) : Bool :=
  match r.why with
  | .remap _ | .evac _ => true
  | .op _ _ | .scrub _ | .verify | .retry _ _ | .opw _ _ | .post | .wb | .wbPoison _ | .mirror _ _ _ => false

/-- Whether the copy of a remap or of an evacuation holds a request in MX-in: its line is being copied, its block is, or the whole subchannel
has been copied and its queues drain (R117, R126, R127). -/
def copyHolds (s : State) (d : Die) (r : Req) : Bool :=
  !(isCopy r) &&
    ((die s d).sru.remapCopies.any (fun c => c.entered && c.sub == r.sub &&
        (match nget (sub s d r.sub).remap c.entry with | some e => e.home == r.home | none => false)) ||
     (die s d).sru.evac.any (fun e => !e.rebuild && e.failing == r.sub &&
        ((e.entered && e.q == r.loc / 4) || decide (qTop s d - 8 ≤ e.q))))

/-- What becomes of the request at the front of a crossing: it waits, or it leaves with the state that follows. -/
def acceptReq (d : Die) (r : Req) (s : State) : Option State :=
  let b := sub s d r.sub
  if copyHolds s d r then none
  else if r.write then
    if fromRead r ∧ r.late then some (if r.why = .wb then writebackDropped d r.home s else s)
    else if b.st = .retired ∨ (die s d).sru.memoryLost ∨ fenced s d then some (writeAccepted r s)
    else if uninit b r.loc ∨ b.demandHeld.any (fun x => x.loc / 4 == r.loc / 4) then
      if demandUse b < 1024 ∨ (b.demandHeld.any (fun x => x.loc / 4 == r.loc / 4)) then
        some (onSub d r.sub (fun b => { b with demandHeld := b.demandHeld ++ [r] }) s)
      else none
    else if writeRoom s d r then some (enterWrite d r s) else none
  else if b.demandHeld.any (fun x => x.home == r.home) then none
  else match answerOf s d r.sub r.loc r.home with
    | some x =>
      some (answerRead d r x (onlyIf (x == .zeros && uninit b r.loc) (fillForRead d r.sub (r.loc / 4)) s))
    | none => if b.rdq.length < 64 then some (enterRead d r s) else none

/-- The request at the front of a channel's MX-in crossing enters its queue, when there is room (R61); in CLOCK_RECOVERY the crossing holds its
entries (R35, R359). -/
def mscAccept (d : Die) (c : Nat) (s : State) : State :=
  match (chan s d c).mxin with
  | [] => s
  | r :: rest =>
    if (chan s d c).clockRec then s
    else match acceptReq d r (onChan d c (fun x => { x with mxin := rest }) s) with
    | some t => t
    | none => s

/-- The fill writes a held write's block blank, the block enters the demand table, and the write proceeds behind the blank writes (R159); the
held writes of a subchannel go in the order in which they came. -/
def demandRelease (d : Die) (i : Nat) (s : State) : State :=
  let b := sub s d i
  if (chan s d (i / 2)).frozen.isSome ∨ s.dev.mode = .hold then s
  else match b.demandHeld with
    | [] => s
    | r :: rest =>
      let q := r.loc / 4
      let s1 := onSub d i (fun b => { b with demandHeld := rest }) s
      if uninit b r.loc = false then (if writeRoom s d r then enterWrite d r s1 else s)
      else if 1024 ≤ b.demand.length ∨ fillReady s d i q = false ∨ queueRoom s d i r.loc 5 = false then s
      else enterWrite d r (demandEnter d i q (fillBlock d i q s1))

/-! ### Arbitration (R62 to R67) -/

/-- The bank of a request. -/
def reqBank (s : State) (d : Die) (r : Req) : Nat := qBankKey s d (r.loc / 4)

/-- The next DDR5 command of a request by its bank: PRE, ACT, or RD or WR. -/
def nextCmd (s : State) (d : Die) (r : Req) : Cmd :=
  match (bankOf (sub s d r.sub) (reqBank s d r)).row with
  | some row => if row = qRowOf s d (r.loc / 4) then (if r.write then .wr else .rd) else .pre
  | none => .act

/-- Whether a request is a row hit. -/
def rowHit (s : State) (d : Die) (r : Req) : Bool := nextCmd s d r == .rd || nextCmd s d r == .wr

/-- Whether a rank's REF comes before anything that opens a row: that of a tick at eight owed, a forced one, and with POSTPONE = 0 every
one (R70, R72). -/
def refFirst (postpone : Bool) (x : RankSt) : Bool := decide (0 < x.due) || decide (0 < x.forced) || (!postpone && decide (0 < x.owed))

/-- POSTPONE of a channel. -/
def postpones (s : State) (d : Die) (c : Nat) : Bool := rfb s F.MSC_REF_CFG.POSTPONE d c

/-- Whether a rank takes no ACT yet: REFs to come first, or mode register 4 to be read (R70, R72, R77). -/
def actHeld (postpone : Bool) (x : RankSt) : Bool := refFirst postpone x || x.woke

/-- The queued requests of a subchannel. -/
def allQueued (b : SubSt) : List Req := b.rdq ++ b.wrq ++ b.retryq

/-- Whether an older write of a read's line is in the write queue or the replay buffer (R44, R66). -/
def readWaits (b : SubSt) (r : Req) : Bool :=
  (b.wrq ++ b.replay.map (·.req)).any (fun w => w.home == r.home && decide (w.seq < r.seq))

/-- Whether no rule of the chapter holds a request (R62); timing is the command's `ready`. A request at the age cap waits for a REF that
comes first even where its row is open (Table 3.5). -/
def notHeld (s : State) (d : Die) (r : Req) : Bool :=
  let b := sub s d r.sub
  let x := rankOf b (qRank s d (r.loc / 4))
  let k := reqBank s d r
  let bk := bankOf b k
  let cmd := nextCmd s d r
  x.retrain.isNone && !x.selfRefresh && !bk.held &&
    !(cmd == .act && (actHeld (postpones s d (r.sub / 2)) x || !bk.mitig.isEmpty)) &&
    !(r.capped && refFirst (postpones s d (r.sub / 2)) x) &&
    !((allQueued b).any (fun q => q.home == r.home && decide (q.seq < r.seq))) &&
    (if r.write then decide (b.replay.length < 32) && !b.replaying && b.isolating.isNone else !(readWaits b r)) &&
    !(cmd != .pre && (allQueued b).any (fun q => q.capped && decide (q.seq < r.seq) && decide (r.cls ≤ q.cls) && reqBank s d q == k))

/-- A candidate: a request with the class and age it competes with. -/
structure Cand where
  req : Req
  cls : Nat
  age : Nat
  deriving DecidableEq, Repr

/-- A request as a candidate on its own account. -/
def cand (r : Req) : Cand := ⟨r, r.cls, r.seq⟩

/-- A write that a waiting read matches competes with the read's class and age (R66). -/
def matchedWrites (b : SubSt) (reads : List Req) : List Cand :=
  b.wrq.filterMap (fun w => (reads.find? (fun r => r.home == w.home && decide (w.seq < r.seq))).map (fun r => ⟨w, r.cls, r.seq⟩))

/-- The oldest of a list of candidates. -/
def oldest : List Cand → Option Cand
  | [] => none
  | c :: cs => match oldest cs with
    | none => some c
    | some m => if m.age < c.age then some m else some c

/-- The choice of R62 among candidates. Whether a write that a read matches has reached the age cap, the spec does not say: its own waiting
counts, not the read's (DESIGN CHOICE, log entry 112). -/
def choose (s : State) (d : Die) (cs : List Cand) : Option Cand :=
  let p := cs.foldl (fun m c => max m c.cls) 0
  let cp := cs.filter (fun c => c.cls == p)
  let capped := cp.filter (fun c => c.req.capped)
  let hits := cp.filter (fun c => rowHit s d c.req)
  if !capped.isEmpty then oldest capped else if !hits.isEmpty then oldest hits else oldest cp

/-- The request that the scheduler picks on a subchannel (R62, R66, R67, R398). -/
def pick (s : State) (d : Die) (i : Nat) (ready : List Nat) : Option Req :=
  let b := sub s d i
  let c := chan s d (i / 2)
  if c.frozen.isSome || c.clockRec || b.cmdHeld then none
  else
    let ok := fun r => ready.contains r.seq && notHeld s d r
    let okc := fun (x : Cand) => ok x.req
    if !b.retryq.isEmpty then
      let rs := (b.retryq.map cand).filter okc
      (choose s d (if rs.isEmpty then (matchedWrites b b.retryq).filter okc else rs)).map (·.req)
    else
      let writes := (b.wrq.map cand).filter okc
      if b.writeMode then (choose s d writes).map (·.req)
      else
        let rs := (b.rdq.map cand).filter okc ++ (matchedWrites b b.rdq).filter okc
        (choose s d (if rs.isEmpty then writes else rs)).map (·.req)

/-! ### The echo table (R78) -/

/-- THRESH as it acts. -/
def echoThresh (s : State) (d : Die) (c : Nat) : Nat := clamp 256 16384 (rf s F.MSC_ECHO_CFG.THRESH d c)

/-- The entry that an ACT to row r uses (R78): its index, in a table of at most 16 entries. -/
def echoIndex (t : List (Nat × Nat)) (r : Nat) : Nat :=
  match t.findIdx? (fun e => e.1 == r) with
  | some k => k
  | none =>
    if t.length < 16 then t.length
    else t.findIdx (fun e => e.2 == t.foldl (fun m x => min m x.2) (t.headD (0, 0)).2)

/-- The table after an ACT to row r, and whether a mitigation of r is queued (R78). -/
def echoStep (thresh : Nat) (t : List (Nat × Nat)) (r : Nat) : List (Nat × Nat) × Bool :=
  let k := echoIndex t r
  let n := (if t.length ≤ k then 0 else (t.getD k (0, 0)).2) + 1
  let e := (r, if thresh ≤ n then 0 else n)
  (if t.length ≤ k then t ++ [e] else t.set k e, decide (thresh ≤ n))

/-- An ACT to a row of a bank (R78, R83). -/
def echoAct (s : State) (d : Die) (i k row : Nat) (x : BankSt) : BankSt :=
  if rfb s F.MSC_ECHO_CFG.EN d (i / 2) then
    let _ := k
    let (t, m) := echoStep (echoThresh s d (i / 2)) x.echo row
    { x with echo := t, mitig := if m then x.mitig ++ [row] else x.mitig }
  else x

/-! ### Issuing a command -/

/-- Remove a request from the queues of a subchannel. -/
def dropReq (seq : Nat) (b : SubSt) : SubSt :=
  { b with rdq := b.rdq.filter (fun r => r.seq != seq), wrq := b.wrq.filter (fun r => r.seq != seq),
           retryq := b.retryq.filter (fun r => r.seq != seq) }

/-- Leave write mode where the write queue has fallen to WR_LO (R67). -/
def exitDrain (s : State) (d : Die) (b : SubSt) (i : Nat) : SubSt :=
  if b.writeMode ∧ b.wrq.length ≤ wrLo s d (i / 2) then { b with writeMode := false } else b

/-- Mark a request for which a PRE or ACT has been issued. -/
def markActed (seq : Nat) (q : List Req) : List Req := q.map (fun (r : Req) => if r.seq = seq then { r with acted := true } else r)

/-- The same in every queue of a subchannel. -/
def actedSub (seq : Nat) (b : SubSt) : SubSt :=
  { b with rdq := markActed seq b.rdq, wrq := markActed seq b.wrq, retryq := markActed seq b.retryq }

/-- The effect of a request's next command on the banks and queues; a command not driven for a parity failure leaves the
request in its queue (R41, R42). -/
def issueCmd (d : Die) (r : Req) (driven : Bool) (s : State) : State :=
  let i := r.sub
  let k := reqBank s d r
  let row := qRowOf s d (r.loc / 4)
  match nextCmd s d r with
  | .pre => onSub d i (fun b => onBank k (fun x => { x with row := none }) (actedSub r.seq b)) s
  | .act => onSub d i (fun b => onBank k (fun x => echoAct s d i k row { x with row := some row }) (actedSub r.seq b)) s
  | .rd =>
    if driven then
      onSub d i (fun b =>
        let b1 := dropReq r.seq b
        onBank k (fun x => { x with row := if r.close then none else x.row })
          { b1 with returning := b1.returning ++ [{ r with enc := some (cellAt b r.loc r.home) }] }) s
    else s
  | _ =>
    if driven then
      onSub d i (fun b =>
        let b1 := exitDrain s d (dropReq r.seq b) i
        onBank k (fun x => { x with row := if r.close then none else x.row })
          { b1 with replay := b1.replay ++ [⟨r, 0, true⟩], lastWrNs := s.nowNs }) s
    else s

/-- Log a request's next command. -/
def logReq (d : Die) (r : Req) (driven : Bool) (s : State) : State :=
  let q := r.loc / 4
  let k := nextCmd s d r
  let x := match k with
    | .act => qRowOf s d q
    | .rd | .wr => qCol q (r.loc % 4)
    | _ => 0
  logCmd d k r.sub (qRank s d q) (qBg q) (qBank q) x (!driven) s

/-- A command fails its parity check (R41): it is not driven, later commands are held, the channel freezes, and the
failure counts toward permanence (R399). -/
def caParity (d : Die) (r : Req) (s : State) : State :=
  let i := r.sub
  let rank := qRank s d (r.loc / 4)
  let k := cmdNum (nextCmd s d r)
  s |> logReq d r false |> issueCmd d r false
    |> onSub d i (fun b => { b with cmdHeld := true })
    |> setFlagSub F.CFE_ERR_STATUS.CAPAR_A F.CFE_ERR_STATUS.CAPAR_B d i
    |> cntSub F.CFE_CAPAR_COUNT.COUNT_A F.CFE_CAPAR_COUNT.COUNT_B d i 1
    |> post d ⟨0x0A01, sevUncorrected, locSub d i, [it1 rank, it1 k], none, none⟩
    |> commandError d i 2 rank |> countFailure d i rank

/-- The signals of a request's next command (Table 18.1). -/
def issueSignals (d : Die) (r : Req) (k : Cmd) (s : State) : State :=
  match k with
  | .act => signalSub d r.sub 0x0983 1 s
  | .rd => onlyIf (!r.acted) (signalSub d r.sub 0x0982 1) (signalSub d r.sub 0x0980 1 s)
  | .wr => onlyIf (!r.acted) (signalSub d r.sub 0x0982 1) (signalSub d r.sub 0x0981 1 s)
  | _ => s

/-- The scheduler issues the next command of the request it picks (R62). -/
def commandIssue (d : Die) (i : Nat) (ready : List Nat) (parityBad : Bool) (s : State) : State :=
  match pick s d i ready with
  | none => s
  | some r => if parityBad then caParity d r s else issueSignals d r (nextCmd s d r) (issueCmd d r true (logReq d r true s))

/-- Mark a request of a queue as having reached the age cap. -/
def capReq (seq : Nat) (q : List Req) : List Req := q.map (fun r => if r.seq = seq then { r with capped := true } else r)

/-- AGE_CAP_REACHED (R63). -/
def execAgeCapReached (d : Die) (sub : Nat) (seq : Nat) (s : State) : Host.Outcome State Fault Refusal :=
  .next (onSub d sub (fun b => { b with rdq := capReq seq b.rdq, wrq := capReq seq b.wrq, retryq := capReq seq b.retryq }) s)

/-! ### Mitigations (R80 to R83) -/

/-- The SRC fields of MSC_ADJ_MAP0 to MSC_ADJ_MAP2. -/
def adjFields (s : State) (d : Die) (c : Nat) : List Nat :=
  [RegName.MSC_ADJ_MAP0, RegName.MSC_ADJ_MAP1, RegName.MSC_ADJ_MAP2].flatMap
    (fun r => (List.range 6).map (fun k => fld (rdReg s r d c) (5 * k) 5))

/-- Whether the SRC fields are a permutation of 0 to 17 (R82). -/
def adjPerm (s : State) (d : Die) (c : Nat) : Bool := (List.range 18).all (fun k => (adjFields s d c).contains k)

/-- Whether the transform of the registers is in use: not where it was refused at TRAIN entry (R82). -/
def adjOk (s : State) (d : Die) (c : Nat) : Bool := adjPerm s d c && !(chan s d c).adjBad

/-- TRAIN entry judges the map of a channel (R82). -/
def adjCheck (d : Die) (c : Nat) (s : State) : State :=
  if adjPerm s d c then s
  else
    s |> onChan d c (fun x => { x with adjBad := true })
      |> post d ⟨0x0906, sevInfo, locChan d c, (adjFields s d c).map it1, none, none⟩

/-- Training has read whether the DRAM supports directed refresh management: without it METHOD = 1 acts as 0 (R82). -/
def drfmCheck (d : Die) (i : Nat) (drfm : Bool) (s : State) : State :=
  let c := i / 2
  if drfm then s
  else
    let tell := rfb s F.MSC_ECHO_CFG.METHOD d c && !(chan s d c).echoFallback
    s |> onChan d c (fun x => { x with noDrfm := true, echoFallback := x.echoFallback || tell })
      |> onlyIf tell (post d ⟨0x0905, sevInfo, locSub d i, [], none, none⟩)

/-- The permutation in use: the identity where the fields are none (R82). -/
def adjSrc (s : State) (d : Die) (c : Nat) : List Nat := if adjOk s d c then adjFields s d c else List.range 18

/-- The physical row of a logical row (R81). -/
def physRow (s : State) (d : Die) (c r : Nat) : Nat :=
  let x := if adjOk s d c then rf s F.MSC_ADJ_XOR.XOR d c else 0
  ((adjSrc s d c).zipIdx.foldl (fun v p => v + b2n (bitn r p.1 != bitn x p.2) * 2 ^ p.2) 0)

/-- The logical row of a physical row: the inverse (R81). -/
def logRow (s : State) (d : Die) (c p : Nat) : Nat :=
  let x := if adjOk s d c then rf s F.MSC_ADJ_XOR.XOR d c else 0
  ((adjSrc s d c).zipIdx.foldl (fun v q => v + b2n (bitn p q.2 != bitn x q.2) * 2 ^ q.1) 0)

/-- The victims of an aggressor row: its physical neighbours ±1, and ±2 with NEIGH2, that exist (R80, R81). -/
def victims (s : State) (d : Die) (c row : Nat) : List Nat :=
  let p := physRow s d c row
  let near := (if 0 < p then [p - 1] else []) ++ [p + 1]
  let far := if rfb s F.MSC_ECHO_CFG.NEIGH2 d c then (if 1 < p then [p - 2] else []) ++ [p + 2] else []
  ((near ++ far).filter (fun q => decide (q < 2 ^ 18))).map (logRow s d c) |>.filter (fun r => decide (r < popRows (popDensity s d)))

/-- Whether a mitigation of a channel uses directed refresh management (R80, R82). -/
def directed (s : State) (d : Die) (c : Nat) : Bool := rfb s F.MSC_ECHO_CFG.METHOD d c && !(chan s d c).noDrfm

/-- Whether a rank's bank takes no mitigation now: a REF that comes first (Table 3.5), a mode register 4 that is to be read before the
first ACT (R77), a rank that sleeps, retrains or is absent, and a channel whose commands are held. -/
def mitigHeld (s : State) (d : Die) (i rank : Nat) : Bool :=
  let b := sub s d i
  let x := rankOf b rank
  !(rankThere s d rank) || refFirst (postpones s d (i / 2)) x || (x.woke && !(directed s d (i / 2))) || x.selfRefresh ||
    x.retrain.isSome || (chan s d (i / 2)).frozen.isSome || b.cmdHeld

/-- Carry out the oldest mitigation of a bank (R80, Table 3.3): the bank is precharged, which samples the aggressor where the method is
directed; then its victims' rows are opened and closed, or the one directed command goes out. -/
def neighbourRefresh (d : Die) (i rank bank : Nat) (s : State) : State :=
  let k := rank * 32 + bank
  let b := sub s d i
  let bk := bankOf b k
  let c := i / 2
  match bk.mitig with
  | [] => s
  | row :: rest =>
    if mitigHeld s d i rank then s
    else
      let directed := directed s d c
      let vs := if directed then [] else victims s d c row
      let pre := logCmd d .pre i rank (bank / 4) (bank % 4) 0 false
      let done := bk.mitigDone + 1
      let heavy := decide (64 < done) && !bk.heavyPosted
      let s1 := onSub d i (onBank k (fun x =>
        vs.foldl (fun y v => echoAct s d i k v y) { x with row := none, mitig := rest, mitigDone := done, heavyPosted := x.heavyPosted || heavy })) (pre s)
      let s2 := if directed then logCmd d .drfm i rank (bank / 4) (bank % 4) 0 false s1
        else each vs (fun v t => signalSub d i 0x0983 1 (pre (logCmd d .act i rank (bank / 4) (bank % 4) v false t))) s1
      s2 |> cntSub F.MSC_ECHO_COUNT.COUNT_A F.MSC_ECHO_COUNT.COUNT_B d i 1
         |> onlyIf heavy (post d ⟨0x0904, sevInfo, locSub d i, [it1 rank, it1 bank, it4 row], none, none⟩)
         |> drfmCheck d i (!(chan s d c).noDrfm)

/-- NEIGHBOUR_REFRESH (R80): `bank` is 4 · bank group + bank. -/
def execNeighbourRefresh (d : Die) (sub : Nat) (rank : Nat) (bank : Nat) (_method : Unit) (s : State) : Host.Outcome State Fault Refusal :=
  .next (neighbourRefresh d sub rank bank s)

/-- Clear the echo tables of a rank; queued mitigations stand (R79, Table 3.5). -/
def clearEcho (r : Nat) (b : SubSt) : SubSt :=
  { b with banks := b.banks.map (fun p => if p.1 / 32 = r then (p.1, { p.2 with echo := [], mitigDone := 0, heavyPosted := false }) else p) }

/-- ECHO_CLEAR: 16,384 ticks have passed since the last (R79). -/
def execEchoClear (d : Die) (sub : Nat) (rank : Nat) (s : State) : Host.Outcome State Fault Refusal :=
  .next (if 16384 ≤ (rankOf (Machine.sub s d sub) rank).ticks then
      onSub d sub (fun b => onRank rank (fun x => { x with ticks := x.ticks - 16384 }) (clearEcho rank b)) s
    else s)

/-! ### Refresh (R69 to R77) -/

/-- A rank's interval timer ticks (R69, R70): with eight owed the tick's REF is due at once and the owed count stays. -/
def RankSt.tick (now : Nat) (x : RankSt) : RankSt :=
  let y := { x with ticks := x.ticks + 1, nextNs := now + x.interval }
  if 8 ≤ x.owed then { y with due := x.due + 1 } else { y with owed := x.owed + 1 }

/-- REF_TICK: the timer is stopped in self-refresh and RETRAIN (R76, R77), and an absent rank has none (R36). -/
def execRefTick (d : Die) (sub : Nat) (rank : Nat) (s : State) : Host.Outcome State Fault Refusal :=
  .next (let x := rankOf (Machine.sub s d sub) rank
    if x.selfRefresh ∨ x.retrain.isSome ∨ rankThere s d rank = false then s
    else onSub d sub (onRank rank (RankSt.tick s.nowNs)) s)

/-- Whether a request to a rank waits in the queues of its subchannel (R70). -/
def rankWaited (s : State) (d : Die) (i r : Nat) : Bool := (allQueued (sub s d i)).any (fun q => qRank s d (q.loc / 4) == r)

/-- A rank after the REF that may go to it now: a forced one, a due one, or an owed one that no request waits for or that POSTPONE = 0
puts first (R70, R72); none where none may. -/
def RankSt.pay (postpone waited : Bool) (x : RankSt) : Option RankSt :=
  if 0 < x.forced then some { x with forced := x.forced - 1 }
  else if 0 < x.due then some { x with due := x.due - 1 }
  else if 0 < x.owed ∧ (waited = false ∨ postpone = false) then some { x with owed := x.owed - 1 }
  else none

/-- A REF goes to a rank (R396, Table 18.1). -/
def sendRef (d : Die) (i r : Nat) (s : State) : State := s |> logCmd d .ref i r 0 0 0 false |> signalSub d i 0x0984 1

/-- The precharge-all of a rank, logged. -/
def sendPrea (d : Die) (i r : Nat) : State → State := logCmd d .prea i r 0 0 0 false

/-- The precharge-all that goes before a REF: of a rank with an open row (R70), and of every rank of the subchannel before the first REF
after a command error (R75). -/
def preRef (d : Die) (i r : Nat) (s : State) : State :=
  let b := sub s d i
  if b.preaDue then each (ranksOf s d) (sendPrea d i) s |> onSub d i (fun b => { b with preaDue := false, banks := b.banks.map (fun p => (p.1, { p.2 with row := none })) })
  else
    s |> onlyIf (b.banks.any (fun p => p.1 / 32 == r && p.2.row.isSome)) (sendPrea d i r)
      |> onSub d i (fun b => { b with banks := b.banks.map (fun p => if p.1 / 32 = r then (p.1, { p.2 with row := none }) else p) })

/-- Issue one REF to a rank (R70); to a rank that retrains the CFE issues it, between steps, and nothing is paid (R55, R76). -/
def refIssue (d : Die) (i r : Nat) (s : State) : State :=
  let x := rankOf (sub s d i) r
  if x.selfRefresh ∨ rankThere s d r = false then s
  else if x.retrain.isSome then sendRef d i r s
  else match x.pay (postpones s d (i / 2)) (rankWaited s d i r) with
    | none => s
    | some y => s |> preRef d i r |> sendRef d i r |> onSub d i (onRank r (fun _ => y))

/-- REF_ISSUE (R70). -/
def execRefIssue (d : Die) (sub : Nat) (rank : Nat) (s : State) : Host.Outcome State Fault Refusal := .next (refIssue d sub rank s)

/-- A rank after a reading that makes it hot (R72, R74). -/
def RankSt.heat (now : Nat) (x : RankSt) : RankSt :=
  { x with hot := true, owed := min 8 (2 * x.owed), forced := x.forced + (2 * x.owed - 8), nextNs := now + (x.nextNs - now) / 2 }

/-- A rank after a reading that makes it cool (R73, R74). -/
def RankSt.cool (now : Nat) (x : RankSt) : RankSt :=
  { x with hot := false, owed := (x.owed + x.forced + 1) / 2, forced := 0, nextNs := now + (x.nextNs - now) * 2 }

/-- The temperature in a rank's point record differs from a reading by TEMP_DELTA or more (Table 2.8). -/
def tempDrift (s : State) (d : Die) (i r : Nat) (temp : Int) : Bool :=
  let dl := rf s F.CFE_DRIFT_CFG.TEMP_DELTA d (i / 2)
  match trecAt s d i r (pointInUse s d (i / 2)) with
  | some rec_ => decide (0 < dl) && decide (dl ≤ (temp - unsbyte (rec_.getD 2 0).toNat).natAbs)
  | none => false

/-- Mode register 4 of a rank is read: `temp` is the highest value of its devices (R71 to R74, R76, R77). -/
def mr4Poll (d : Die) (i r : Nat) (temp : Int) (s : State) : State :=
  let x := rankOf (sub s d i) r
  if x.retrain.isSome then onSub d i (onRank r (fun x => { x with mr4Wanted := true })) s
  else if x.selfRefresh ∨ rankThere s d r = false then s
  else
    let s0 := s |> logCmd d .mrr i r 0 0 0 false |> onSub d i (onRank r (fun x => { x with temp := temp, mr4Wanted := false, woke := false }))
    let full := fun (hot : Bool) (t : State) =>
      if x.woke then onSub d i (onRank r (fun x => { x with hot := hot, nextNs := s.nowNs + RankSt.interval { x with hot := hot } })) t else t
    let s1 :=
      if 85 < temp ∧ x.hot = false then
        let y := (rankOf (sub s0 d i) r).heat s.nowNs
        let n := y.forced - x.forced
        s0 |> onSub d i (onRank r (fun _ => y)) |> full true
           |> post d ⟨0x0901, sevInfo, locSub d i, [it1 r, it1 (sbyte temp), it4 y.owed], none, none⟩
           |> onlyIf (decide (0 < n)) (post d ⟨0x0902, sevInfo, locSub d i, [it1 r, it4 n], none, none⟩)
      else if temp ≤ 83 ∧ x.hot = true then
        let y := (rankOf (sub s0 d i) r).cool s.nowNs
        s0 |> onSub d i (onRank r (fun _ => y)) |> full false
           |> post d ⟨0x0903, sevInfo, locSub d i, [it1 r, it1 (sbyte temp), it4 y.owed], none, none⟩
      else s0
    if tempDrift s1 d i r temp then wantRetrain d i r .quick s1 else s1

/-- MR4_POLL (R71). -/
def execMr4Poll (d : Die) (sub : Nat) (rank : Nat) (temp : Int) (s : State) : Host.Outcome State Fault Refusal :=
  .next (mr4Poll d sub rank temp s)

end Sys2Proof.Machine
end

