-- ==== Sys2Proof/Machine/Cfe.lean ====
section
/-!
DEFINITION. Sys2Proof/Machine/Cfe.lean: the channel front end's commands (chapter 2): write CRC replay (R43 to R47),
training and retraining (R48 to R57, R463), training records (R53), and the thaw of a channel (R397, R42, R46).
-/

namespace Sys2Proof.Machine

/-! ### Write CRC -/

/-- Change the replay buffer of a subchannel. -/
def onReplay (d : Die) (i : Nat) (f : List Replay → List Replay) : State → State := onSub d i (fun b => { b with replay := f b.replay })

/-- A write burst has reached the array. -/
def toArray (d : Die) (i : Nat) (r : Req) (s : State) : State :=
  onSub d i (fun b => { b with cells := nset b.cells r.loc (r.enc.getD (encodeLine r.home r.line r.poison none)) }) s

/-- MAX_RETRY. -/
def maxRetry (s : State) (d : Die) (c : Nat) : Nat := rf s F.CFE_WCRC_CFG.MAX_RETRY d c

/-- The next write of an isolation, or its end (R46). -/
def nextIsolated (b : SubSt) : SubSt := { b with isolating := if b.replay.isEmpty then none else some 0 }

/-- ALERT_N while the head of the replay buffer is isolated: one more try, or the line goes out once more as poison without write CRC, and
counts toward permanence (R46, R399). The first lone issue is one of the up to MAX_RETRY further tries, and the poison goes onto the burst as
it was first encoded, with the injection that it took then and no other (DESIGN CHOICE, log entry 111). -/
def alertIsolated (d : Die) (i tries : Nat) (s : State) : State :=
  match (sub s d i).replay with
  | [] => onSub d i nextIsolated s
  | e :: rest =>
    if tries + 1 < maxRetry s d (i / 2) then onSub d i (fun b => { b with isolating := some (tries + 1) }) s
    else
      let r := { e.req with poison := true, enc := some ((e.req.enc.getD (encodeLine e.req.home e.req.line false none)) ^^^
        (encodeLine e.req.home e.req.line e.req.poison none ^^^ encodeLine e.req.home e.req.line true none)) }
      s |> toArray d i r |> onSub d i (fun b => nextIsolated { b with replay := rest })
        |> countFailure d i (qRank s d (e.req.loc / 4))

/-- The channel's ranks are to have mode register 4 read (R47). -/
def wantMr4 (d : Die) (i : Nat) : State → State :=
  onSub d i (fun b => { b with r0 := { b.r0 with mr4Wanted := true }, r1 := { b.r1 with mr4Wanted := true } })

/-- Whether ALERT_N can only come from a rank that trains, whose reports are ignored (R48): in boot-time training, and at run time while a
rank of the subchannel retrains and no write has its window open (Table 2.9). -/
def alertIgnored (s : State) (b : SubSt) : Bool :=
  s.dev.mode == .train || ((b.r0.retrain.isSome || b.r1.retrain.isSome) && !(b.replay.any (·.open_)))

/-- ALERT_N is asserted on a subchannel (R45 to R47). 0x0A03 comes before the isolation has written any line as poison: it gives the homes of
the writes whose retries are spent (DESIGN CHOICE, log entry 111). -/
def alertN (d : Die) (i : Nat) (s : State) : State :=
  let s0 := wantMr4 d i s
  let b := sub s d i
  let c := i / 2
  if alertIgnored s b then s
  else match b.isolating with
  | some t => alertIsolated d i t s0
  | none =>
    let open_ := b.replay.filter (·.open_)
    if open_.isEmpty then
      s0 |> setFlagSub F.CFE_ERR_STATUS.ALERT_UNEXPL_A F.CFE_ERR_STATUS.ALERT_UNEXPL_B d i
         |> post d ⟨0x0A04, sevInfo, locSub d i, [it4 (s.nowNs - b.lastWrNs)], none, none⟩
    else
      let spent := open_.filter (fun e => decide (maxRetry s d c ≤ e.retries))
      if spent.isEmpty then
        s0 |> onReplay d i (fun q => q.map (fun e => if e.open_ then { e with retries := e.retries + 1 } else e))
           |> onSub d i (fun b => { b with replaying := true })
           |> setFlagSub F.CFE_ERR_STATUS.WCRC_RETRY_A F.CFE_ERR_STATUS.WCRC_RETRY_B d i
           |> cntSub F.CFE_WCRC_COUNT.COUNT_A F.CFE_WCRC_COUNT.COUNT_B d i 1
           |> post d ⟨0x0A02, sevCorrected, locSub d i, [it4 open_.length], none, none⟩
      else
        s0 |> setFlagSub F.CFE_ERR_STATUS.WCRC_EXH_A F.CFE_ERR_STATUS.WCRC_EXH_B d i
           |> post d ⟨0x0A03, sevUncorrected, locSub d i, (spent.take 4).map (fun e => it5 e.req.home), none, none⟩
           |> commandError d i 3 (qRank s d ((spent.headD ⟨mkRead .sru i 0 0 0 true 0 0 LineMeta.blank .post, 0, true⟩).req.loc / 4))

/-- A write's window passes without ALERT_N: the write leaves the replay buffer (R43). An isolated write ends alone
(R46); writes of one line leave in order. -/
def windowClose (d : Die) (i seq : Nat) (s : State) : State :=
  let b := sub s d i
  match b.replay.find? (fun e => e.req.seq == seq) with
  | none => s
  | some e =>
    let first := match b.isolating with
      | some _ => (b.replay.head?.map (fun (x : Replay) => x.req.seq)) == some seq
      | none => !(b.replay.any (fun (x : Replay) => x.req.home == e.req.home && decide (x.req.seq < seq)))
    if first then
      s |> toArray d i e.req
        |> onSub d i (fun b =>
             let q := b.replay.filter (fun (x : Replay) => x.req.seq != seq)
             let b1 := { b with replay := q, replaying := b.replaying && q.any (fun (x : Replay) => decide (0 < x.retries)) }
             if b.isolating.isSome then nextIsolated b1 else b1)
    else s

/-- REPLAY_WINDOW_CLOSE (R43). -/
def execReplayWindowClose (d : Die) (sub : Nat) (seq : Nat) (s : State) : Host.Outcome State Fault Refusal :=
  .next (windowClose d sub seq s)

/-! ### Training -/

/-- The rate code of Table 2.6 for an operating point of a channel. -/
def rateCode (s : State) (d : Die) (c point : Nat) : Nat :=
  let x := chan s d c
  if point = 0 then (if x.fallback then 2 else 0) else (if x.fallback || x.tFallback then 3 else 1)

/-! #### The pass criteria (Table 2.4, CFE_TRAIN_CRIT) -/

/-- The criteria of a channel: DQ width, CA width, DQ height, CA height. -/
structure Crit where
  dqW : Nat
  caW : Nat
  dqH : Nat
  caH : Nat
  deriving DecidableEq, Repr

/-- The criteria that a channel's CFE_TRAIN_CRIT sets. -/
def critOf (s : State) (d : Die) (c : Nat) : Crit :=
  ⟨rf s F.CFE_TRAIN_CRIT.DQ_WIDTH d c, rf s F.CFE_TRAIN_CRIT.CA_WIDTH d c, rf s F.CFE_TRAIN_CRIT.DQ_HEIGHT d c, rf s F.CFE_TRAIN_CRIT.CA_HEIGHT d c⟩

/-- Step 1: whether the calibration codes lie inside 8 to 56. -/
def zqOk (r : TrainResult) : Bool := [r.zqPu, r.zqPd].all (fun v => decide (8 ≤ v) && decide (v ≤ 56))

/-- The first step among 2, 3 and 9 (CA) that fails. -/
def caStep (k : Crit) (r : TrainResult) : Option Nat :=
  if r.ca < k.caW then some 2 else if r.cs < k.caW then some 3 else if r.caW < k.caW ∨ r.caH < k.caH then some 9 else none

/-- The first step among 4 to 7, 9 (DQ) and 10 that a device fails. -/
def devStep (k : Crit) (x : DevTrain) : Option Nat :=
  if x.edge.all (fun e => decide (256 < e.natAbs)) then some 4
  else if x.gate.getD 0 < 16 then some 5
  else if x.read < k.dqW then some 6
  else if x.write < k.dqW then some 7
  else if x.eyeW < k.dqW ∨ x.eyeH < k.dqH then some 9
  else if x.reRead < k.dqW ∨ x.reWrite < k.dqW then some 10 else none

/-- What a rank's sequence failed by the criteria: whether calibration failed (a quick retrain does not repeat step 1, Table 2.8), the CA
step that failed, and the devices that failed with their steps. -/
structure Verdicts where
  zq : Bool
  ca : Option Nat
  devs : List (Nat × Nat)
  deriving DecidableEq, Repr

/-- Judge what a sequence measured (Table 2.4). -/
def judge (k : Crit) (quick : Bool) (r : TrainResult) : Verdicts :=
  ⟨!quick && !(zqOk r), caStep k r, (r.devs.zipIdx.filterMap (fun p => (devStep k p.1).map (fun n => (p.2, n))))⟩

/-- The least margins of a record: DQ width and height, CA width and height (Table 2.6). The DQ width is the least of the eyes and of the
re-centred windows, the CA width that of the CA window, the CS window and the CA eye (DESIGN CHOICE, log entry 113). -/
def margins (r : TrainResult) : List Byte :=
  let least := fun (l : List Nat) => it1 (min 255 (l.foldl min 255))
  least (r.devs.flatMap (fun x => [x.eyeW, x.reRead, x.reWrite])) ++ least (r.devs.map (·.eyeH)) ++ least [r.ca, r.cs, r.caW] ++ least [r.caH]

/-- A training record (Table 2.6). -/
def trecBytes (s : State) (d : Die) (i r point : Nat) (quick : Bool) (res : TrainResult) : List Byte :=
  padTo 576 (leBytes 1 1 ++ leBytes 1 (rateCode s d (i / 2) point) ++ leBytes 1 (sbyte res.temp) ++
    leBytes 1 (1 + 2 * b2n quick + 4 * b2n (markOf s d i r).isSome) ++ leBytes 4 (msNow s) ++ margins res ++ leBytes 4 0 ++ res.body)

/-- Store a training record. -/
def putTrec (d : Die) (i r point : Nat) (bs : List Byte) : State → State :=
  onSub d i (fun b => { b with trec := nset b.trec (r * 2 + point) bs })

/-- The key under which the primary-rate record of a rank is kept while the channel trains at its fallback rate (R51). -/
def primaryKey (r point : Nat) : Nat := 4 + r * 2 + point

/-- The devices of a mask. -/
def devMask (v : Verdicts) : Nat := v.devs.foldl (fun m p => m + 2 ^ p.1) 0

/-- CFE_STATUS and CFE_RESULT of what a rank's training found. What failed stays shown until reset, as in the worked example of chapter 2,
where CA_FAIL still reads 1 after the channel has passed at its fallback rate (DEDUCED, log entry 114). -/
def putResult (d : Die) (i r : Nat) (quick : Bool) (v : Verdicts) (res : TrainResult) (s : State) : State :=
  let c := i / 2
  let failF := if r = 0 then ab F.CFE_RESULT_A.RANK0_FAIL F.CFE_RESULT_B.RANK0_FAIL i else ab F.CFE_RESULT_A.RANK1_FAIL F.CFE_RESULT_B.RANK1_FAIL i
  s |> onlyIf (!quick) (fun t => t |> wf F.CFE_STATUS.ZQ_PU d c res.zqPu |> wf F.CFE_STATUS.ZQ_PD d c res.zqPd)
    |> wf failF d c (rf s failF d c ||| devMask v)
    |> onlyIf v.ca.isSome (wfSub F.CFE_RESULT_A.CA_FAIL F.CFE_RESULT_B.CA_FAIL d i 1)
    |> onlyIf v.zq (wfSub F.CFE_RESULT_A.ZQ_FAIL F.CFE_RESULT_B.ZQ_FAIL d i 1)

/-- The devices that count for Table 2.5, with the step at which each failed: those marked failing and one already erased (R49). -/
def failingDevs (s : State) (d : Die) (i r : Nat) (v : Verdicts) : List (Nat × Nat) :=
  match markOf s d i r with
  | some a => (a, 0) :: v.devs.filter (fun p => p.1 != a)
  | none => v.devs

/-- The second smallest of some steps, which is the step at which a second device failed. -/
def secondStep (l : List (Nat × Nat)) : Option Nat :=
  let steps := l.map (·.2)
  let m := steps.foldl min 10
  (steps.erase m).min?

/-- The earlier of two steps. -/
def minStep : Option Nat → Option Nat → Option Nat
  | some a, some b => some (min a b)
  | a, b => a <|> b

/-- Table 2.5 up to the subchannel: the step at which the subchannel fails, if it does, with a single failing device erased. A second failing
device makes no request for a mark, so CWU_STATUS.ERASE_REFUSED stays (DESIGN CHOICE, log entry 115). -/
def judgeRank (d : Die) (i r : Nat) (v : Verdicts) (s : State) : Option Nat × State :=
  let devs := failingDevs s d i r v
  match minStep v.ca (secondStep devs) with
  | some k => (some k, s)
  | none =>
    match devs with
    | [(a, k)] =>
      if markOf s d i r = some a then (none, s)
      else (none, (askErase d i r a 0 s).2 |> post d ⟨0x0A06, sevCorrected, locSub d i, [it1 r, it1 a, it1 k], none, none⟩)
    | _ => (none, s)

/-- Apply the spare-row records of the fuse map that wait for hard repair on a rank (R121): HARD_DONE is set in both
copies. -/
def fuseApply (d : Die) (i r : Nat) (s : State) : State :=
  let hit := fun (v : BitVec 64) =>
    let n := v.toNat
    fld n 0 8 == 0x5A && fld n 8 1 == dieNum d && fld n 9 3 == i / 2 && fld n 12 1 == i % 2 && fld n 13 1 == r && bitn n 14 && !(bitn n 15)
  if s.dev.fuse.any hit then
    let recs := s.dev.fuse.map (fun v => if hit v then v ||| 0x8000 else v)
    flashJob (.repair recs) { s with dev := { s.dev with fuse := recs } }
  else s

/-- A subchannel becomes RETIRED during boot training (Table 2.5, R133). -/
def retireBoot (d : Die) (i cause rate : Nat) (s : State) : State := s |> retireSub d i |> postRetired d i cause rate

/-- Set FALLBACK or T_FALLBACK in both results of a channel, with the rate code in use and the dividers. -/
def noteFallback (d : Die) (c point v : Nat) (s : State) : State :=
  let f := if point = 0 then [F.CFE_RESULT_A.FALLBACK, F.CFE_RESULT_B.FALLBACK] else [F.CFE_RESULT_A.T_FALLBACK, F.CFE_RESULT_B.T_FALLBACK]
  let s1 := each f (fun x t => wf x d c v t) s
  let s2 := onChan d c (fun x => if point = 0 then { x with fallback := v == 1 } else { x with tFallback := v == 1 }) s1
  commitChan d c (wf F.CFE_STATUS.POINT d c (rateCode s2 d c (pointInUse s d c)) s2)

/-- The change of a channel's rate with its ranks in self-refresh, so that DRAM keeps its contents (R50, R51, R57): the commit is
that of `noteFallback`. -/
def moveRate (d : Die) (c point v : Nat) (s : State) : State :=
  let live := [2 * c, 2 * c + 1].filter (fun i => decide ((sub s d i).st ≠ .retired))
  s |> each live (sleepSub d) |> noteFallback d c point v |> each live (wakeSub d)

/-- Whether a record for every rank of a subchannel at the primary rate is kept (R51). -/
def hasPrimary (s : State) (d : Die) (i point : Nat) : Bool :=
  (ranksOf s d).all (fun r => (nget (sub s d i).trec (primaryKey r point)).isSome)

/-- A channel moves to the fallback rate of a point (R50, R463): the records of a subchannel that passed at the primary
rate are kept, and both subchannels train afresh; `run` is whether this happens at run time, where the training is a full retrain of every
rank (R57). -/
def moveFallback (d : Die) (c point i step : Nat) (run : Bool) (s : State) : State :=
  let rc := rateCode s d c point
  let keep := fun (x : Nat) (t : State) =>
    if (sub t d x).trainFail.isSome then
      each (ranksOf t d) (fun r => onSub d x (fun b => { b with trec := nerase b.trec (primaryKey r point) })) t
    else each (ranksOf t d) (fun r u => onSub d x (fun b => match nget b.trec (r * 2 + point) with
      | some v => { b with trec := nset b.trec (primaryKey r point) v }
      | none => b) u) t
  s |> keep (2 * c) |> keep (2 * c + 1)
    |> each [2 * c, 2 * c + 1] (fun x t => onSub d x (fun b =>
         { b with trainFail := none, r0 := { b.r0 with trained := false }, r1 := { b.r1 with trained := false },
                  trec := nerase (nerase b.trec point) (2 + point) }) t)
    |> moveRate d c point 1
    |> post d ⟨0x0A07, sevCorrected, locSub d i, [it1 i, it1 step, it1 rc], none, none⟩
    |> onlyIf run (each [2 * c, 2 * c + 1] (fun x t => if (sub t d x).st = .retired then t
         else each (ranksOf t d) (fun r => wantRetrain d x r .full) t))

/-- A passing subchannel returns to the primary rate of a point through self-refresh, with a quick retrain of its ranks from its
primary-rate records (R51). -/
def restoreRate (d : Die) (c point i : Nat) (s : State) : State :=
  s |> moveRate d c point 0
    |> each (ranksOf s d) (fun r t => onSub d i (fun b => match nget b.trec (primaryKey r point) with
         | some v => { b with trec := nset b.trec (r * 2 + point) v }
         | none => b) t)
    |> post d ⟨0x0A09, sevInfo, locSub d i, [], none, none⟩
    |> each (ranksOf s d) (fun r => wantRetrain d i r .quick)

/-- Whether a subchannel's training at a point's present rate is over: it failed, is RETIRED, or every rank is trained, at boot with the
point's record (R50). -/
def trainOver (s : State) (d : Die) (i point : Nat) (run : Bool) : Bool :=
  let b := sub s d i
  b.trainFail.isSome || decide (b.st = .retired) ||
    (ranksOf s d).all (fun r => (rankOf b r).trained && (run || (nget b.trec (r * 2 + point)).isSome))

/-- A channel's two subchannels are through at the present rate of a point: Table 2.5's channel rows, R51 and R463.
`run` is whether this happens at run time; then a RETIRED subchannel takes R129 or R130, and a fallback retrains every
rank. -/
def channelOutcome (d : Die) (c point : Nat) (run : Bool) (s : State) : State :=
  let x := 2 * c
  let y := 2 * c + 1
  if trainOver s d x point run && trainOver s d y point run then
    let bad := [x, y].filter (fun i => (sub s d i).trainFail.isSome)
    match bad with
    | [] => s
    | i :: _ =>
      let step := (sub s d i).trainFail.getD 0
      let rc := rateCode s d c point
      if rc = 0 ∨ rc = 1 then moveFallback d c point i step run s
      else
        let s1 := each bad (fun j t =>
          let st := (sub t d j).trainFail.getD 0
          let t1 := onSub d j (fun b => { b with trainFail := none }) t
          if run then retireRun d j st t1 else retireBoot d j st rc t1) s
        match [x, y].filter (fun j => !(bad.contains j) && decide ((sub s1 d j).st ≠ .retired)) with
        | [j] => if hasPrimary s1 d j point then restoreRate d c point j s1 else s1
        | _ => s1
  else s

/-- A rank's sequence has ended: the record, the result, Table 2.5 (R49). A quick retrain that follows a return to the primary rate at boot
is judged as the boot-time training that it is part of. -/
def rankTrained (d : Die) (i r point0 : Nat) (run quick : Bool) (res : TrainResult) (s : State) : State :=
  let c := i / 2
  let point := recPoint s d c point0
  let v := judge (critOf s d c) quick res
  let s0 := drfmCheck d i res.drfm (putResult d i r quick v res s)
  if v.zq then
    let rc := rateCode s d c point
    each [2 * c, 2 * c + 1] (fun j t => if (sub t d j).st = .retired then t
      else if run then retireRun d j 1 (wfSub F.CFE_RESULT_A.ZQ_FAIL F.CFE_RESULT_B.ZQ_FAIL d j 1 t)
      else retireBoot d j 1 rc (wfSub F.CFE_RESULT_A.ZQ_FAIL F.CFE_RESULT_B.ZQ_FAIL d j 1 t)) s0
  else
    let (bad, s1) := judgeRank d i r v s0
    let s2 := match bad with
      | some k => onSub d i (fun b => { b with trainFail := some (b.trainFail.getD k) }) s1
      | none =>
        s1 |> onSub d i (onRank r (fun x => { x with trained := true, crcOn := rfb s1 F.CFE_WCRC_CFG.EN d c, temp := res.temp }))
           |> putTrec d i r point (trecBytes s1 d i r point quick res)
           |> onlyIf (!run) (fuseApply d i r)
    channelOutcome d c point run s2

/-- Whether training of a subchannel is over at the points that boot trains (R53). -/
def bootTrained (s : State) (d : Die) (i : Nat) : Bool :=
  let b := sub s d i
  let two := rfb s F.CFE_POP.THRIFT_TRAIN d (i / 2) && rf s F.CFE_POP.RATE_SEL d (i / 2) != 3
  decide (b.st = .retired) || (b.trainFail.isNone && (ranksOf s d).all (fun r =>
    let x := rankOf b r
    x.trained && x.retrain.isNone && x.retrainWanted.isNone && (nget b.trec (r * 2)).isSome && (!two || (nget b.trec (r * 2 + 1)).isSome)))

/-- Whether a channel has boot-time training to do. -/
def bootTrains (s : State) (d : Die) (c : Nat) : Bool :=
  s.dev.mode == .train && !(bootTrained s d (2 * c) && bootTrained s d (2 * c + 1))

/-- BUSY of CFE_TRAIN_CTRL: a training or a retrain runs on the channel. -/
def syncBusy (d : Die) (c : Nat) (s : State) : State := wf F.CFE_TRAIN_CTRL.BUSY d c (b2n (chanRetrains s d c || bootTrains s d c)) s

/-! ### Run-time retrains -/

/-- DRIFT_MEASURE: the DQS oscillators of a rank are read; `drift` is a device's drift against its baseline in 1/64 UI
(Table 2.8). A correction changes the rank's live delays only, which are not architectural state (log entry 8). -/
def driftMeasure (d : Die) (i r dev drift : Nat) (s : State) : State :=
  let c := i / 2
  if rf s F.CFE_DRIFT_CFG.PERIOD d c = 0 then s
  else if rf s F.CFE_DRIFT_CFG.RETRAIN d c ≤ drift then
    s |> setFlagSub F.CFE_ERR_STATUS.DRIFT_RT_A F.CFE_ERR_STATUS.DRIFT_RT_B d i
      |> post d ⟨0x0A05, sevInfo, locSub d i, [it1 r, it1 dev, it1 drift], none, none⟩
      |> wantRetrain d i r .quick
  else s

/-- DRIFT_MEASURE (Table 2.8). -/
def execDriftMeasure (d : Die) (sub : Nat) (rank : Nat) (dev : Nat) (drift : Nat) (s : State) :
    Host.Outcome State Fault Refusal := .next (driftMeasure d sub rank dev drift s)

/-- Whether a rank of a subchannel retrains. -/
def subRetrains (b : SubSt) : Bool := b.r0.retrain.isSome || b.r1.retrain.isSome

/-- Software requests a retrain by CFE_TRAIN_CTRL (Table 2.8): dropped while a rank of the subchannel retrains, merged with a retrain that
waits (Table 2.9). -/
def retrainRequest (d : Die) (c v : Nat) (s : State) : State :=
  let full := bitn v 2
  let mask := fld v 4 2
  let s0 := s |> wf F.CFE_TRAIN_CTRL.FULL d c (b2n full) |> wf F.CFE_TRAIN_CTRL.RANK_MASK d c mask
  each ((List.range 2).filter (bitn v)) (fun u t =>
    let i := 2 * c + u
    if subRetrains (sub t d i) then setFlag F.CFE_TRAIN_CTRL.REFUSED d c t
    else if (sub t d i).st = .retired then t
    else each ((ranksOf t d).filter (bitn mask)) (fun r w => wantRetrain d i r (if full then .full else .quick) w) t) s0

/-- RETRAIN_REQUEST: CFE_TRAIN_CTRL is written with REQ_A or REQ_B. -/
def execRetrainRequest (d : Die) (chan : Nat) (value : Word) (s : State) : Host.Outcome State Fault Refusal :=
  .next (barWrite .CFE d (retrainRequest d chan value.toNat) s)

/-- A rank leaves RETRAIN: its training row is restored, its timer resumes with the time it had left (R56, R76). -/
def leaveRetrain (d : Die) (i r : Nat) (s : State) : State :=
  s |> onChan d (i / 2) (fun x => { x with rowSave := none })
    |> onSub d i (onRank r (fun x =>
         if x.selfRefresh then { x with retrain := none }
         else { x with retrain := none, nextNs := s.nowNs + x.leftNs.getD x.interval, leftNs := none }))

/-- A poll of mode register 4 that was put off to the end of a retrain takes place (Table 3.5), at the temperature that the retrain read. -/
def deferredPoll (d : Die) (i r : Nat) (temp : Int) (s : State) : State :=
  if (rankOf (sub s d i) r).mr4Wanted ∧ (sub s d i).st ≠ .retired then mr4Poll d i r temp s else s

/-- RETRAIN_DONE: a retrain of a rank ends; a quick one that found a window edge at its sweep limit becomes a full one (Table 2.8). The
outcome is judged with the rank out of RETRAIN, so that a full retrain which a fallback asks of the same rank is a new one (R49, R57). -/
def retrainDone (d : Die) (i r : Nat) (edge : Bool) (res : TrainResult) (s : State) : State :=
  match (rankOf (sub s d i) r).retrain with
  | none => s
  | some k =>
    let c := i / 2
    if (sub s d i).st = .retired then s |> leaveRetrain d i r |> syncBusy d c |> nextRetrain d c
    else if k = .quick ∧ edge then onSub d i (onRank r (fun x => { x with retrain := some .full })) s
    else
      s |> leaveRetrain d i r |> rankTrained d i r (pointInUse s d c) (s.dev.mode != .train) (k == .quick) res
        |> deferredPoll d i r res.temp |> syncBusy d c |> nextRetrain d c |> scrubPumpChan d c

/-- TREC_DATA_READ: the selected word of the selected training record; WORD advances, wrapping at 143 (R53). -/
def trecRead (d : Die) (c : Nat) (s : State) : State :=
  let g := fun f => rf s f d c
  let w := g F.CFE_TREC_SEL.WORD
  let bs := trecOf s d (2 * c + g F.CFE_TREC_SEL.SUB) (g F.CFE_TREC_SEL.RANK) (g F.CFE_TREC_SEL.POINT)
  s |> send (.regData (regAddr .CFE_TREC_DATA d c) (BitVec.ofNat 32 (fromLe ((bs.drop (4 * w)).take 4))))
    |> wf F.CFE_TREC_SEL.WORD d c (if 143 ≤ w then 0 else w + 1)

/-- TREC_DATA_READ (R53). -/
def execTrecDataRead (d : Die) (chan : Nat) (s : State) : Host.Outcome State Fault Refusal := .next (trecRead d chan s)

/-! ### The thaw of a channel -/

/-- Encode the writes that waited for the thaw, in the order of the crossing (Table 4.4). -/
def encodeHeld (d : Die) (c : Nat) (s : State) : State :=
  let fix := fun (q : List Req) (t : State) => q.foldl (fun (p : List Req × State) r =>
    if r.write ∧ r.enc = none then let e := encodeReq d r p.2; (p.1 ++ [e.1], e.2) else (p.1 ++ [r], p.2)) ([], t)
  let onQ := fun (i : Nat) (t : State) =>
    let (w, t1) := fix (sub t d i).wrq t
    let (h, t2) := fix (sub t d i).demandHeld t1
    onSub d i (fun b => { b with wrq := w, demandHeld := h }) t2
  let s1 := onQ (2 * c + 1) (onQ (2 * c) s)
  let (m, s2) := fix (chan s1 d c).mxin s1
  onChan d c (fun x => { x with mxin := m }) s2

/-- After a command error of a subchannel the thaw begins with precharge-all and closed rows; an exhausted write-CRC budget begins the
isolation (R42, R46). -/
def afterCommandError (d : Die) (i cause : Nat) (s : State) : State :=
  onSub d i (fun b =>
    let b1 := { b with cmdHeld := false, preaDue := false, banks := b.banks.map (fun p => (p.1, { p.2 with row := none })) }
    if cause = 3 then nextIsolated { b1 with replaying := false } else b1) (each (ranksOf s d) (sendPrea d i) s)

/-- A channel thaws (R397, R398): 0x0911, and the reads that joined are retried first. -/
def thaw (d : Die) (c : Nat) (z : FrzSt) (s : State) : State :=
  let a := sub s d (2 * c)
  let b := sub s d (2 * c + 1)
  let loc := if z.cause = 4 then locChan d c else locSub d z.sub
  s |> onChan d c (fun x => { x with frozen := none })
    |> wf F.EVT_FRZ_CTRL.FROZEN d 0 (setFld (rf s F.EVT_FRZ_CTRL.FROZEN d 0) c 1 0)
    |> onDie d (fun x => { x with frz := nupd x.frz z.slot (fun r => { r with held := false }) })
    |> post d ⟨0x0911, sevInfo, loc, [it4 (s.nowNs - z.ns), it4 (a.rdq.length + a.wrq.length + b.rdq.length + b.wrq.length)], none, none⟩
    |> each z.cmdErrs (fun p => afterCommandError d p.1 p.2) |> encodeHeld d c |> each z.joined (fun r t => if (sub t d r.sub).st = .retired then failLine d r none t else queueRetry d 1 r t) |> nextRetrain d c
    |> scrubPumpChan d c

/-- CHANNEL_THAWED: the capture has ended; the channel thaws, or waits for THAW under HOLD (R397). -/
def channelThawed (d : Die) (c : Nat) (s : State) : State :=
  match (chan s d c).frozen with
  | none => s
  | some z =>
    if z.held then s
    else if rfb s F.EVT_FRZ_CFG.HOLD d 0 then
      s |> onChan d c (fun x => { x with frozen := some { z with held := true } })
        |> onDie d (fun x => { x with frz := nupd x.frz z.slot (fun r => { r with held := true }) })
    else thaw d c z s

/-- EVT_FREEZE: EVT_FRZ_CTRL is written with FREEZE bits, one for each channel (R394). -/
def execEvtFreeze (d : Die) (mask : Nat) (s : State) : Host.Outcome State Fault Refusal :=
  .next (barWrite .EVT d (each ((List.range 6).filter (bitn mask)) (fun c t => freezeChan d c ⟨4, 255, 0, none, 255, 255, 0, 0, []⟩ none t)) s)

/-- FREEZE_DATA_READ: the selected word of the selected freeze record; WORD advances, wrapping at 511 (R396). -/
def freezeRead (d : Die) (s : State) : State :=
  let w := rf s F.EVT_FRZ_SEL.WORD d 0
  let bs := match nget (die s d).frz (rf s F.EVT_FRZ_SEL.SLOT d 0) with
    | some r => r.bytes
    | none => []
  s |> send (.regData (regAddr .EVT_FRZ_DATA d 0) (BitVec.ofNat 32 (fromLe ((bs.drop (4 * w)).take 4))))
    |> wf F.EVT_FRZ_SEL.WORD d 0 (if 511 ≤ w then 0 else w + 1)

/-- FREEZE_DATA_READ (R396). -/
def execFreezeDataRead (d : Die) (s : State) : Host.Outcome State Fault Refusal := .next (freezeRead d s)

end Sys2Proof.Machine
end

