-- ==== Sys2Proof/Machine/RegSet.lean ====
section
/-!
DEFINITION. Sys2Proof/Machine/RegSet.lean: what a write of a register stores by the access types of its fields (R434, R436).
-/

namespace Sys2Proof.Machine

/-- Whether a write would change an RWL field of a register. -/
def rwlChanged (r : RegName) (old v : Nat) : Bool :=
  (regFields r).any (fun (f : Fld) => f.acc == .RWL && fld v f.lo f.w != fld old f.lo f.w)

/-- What a write leaves of one field: `lock` keeps the RWL fields of the register (R436). The W1S and WO fields have actions of their
own and store nothing here. -/
def fieldWritten (lock : Bool) (old v : Nat) (f : Fld) : Nat :=
  let o := fld old f.lo f.w
  let n := fld v f.lo f.w
  match f.acc with
  | .RW => n
  | .RWL => if lock then o else n
  | .W1C => (List.range f.w).foldl (fun (x : Nat) (i : Nat) => if bitn n i then setFld x i 1 0 else x) o
  | .RO | .W1S | .WO => o

/-- The value of a register after a write (R434). -/
def wordWritten (r : RegName) (lock : Bool) (old v : Nat) : Nat :=
  (regFields r).foldl (fun (x : Nat) (f : Fld) => setFld x f.lo f.w (fieldWritten lock old v f)) old

/-- A write of a register by its access types; after the lock of R370 one that would change an RWL field is counted (R436). -/
def plainWrite (r : RegName) (d : Die) (i v : Nat) (s : State) : State :=
  let old := rdReg s r d i
  let lock := rfc s F.DEV_MODE.LOCKED == 1 && rwlChanged r old v
  s |> wrReg r d i (wordWritten r lock old v) |> onlyIf lock (cntF F.DEV_IGNORED_COUNT.LOCKED .east 0 1)

/-- A write of a register of which both die windows hold a copy (R433). -/
def sharedWrite (r : RegName) (d : Die) (v : Nat) (s : State) : State :=
  let t := plainWrite r d 0 v s
  wrReg r (otherDie d) 0 (rdReg t r d 0) t

/-- The W1C flags alone, as FROZEN lets a write clear them (Table 20.4). -/
def clearWrite (r : RegName) (d : Die) (i v : Nat) (s : State) : State :=
  let old := rdReg s r d i
  wrReg r d i ((regFields r).foldl (fun (x : Nat) (f : Fld) => if f.acc = .W1C then setFld x f.lo f.w (fieldWritten false old v f) else x) old) s

/-- Store the RW fields of a register of which others start actions. -/
def putFields (fs : List Fld) (d : Die) (i v : Nat) (s : State) : State := each fs (fun (f : Fld) => wf f d i (fld v f.lo f.w)) s

end Sys2Proof.Machine
end

