-- ==== Sys2Proof/Machine/Rrm.lean ====
section
/-!
DEFINITION. Sys2Proof/Machine/Rrm.lean: the decode of a request (R18 to R25): the HDM decoders of a host port (R246, R247), the
outcomes of Table 1.6 with their events, and the bindings of R185 to R187.
-/

namespace Sys2Proof.Machine

/-! ### HDM decoders (R12, R246) -/

/-- Whether a decoder covers a host physical address. -/
def HdmDec.holds (x : HdmDec) (hpa : Nat) : Bool := decide (x.base ≤ hpa) && decide (hpa < x.base + x.size)

/-- The DLA that a decoder gives an address: of every `ways` granules of the range one is this device's. -/
def HdmDec.toDla (x : HdmDec) (hpa : Nat) : Nat :=
  let o := hpa - x.base
  x.dla + o / (x.gran * x.ways) * x.gran + o % x.gran

/-- The DLA range of a decoder. -/
def HdmDec.covers (x : HdmDec) (dla : Nat) : Bool := decide (x.dla ≤ dla) && decide (dla < x.dla + x.size / x.ways)

/-- The host physical address of a DLA through a decoder, by its interleave set position (R218). -/
def HdmDec.toHpa (x : HdmDec) (dla : Nat) : Nat :=
  let o := dla - x.dla
  x.base + (o / x.gran * x.ways + x.isp) * x.gran + o % x.gran

/-- The decoder of a port that covers an address, with its number: none matches where the host broke the commit rules. -/
def hdmFind (s : State) (p : Die) (hpa : Nat) : Option (Nat × HdmDec) := (die s p).hpc.hdm.find? (fun q => q.2.holds hpa)

/-- The agent that CDR_AGENT_MAP assigns to decoder k of a port (R218). -/
def agentOf (s : State) (p : Die) (k : Nat) : Nat := fld (rdReg s .CDR_AGENT_MAP p 0) (4 * k) 4

/-- Whether a host port runs HDM-DB, and so has agents in the directory (R219, R243). -/
def portDb (s : State) (p : Die) : Bool := rfb s F.HPC_LINK_STATUS.HDM_DB p 0

/-- Whether a host port is in L0. -/
def portUp (s : State) (p : Die) : Bool := rfb s F.HPC_LINK_STATUS.UP p 0

/-- Whether a host port has not gone down: in L0, or at the retrain or fallback rung, where nothing is lost (R257). -/
def portAlive (s : State) (p : Die) : Bool :=
  portUp s p || rf s F.HPC_LINK_STATUS.RUNG p 0 == 1 || rf s F.HPC_LINK_STATUS.RUNG p 0 == 2

/-- The host port of an agent: the one whose map names it (R219). -/
def agentPort (s : State) (a : Nat) : Option Die :=
  (diesPresent s).find? (fun p => portAlive s p && portDb s p && (List.range 8).any (fun k => agentOf s p k == a))

/-- The host physical address of a snoop to an agent: through the lowest decoder of its port that maps to it and covers the
line (R218). -/
def snoopHpa (s : State) (p : Die) (a dla : Nat) : Nat :=
  match (die s p).hpc.hdm.find? (fun q => agentOf s p q.1 == a && q.2.covers dla) with
  | some q => q.2.toHpa dla
  | none => dla

/-! ### Table 1.6 -/

/-- The severity of an event of Table 1.6. -/
def rrmSev (code : Nat) : Nat := if code = 0x0403 then sevInfo else sevUncorrected

/-- A refusal of Table 1.6 at the RRM of a die for a requester port: counted, and posted under its limit. Row k of the counts
is unmapped 1, owner denied 2, export denied 3, slot denied 4. -/
def rrmRefuse (d : Die) (p : Port) (k : Nat) (item : List Byte) (dla bind : Option Nat) (s : State) : State :=
  let code := 0x0400 + k
  postLim d (portNum p) ⟨code, rrmSev code, locDie d, [item], dla, bind⟩ [] (addCount d .RRM k 1 s)

/-- 0x0401's address: its kind, 0 a DLA or 1 a host physical address, and its eight bytes. -/
def addrItem (kind a : Nat) : List Byte := it1 kind ++ leBytes 8 a

/-- A DLA in no enabled region. -/
def unmapped (d : Die) (p : Port) (dla : Nat) : State → State := rrmRefuse d p 1 (addrItem 0 dla) (some dla) none

/-- A row of Table 1.6 about a region. -/
def rrmDenied (d : Die) (p : Port) (k n dla : Nat) (s : State) : State := rrmRefuse d p k (it6 dla) (some dla) (some (bindOf s (rgAttr s n))) s

/-- The home die of a region's requests from an issuing die (R23, R25). -/
def rgHomeDie (s : State) (n : Nat) (issuer : Die) : Die := homeDie (rgAttr s n) issuer

/-- Whether the modes or a viral device answer a host's reads with poison and discard its writes without decoding them
(Table 16.3, R211, R253, R204). -/
def hostBarred (s : State) (p : Die) : Bool :=
  s.dev.mode == .train || s.dev.mode == .frozen || s.dev.mode == .sanitize || s.dev.mode == .boot || s.dev.mode == .hold || (die s p).hpc.viralTx ||
    (rfc s F.SEC_POLICY.IDE_REQ == 1 && !(rfb s F.HPC_LINK_STATUS.IDE_SECURE p 0))

/-- A COHERENT region is refused on an HDM-H port (R243). -/
def coherentRefused (p : Die) (n dla : Nat) (s : State) : State :=
  s |> setFlag F.HPC_STATUS.COH_REFUSED p 0 |> addCount p .HPC 5 1
    |> postLim p 0 ⟨0x0106, sevUncorrected, locDie p, [it6 dla], some dla, some (bindOf s (rgAttr s n))⟩ []

/-- What a host request is bound to: the decoder, the region and the DLA. -/
structure Bound where
  dec : Nat
  region : Nat
  dla : Nat
  deriving DecidableEq, Repr

/-- The region, being disabled, whose recalled line a host write carries back: the directory names its agent as owner, or waits for it (R139,
R234). -/
def recalledIn (s : State) (ag dla : Nat) : Option Nat :=
  [Die.east, Die.west].findSome? (fun d => ((die s d).cdr.dir.find? (fun q =>
    q.2.dla == dla && rg s F.RGN_CTRL.ENABLE q.2.region == 0 && rg s F.RGN_CTRL.BUSY q.2.region == 1 && serving s &&
      ((q.2.x && q.2.owner == ag) || q.2.tr.any (fun t => t.out.any (fun z => z.agent == ag) || t.await.contains ag)))).map (·.2.region))

/-- Decode a host request (R12, R19, R185, R243, R247). -/
def hostDecode (p : Die) (hpa : Nat) (write : Bool) (s : State) : Option Bound × State :=
  let port := hostPort p
  if hostBarred s p then (none, s)
  else
    match hdmFind s p hpa with
    | none => (none, rrmRefuse p port 1 (addrItem 1 hpa) none none (rrmCount p port none s))
    | some (k, x) =>
      let dla := x.toDla hpa / 64 * 64
      match (regionOf s dla).filter (fun n => bitn (bindOf s (rgAttr s n)) (dieNum p)) with
      | none =>
        (match if write && portDb s p then recalledIn s (agentOf s p k) dla else none with
         | some n => (some ⟨k, n, dla⟩, rrmCount p port (some (rgHomeDie s n p)) s)
         | none => (none, unmapped p port dla (rrmCount p port none s)))
      | some n =>
        let a := rgAttr s n
        if atCoherent a ∧ portDb s p = false then (none, coherentRefused p n dla (rrmCount p port none s))
        else if write ∧ atOwner a = 1 then (none, rrmDenied p port 2 n dla (rrmCount p port none s))
        else (some ⟨k, n, dla⟩, rrmCount p port (some (rgHomeDie s n p)) s)

/-! ### Peers and descriptors -/

/-- What a peer's access to a DLA decodes to (R29, R187, Table 11.4). -/
inductive PeerDec where
  | take (n : Nat) | unmapped | denied
  deriving DecidableEq, Repr

/-- Decode a line of a peer's request on the fabric port of a die. -/
def peerDecode (p : Die) (dla : Nat) (write : Bool) (s : State) : PeerDec × State :=
  let port := fabPort p
  match regionOf s dla with
  | none => (.unmapped, unmapped p port dla (rrmCount p port none s))
  | some n =>
    let a := rgAttr s n
    if (if write then at_ a F.RGN_ATTR.FABRIC_WRITE else at_ a F.RGN_ATTR.FABRIC_READ) ≠ 1 ∨ bitn (bindOf s a) 2 = false then
      (.denied, rrmDenied p port 3 n dla (rrmCount p port none s))
    else if write ∧ atOwner a = 1 then (.denied, rrmCount p port none s)
    else (.take n, rrmCount p port (some (rgHomeDie s n p)) s)

/-- Whether a ring's domain is in the mask of a region's slot (R186). -/
def ringBound (s : State) (d : Die) (sq n : Nat) : Bool :=
  bitn (slotOf s (atSlot (rgAttr s n))).domain (rf s F.CPR_SQ_CTRL.DOMAIN d sq)

/-! ### Who may access a line now -/

/-- Whether a die acts as though its integrity areas were absent, so that MAC regions do not serve on it (R461). -/
def integCut (s : State) (d : Die) (a : Nat) : Bool := atInteg a != 0 && !(carveFits s d)

end Sys2Proof.Machine
end

