-- ==== Sys2Proof/Machine/Ift.lean ====
section
/-!
DEFINITION. Sys2Proof/Machine/Ift.lean: the Ilesk Fabric Transport (chapter 11): peer contexts, frames on the wire with injection
(R266, R283), delivery (R272), sessions (R273, R280), the loss of a peer (R278, R281), and requests to peers (R271, R277).
-/

namespace Sys2Proof.Machine

/-! ### Contexts -/

/-- The peer context of a node on a fabric port (R270). -/
def ctx (s : State) (d : Die) (node : Nat) : CtxSt := ngetD (die s d).fpc.ctxs node CtxSt.reset

/-- Change a peer context. -/
def onCtx (d : Die) (node : Nat) (f : CtxSt → CtxSt) : State → State :=
  onDie d (fun x => { x with fpc := { x.fpc with ctxs := nmod x.fpc.ctxs node CtxSt.reset f } })

/-- Change a fabric port. -/
def onFpc (d : Die) (f : FpcSt → FpcSt) : State → State := onDie d (fun x => { x with fpc := f x.fpc })

/-- Whether a context is UP. -/
def ctxUp (s : State) (d : Die) (node : Nat) : Bool := (ctx s d node).st == .up

/-- The device's node ID (R269). -/
def nodeId (s : State) : Nat := rf s F.FPC_NODE.NODE .east 0

/-- Whether the part has the fabric port of a die. -/
def fabPresent (s : State) (d : Die) : Bool := !(blockAbsent s .FPC d)

/-- Whether a port takes the IFT frames of a node: enabled, its link up, and a secure channel with the peer (R205, R265). -/
def canReceive (s : State) (d : Die) (node : Nat) : Bool :=
  fabPresent s d && rfb s F.FPC_PORT_CFG.EN d 0 && rfb s F.FPC_LINK_STATUS.UP d 0 && rfb s F.FPC_LINK_STATUS.SECURE d 0 &&
    (die s d).fpc.channels.contains node

/-- Whether a port may send an IFT frame to a node: FPC_NODE.FABRIC_EN = 0 keeps it from sending (R205). -/
def canSend (s : State) (d : Die) (node : Nat) : Bool := canReceive s d node && rfb s F.FPC_NODE.FABRIC_EN d 0

/-- The distance from one sequence number to another, modulo 2^24. -/
def seqDist (a b : Nat) : Nat := (b + 2 ^ 24 - a % 2 ^ 24) % 2 ^ 24

/-- Whether frame a lies before frame b. -/
def seqBefore (a b : Nat) : Bool := decide (1 ≤ seqDist a b) && decide (seqDist a b ≤ 2 ^ 23)

/-- The SACK bits: the frames held beyond the expected one (R272). -/
def sackOf (c : CtxSt) : BitVec 64 :=
  BitVec.ofNat 64 ((List.range 64).foldl (fun v i => if (nget c.held ((c.expect + 1 + i) % 2 ^ 24)).isSome then v + 2 ^ i else v) 0)

/-! ### Frames (R266) -/

/-- A frame with no payload. -/
def frame0 (op tag arg : Nat) : Frame := ⟨1, op, 0, false, none, false, 0, 0, 0, 0, 0, 0, 0, tag, arg, [], false⟩

/-- The mask and the bytes of lines. -/
def linesMask (ls : List LineData) : Option (BitVec 64) :=
  if ls.any (·.poison) then some (BitVec.ofNat 64 (ls.zipIdx.foldl (fun v p => if p.1.poison then v + 2 ^ p.2 else v) 0)) else none

/-- A frame that carries lines. -/
def lineFrame (op tag arg status : Nat) (more : Bool) (ls : List LineData) : Frame :=
  { frame0 op tag arg with status := status, more := more, mask := linesMask ls, len := 64 * ls.length, payload := ls.flatMap (fun l => lineBytes l.line) }

/-- The lines of a frame, with their poison. -/
def frameLines (f : Frame) : List LineData :=
  (toLines (f.payload.length / 64) f.payload).zipIdx.map (fun p => ⟨p.1, match f.mask with
    | some m => m.getLsbD p.2
    | none => false⟩)

/-- Frames of up to n lines each that carry lines from a DLA, MORE on all but the last (R268, R275). -/
def lineFrames (op tag status n : Nat) : Nat → Nat → List LineData → List Frame
  | 0, _, _ => []
  | fuel + 1, arg, ls =>
    if ls.length ≤ n then [lineFrame op tag arg status false ls]
    else lineFrame op tag arg status true (ls.take n) :: lineFrames op tag status n fuel (arg + 64 * n) (ls.drop n)

/-- The lines of one frame at a context's payload size. -/
def ctxLines (c : CtxSt) : Nat := if c.big then 64 else 16

/-! ### Injection (R283) -/

/-- Whether the filter of a port's injection takes a frame of a context. -/
def injMatch (s : State) (d : Die) (rx : Bool) (node op : Nat) : Bool :=
  rfb s F.FPC_INJ_CTRL.ARMED d 0 && (rfb s F.FPC_INJ_CTRL.DIR d 0 == rx) &&
    (!(rfb s F.FPC_INJ_FILTER.NODE_EN d 0) || rf s F.FPC_INJ_FILTER.NODE d 0 == node) &&
    (!(rfb s F.FPC_INJ_FILTER.OP_EN d 0) || rf s F.FPC_INJ_FILTER.OP d 0 == op)

/-- The kind of injection that hits a frame, if any: a one-shot disarms; at a rate every 2^RATE-th matching frame is hit. -/
def injTake (d : Die) (rx : Bool) (node op : Nat) (s : State) : Option Nat × State :=
  if injMatch s d rx node op then
    let kind := let k := rf s F.FPC_INJ_CTRL.KIND d 0; if 4 < k then 0 else k
    let hit := fun (t : State) => t |> cntF F.FPC_INJ_COUNT.COUNT d 0 1 |> addCount d .FPC 9 1
    if rfb s F.FPC_INJ_CTRL.MODE d 0 then
      let n := (die s d).fpc.injSeen + 1
      if 2 ^ clamp 4 30 (rf s F.FPC_INJ_CTRL.RATE d 0) ≤ n then (some kind, hit (onFpc d (fun x => { x with injSeen := 0 }) s))
      else (none, onFpc d (fun x => { x with injSeen := n }) s)
    else
      (some kind, hit s |> wf F.FPC_INJ_CTRL.ARMED d 0 0 |> setFlag F.FPC_STATUS.INJ_DONE d 0
        |> post d ⟨0x0209, sevInfo, locDie d, [it1 kind, it1 (b2n rx), it2 node, it1 op], none, none⟩)
  else (none, s)

/-! ### The bytes of a frame (R8, R266, Tables 11.1 and 11.2) -/

/-- The IFT header: 32 bytes, little-endian (Table 11.2). -/
def iftHeader (f : Frame) : List Byte :=
  leBytes 1 (f.session % 16 + 16 * (f.ver % 16)) ++ leBytes 1 f.op ++ leBytes 1 (b2n f.more + 2 * b2n f.mask.isSome + 4 * b2n f.retx)
    ++ leBytes 1 f.status ++ leBytes 2 f.dst ++ leBytes 2 f.src ++ leBytes 3 f.seq ++ leBytes 3 f.ack ++ leBytes 2 f.len
    ++ leBytes 8 f.sack.toNat ++ leBytes 2 f.tag ++ leBytes 6 f.arg

/-- The MAC address of a fabric port (FPC_MAC). -/
def ownMac (s : State) (d : Die) : Nat := rf s F.FPC_MAC_LO.MAC_LO d 0 + 2 ^ 32 * rf s F.FPC_MAC_HI.MAC_HI d 0

/-- The 802.1Q tag of a port, where it sends one (R264). -/
def vlanTag (s : State) (d : Die) : List Byte :=
  if rfb s F.FPC_PORT_CFG.VLAN_EN d 0 then beBytes 2 0x8100 ++ beBytes 2 (rf s F.FPC_PORT_CFG.PCP d 0 * 2 ^ 13 + rf s F.FPC_PORT_CFG.VID d 0) else []

/-- The SecTAG (Table 11.1; the places of its fields are those of IEEE 802.1AE, PRESUMED, log entry 69): its EtherType; TCI with SC, E and C, and AN;
SL, the length where fewer than 48 bytes are secured; the low 32 bits of the packet number; and the SCI, the MAC address and port 1. -/
def secTag (s : State) (d : Die) (len : Nat) : List Byte :=
  let x := (die s d).fpc
  beBytes 2 0x88E5 ++ beBytes 1 (0x2C + x.sakGen % 4) ++ beBytes 1 (if len < 48 then len else 0) ++ beBytes 4 (x.pn + 1) ++ beBytes 6 (ownMac s d)
    ++ beBytes 2 1

/-- A frame to a node, from DA to the end of the payload, before MACsec encrypts what follows the SecTAG (Table 11.1). -/
def frameImage (s : State) (d : Die) (node : Nat) (f : Frame) : List Byte :=
  let inner := beBytes 2 0x88B5 ++ iftHeader f ++ (match f.mask with
    | some m => leBytes 8 m.toNat
    | none => []) ++ f.payload
  beBytes 6 (ctx s d node).mac ++ beBytes 6 (ownMac s d) ++ vlanTag s d ++ secTag s d inner.length ++ inner

/-! ### Sending -/

/-- The next SAK of a port, from the CAK: no frame has been sent under it (R205). -/
def nextSak (d : Die) : State → State := onFpc d (fun x => { x with sakGen := x.sakGen + 1, pn := 0 })

/-- Put a frame on the wire; the SAK is replaced before its packet number reaches 2^62 (R205). -/
def emit (d : Die) (node : Nat) (corrupt : Bool) (f : Frame) (s : State) : State :=
  s |> send (.frame d f corrupt (frameImage s d node f)) |> addCount d .FPC 0 1 |> signalDie d 0x0280 1 |> signalDie d 0x0281 ((f.payload.length + 63) / 64)
    |> onCtx d node (fun c => { c with sentNs := s.nowNs }) |> onFpc d (fun x => { x with pn := x.pn + 1 })
    |> (fun t => onlyIf (decide (2 ^ 62 - 1 ≤ (die t d).fpc.pn)) (nextSak d) t)

/-- The fields of the header that the context gives. -/
def stamped (s : State) (d : Die) (node : Nat) (f : Frame) : Frame :=
  let c := ctx s d node
  { f with session := c.session, dst := node + 4096 * c.port, src := nodeId s + 4096 * dieNum d, ack := c.expect, sack := sackOf c }

/-- Send a frame of a context: its arrivals are then reported (R272). -/
def transmit (d : Die) (node : Nat) (f0 : Frame) (s : State) : State :=
  if canSend s d node then
    let f := stamped s d node f0
    let s1 := onCtx d node (fun c => { c with unreported := 0 }) s
    match (die s d).fpc.swapped with
    | some h =>
      if h.rx = false ∧ h.node = node then
        s1 |> onFpc d (fun x => { x with swapped := none }) |> emit d node false f |> emit d node false h.frame
      else emit d node false f s1
    | none =>
      match injTake d false node f.op s1 with
      | (none, t) => emit d node false f t
      | (some 0, t) => t
      | (some 1, t) => emit d node true f t
      | (some 2, t) => t |> emit d node false f |> emit d node false f
      | (some 3, t) => onFpc d (fun x => { x with swapped := some ⟨false, node, f, true⟩ }) t
      | (some _, t) => onFpc d (fun x => { x with delayed := x.delayed ++ [⟨false, node, f, true⟩] }) t
  else s

/-- Send a sequenced frame, or let it wait for the window (R272). -/
def sendSeq (d : Die) (node : Nat) (f : Frame) (s : State) : State :=
  let c := ctx s d node
  if c.unacked.length < 1024 then
    let g := { f with seq := c.nextSeq }
    transmit d node g (onCtx d node (fun c => { c with unacked := c.unacked ++ [g], nextSeq := (c.nextSeq + 1) % 2 ^ 24 }) s)
  else onCtx d node (fun c => { c with waiting := c.waiting ++ [f] }) s

/-- Frames that waited for the window go out as it opens. -/
def openWindow (d : Die) (node : Nat) (s : State) : State :=
  each (ctx s d node).waiting (sendSeq d node) (onCtx d node (fun c => { c with waiting := [] }) s)

/-- An ACK frame. -/
def sendAck (d : Die) (node : Nat) (s : State) : State := transmit d node (frame0 0 0 0) s

/-- What a frame from a peer acknowledges (R272). -/
def takeAck (d : Die) (node : Nat) (f : Frame) (s : State) : State :=
  let c := ctx s d node
  let marked := fun (g : Frame) =>
    let k := seqDist f.ack g.seq
    decide (1 ≤ k) && decide (k ≤ 64) && f.sack.getLsbD (k - 1)
  let left := c.unacked.filter (fun (g : Frame) => !(seqBefore g.seq f.ack) && !(marked g))
  let moved := decide ((left.head?.map (·.seq)) ≠ (c.unacked.head?.map (·.seq)))
  openWindow d node (onCtx d node (fun c => { c with unacked := left, timeouts := if moved then 0 else c.timeouts }) s)

/-- A timeout of the retransmit timer: every unacknowledged frame goes out again (R272). -/
def resend (d : Die) (node : Nat) (s : State) : State :=
  each (ctx s d node).unacked (fun f t =>
    t |> transmit d node { f with retx := true } |> addCount d .FPC 2 1
      |> onCtx d node (fun c => { c with retx := satAdd 16 c.retx 1 })
      |> postLim d 0 ⟨0x0206, sevCorrected, locDie d, [], none, none⟩ []) s

/-! ### Requests to peers (R271, R276) -/

/-- The requests of a port in flight, over all its peers. -/
def inFlight (s : State) (d : Die) : Nat := ((die s d).fpc.ctxs.map (fun p => p.2.reqs.length)).foldl (· + ·) 0

/-- The port that a request to a node leaves through: that of the issuing die, else the other (R271). -/
def outPort (s : State) (d : Die) (node : Nat) : Option Die := [d, otherDie d].find? (fun p => fabPresent s p && ctxUp s p node)

/-- Send a request now. -/
def startReq (p : Die) (w : WaitReq) (s : State) : State :=
  let tag := (ctx s p w.node).nextTag
  let s1 := onCtx p w.node (fun c => { c with reqs := c.reqs ++ [{ w.req with tag := tag }], nextTag := (tag + 1) % 65536 }) s
  each w.frames (fun f => sendSeq p w.node { f with tag := tag }) s1

/-- Issue a request to a peer: whether a context is UP for it (R271, R281). -/
def peerIssue (d : Die) (node : Nat) (req : PeerReq) (frames : CtxSt → List Frame) (s : State) : Bool × State :=
  match outPort s d node with
  | none => (false, s)
  | some p =>
    let w : WaitReq := ⟨node, req, frames (ctx s p node)⟩
    let s0 := onlyIf (p != d) (fun t => t |> signalDie d 0x0380 1 |> signalDie p 0x0380 1) s
    if inFlight s p < 8192 then (true, startReq p w s0) else (true, onFpc p (fun x => { x with outq := x.outq ++ [w] }) s0)

/-- A read of lines of a peer: OP READ_REQ or T2_GET. -/
def peerRead (d : Die) (node op dla lines : Nat) (w : Waiter) (s : State) : Bool × State :=
  peerIssue d node ⟨0, op, w, dla, 64 * lines, []⟩ (fun _ => [{ frame0 op 0 dla with len := 64 * lines }]) s

/-- A write of lines to a peer: OP WRITE_REQ or T2_PUT. -/
def peerWrite (d : Die) (node op dla : Nat) (ls : List LineData) (w : Waiter) (s : State) : Bool × State :=
  peerIssue d node ⟨0, op, w, dla, 64 * ls.length, []⟩ (fun c => lineFrames op 0 0 (ctxLines c) 65 dla ls) s

/-- A request of a context has ended: whoever waits is told before the step ends, and a request that waited may go. -/
def peerEnd (p : Die) (node status : Nat) (r : PeerReq) (s : State) : State :=
  let s1 := onCtx p node (fun c => { c with reqs := c.reqs.filter (fun (q : PeerReq) => q.tag != r.tag) }) s
  let s2 := later (.peer r.waiter status r.got node) s1
  match (die s2 p).fpc.outq with
  | w :: ws => startReq p w (onFpc p (fun x => { x with outq := ws }) s2)
  | [] => s2

/-- Every request of a context that is in flight, or waits to be sent, fails with a status; how many. -/
def failAll (p : Die) (node status : Nat) (s : State) : Nat × State :=
  let waits := (die s p).fpc.outq.filter (fun (w : WaitReq) => w.node == node)
  let s1 := onFpc p (fun x => { x with outq := x.outq.filter (fun (w : WaitReq) => w.node != node) }) s
  let s2 := each waits (fun w => later (.peer w.req.waiter status [] node)) s1
  let rs := (ctx s2 p node).reqs
  (rs.length + waits.length, each rs (fun r => peerEnd p node status { r with got := [] }) s2)

/-- A context ends its session: its frames and what a peer has partly sent are dropped, and its requests fail (R278, R280). -/
def endSession (p : Die) (node status : Nat) (st : CtxState) (s : State) : Nat × State :=
  let (n, s1) := failAll p node status s
  (n, onCtx p node (fun c => { c with st := st, unacked := [], waiting := [], held := [], part := none, timeouts := 0, unreported := 0 }) s1)

/-- A context becomes UNREACHABLE (R278). -/
def unreach (p : Die) (node cause : Nat) (s : State) : State :=
  let c := ctx s p node
  if c.st = .up ∨ c.st = .connecting then
    let (n, s1) := endSession p node 8 .unreachable s
    s1 |> setFlag F.FPC_STATUS.PEER_LOST p 0
       |> post p ⟨0x0204, sevUncorrected, locDie p, [it2 node, it1 (Config.detailCode 0x0204 cause), it4 n], none, none⟩
  else s

/-! ### Sessions (R273, R280) -/

/-- Whether a die may start a session: not a junior whose DRBG has stopped (R181). -/
def maySession (s : State) (d : Die) : Bool := d == seniorDie s || !(die s d).drbgStopped

/-- Send a HELLO with a new session number and a first sequence number at random (R273). -/
def sendHello (d : Die) (node : Nat) (s : State) : State :=
  if maySession s d = false ∨ canSend s d node = false then s
  else
    let (v, s1) := takeFree s
    let q := v.toNat % 2 ^ 24
    let n := ((ctx s d node).session + 1) % 16
    transmit d node { frame0 0x0C 0 n with seq := q } (onCtx d node (fun c => { c with session := n, nextSeq := q }) s1)

/-- A context comes UP. -/
def ctxComesUp (d : Die) (node expect : Nat) (s : State) : State :=
  s |> onCtx d node (fun c => { c with st := .up, expect := expect, held := [], timeouts := 0, heardNs := s.nowNs })
    |> post d ⟨0x0203, sevInfo, locDie d, [it2 node, it1 (ctx s d node).session], none, none⟩

/-- A HELLO from a peer (R273, R280, Table 11.6). -/
def takeHello (d : Die) (node : Nat) (f : Frame) (s : State) : State :=
  let c := ctx s d node
  if maySession s d = false then s
  else if c.st = .connecting ∧ nodeId s < node then s
  else if c.st = .up ∧ f.arg % 16 = c.session then s
  else
    let was := c.st
    let (n, s1) := endSession d node 7 .connecting s
    let (v, s2) := takeFree s1
    let q := v.toNat % 2 ^ 24
    s2 |> onlyIf (was == .up) (post d ⟨0x0205, sevCorrected, locDie d, [it2 node, it4 n], none, none⟩)
       |> onCtx d node (fun c => { c with session := f.arg % 16, nextSeq := q })
       |> ctxComesUp d node f.seq
       |> transmit d node { frame0 0x0D 0 (f.arg % 16) with seq := q }

/-- A HELLO_ACK for the session that the context has offered (R273). -/
def takeHelloAck (d : Die) (node : Nat) (f : Frame) (s : State) : State :=
  let c := ctx s d node
  if (c.st = .connecting ∨ c.st = .unreachable) ∧ f.arg % 16 = c.session then ctxComesUp d node f.seq s else s

end Sys2Proof.Machine
end

