-- ==== Sys2Proof/Machine/Serve.lean ====
section
/-!
DEFINITION. Sys2Proof/Machine/Serve.lean: frames as they arrive (R265, R267, R272), the answers of peers (R277), and the requests
that the device serves for peers (R275, R276).
-/

namespace Sys2Proof.Machine

/-! ### Serving a peer's request -/

/-- Whether a range breaks R268: DLA and length multiples of 64, within one page. -/
def badRange (dla len : Nat) : Bool :=
  decide (dla % 64 ≠ 0) || decide (len % 64 ≠ 0) || decide (len = 0) || decide (dla / 4096 ≠ (dla + len - 1) / 4096)

/-- The status of Table 11.4 that the mode alone gives a request. -/
def modeStatus (s : State) : Nat := if s.dev.mode = .sanitize then 6 else if serving s then 0 else 9

/-- Send the response of a request, where its session still stands: with data or, where it failed or was a write, without. -/
def respond (d : Die) (node session op tag status dla : Nat) (ls : List LineData) (s : State) : State :=
  let c := ctx s d node
  if c.st = .up ∧ c.session = session then
    let fs := if ls.isEmpty then [{ frame0 (op + 1) tag 0 with status := status }] else lineFrames (op + 1) tag status (ctxLines c) 65 dla ls
    each fs (sendSeq d node) s
  else s

/-- The request for line k of a peer's request. -/
def peerReq (s : State) (d : Die) (id k n dla : Nat) (kind : ReqKind) (l : LineData) : MemReq :=
  { asker := .peer id k, kind := kind, issuer := d, port := fabPort d, agent := none, metaS := false, region := n, attr := rgAttr s n,
    dla := dla, data := l, mask := BitVec.allOnes 64, track := none }

/-- Change a served request. -/
def onServe (id : Nat) (f : ServeSt → ServeSt) (s : State) : State := { s with serves := nupd s.serves id f }

/-- A number that no other request served has. -/
def freshId (s : State) : Nat × State := (s.seq + 1, { s with seq := s.seq + 1 })

/-- READ_REQ and T2_GET (R275). -/
def serveRead (d : Die) (node : Nat) (f : Frame) (s : State) : State :=
  let c := ctx s d node
  let n := f.len / 64
  let fail := fun (st : Nat) (t : State) => respond d node c.session f.op f.tag st f.arg [] t
  if badRange f.arg f.len ∨ (f.op = 9 ∧ f.len ≠ 4096) then fail 3 s
  else if modeStatus s ≠ 0 then fail (modeStatus s) s
  else
    match peerDecode d f.arg false s with
    | (.denied, t) => fail 6 t
    | (.unmapped, t) => respond d node c.session f.op f.tag 5 f.arg (List.replicate n poisoned) t
    | (.take r, t) =>
      let (id, t1) := freshId t
      let t2 := { t1 with serves := nset t1.serves id ⟨d, node, c.session, f.op, f.tag, f.arg, n, [], true, 0⟩ }
      each (List.range n) (fun k u => later (.present (peerReq u d id k r (f.arg + 64 * k) .rdNC ⟨0, false⟩)) u) t2

/-- The lines of one frame of a WRITE_REQ or T2_PUT are written as it is taken (R275). -/
def serveLines (d : Die) (id : Nat) (v : ServeSt) (size : Nat) (f : Frame) (s : State) : State :=
  if v.status ≠ 0 then s
  else if badRange f.arg f.len ∨ f.arg ≠ v.dla + 64 * v.lines ∨ f.arg / 4096 ≠ v.dla / 4096 ∨ (f.more ∧ f.len ≠ size) then
    onServe id (fun x => { x with status := 3 }) s
  else
    match peerDecode d f.arg true s with
    | (.take n, t) =>
      let ls := frameLines f
      each ls.zipIdx (fun p u => later (.present (peerReq u d id (v.lines + p.2) n (f.arg + 64 * p.2) .wr p.1)) u)
        (onServe id (fun x => { x with lines := v.lines + ls.length }) t)
    | (_, t) => onServe id (fun x => { x with status := 6 }) t

/-- WRITE_REQ and T2_PUT (R275). -/
def serveWrite (d : Die) (node : Nat) (f : Frame) (s : State) : State :=
  let c := ctx s d node
  let size := if c.big then 4096 else 1024
  let (id, s1) := match c.part with
    | some p => (p.id, s)
    | none =>
      let (id, t) := freshId s
      (id, { t with serves := nset t.serves id ⟨d, node, c.session, f.op, f.tag, f.arg, 0, [], false, modeStatus t⟩ })
  match nget s1.serves id with
  | none => s1
  | some v =>
    let s2 := serveLines d id v size f s1
    if f.more then onCtx d node (fun x => { x with part := some ⟨f.op, f.tag, f.arg, id, [], false⟩ }) s2
    else
      s2 |> onServe id (fun x => { x with closed := true, status := if f.op = 7 ∧ x.status = 0 ∧ x.lines ≠ 64 then 3 else x.status })
         |> onCtx d node (fun x => { x with part := none }) |> later (.served id)

/-- ENQ_REQ: the packet's frames are gathered, and the packet goes to the Queue Engine (R275). -/
def serveEnq (d : Die) (node : Nat) (f : Frame) (s : State) : State :=
  let c := ctx s d node
  let p : PeerPart := match c.part with
    | some p => p
    | none => ⟨5, f.tag, f.arg, modeStatus s, [], false⟩
  let p1 := { p with bytes := p.bytes ++ f.payload, poison := p.poison || f.mask.isSome }
  if f.more then onCtx d node (fun x => { x with part := some p1 }) s
  else
    let s1 := onCtx d node (fun x => { x with part := none }) s
    if p1.id ≠ 0 then respond d node c.session 5 f.tag p1.id 0 [] s1
    else later (.enq ⟨d, node, c.session, f.tag, fld p1.arg 0 18, fld p1.arg 18 3, fld p1.arg 32 16, p1.poison, p1.bytes⟩) s1

/-- Every line of a served request has been done: the one response, or the response frames (R275). -/
def serveDone (id : Nat) (s : State) : State :=
  match nget s.serves id with
  | none => s
  | some v =>
    if v.closed ∧ v.lines ≤ v.got.length then
      let s1 := { s with serves := nerase s.serves id }
      if v.op = 1 ∨ v.op = 9 then
        let ls := (List.range v.lines).map (fun k => ngetD v.got k poisoned)
        respond v.port v.node v.session v.op v.tag (if ls.any (·.poison) then 5 else 0) v.dla ls s1
      else respond v.port v.node v.session v.op v.tag v.status 0 [] s1
    else s

/-! ### The answers of peers (R277) -/

/-- A response frame for the request of its tag: a response to a request that has already failed is discarded (R281). -/
def takeResponse (d : Die) (node : Nat) (f : Frame) (s : State) : State :=
  match (ctx s d node).reqs.find? (fun (r : PeerReq) => r.tag == f.tag && r.op + 1 == f.op) with
  | none => s
  | some r =>
    let r1 := { r with got := r.got ++ frameLines f }
    if f.more ∧ (f.status = 0 ∨ f.status = 5) then
      onCtx d node (fun c => { c with reqs := c.reqs.map (fun (q : PeerReq) => if q.tag = r.tag then r1 else q) }) s
    else peerEnd d node (if f.status = 0 ∧ r1.got.any (·.poison) then 5 else f.status) r1 s

/-- Execute a frame taken in its order. -/
def takeFrame (d : Die) (node : Nat) (f : Frame) (s : State) : State :=
  if f.op = 1 ∨ f.op = 9 then serveRead d node f (addCount d .FPC 8 1 s)
  else if f.op = 3 ∨ f.op = 7 then serveWrite d node f (onlyIf (!f.more) (addCount d .FPC 8 1) s)
  else if f.op = 5 then serveEnq d node f (onlyIf (!f.more) (addCount d .FPC 8 1) s)
  else takeResponse d node f s

/-! ### Arrival -/

/-- The operations of Table 11.3 that are sequenced. -/
def sequenced (op : Nat) : Bool := decide (1 ≤ op) && decide (op ≤ 10)

/-- Take the frame of the expected sequence number, then those held that follow without a gap (R272). -/
def takeHeld (d : Die) (node : Nat) : Nat → State → State
  | 0, s => s
  | fuel + 1, s =>
    let c := ctx s d node
    match nget c.held c.expect with
    | none => s
    | some f =>
      takeHeld d node fuel (takeFrame d node f
        (onCtx d node (fun c => { c with held := nerase c.held c.expect, expect := (c.expect + 1) % 2 ^ 24 }) s))

/-- The bytes in a die's reorder store: the payloads of the frames that its contexts hold (DEDUCED, log entry 92). -/
def storeBytes (s : State) (d : Die) : Nat :=
  ((die s d).fpc.ctxs.map (fun p => (p.2.held.map (fun q => q.2.payload.length)).foldl (· + ·) 0)).foldl (· + ·) 0

/-- An arrival to be reported (R272). -/
def arrived (d : Die) (node : Nat) : State → State := onCtx d node (fun c => { c with unreported := c.unreported + 1 })

/-- An ACK goes out at once when 16 arrivals are unreported (R272). -/
def ackDue (d : Die) (node : Nat) (s : State) : State := onlyIf (decide (16 ≤ (ctx s d node).unreported)) (sendAck d node) s

/-- A sequenced frame of a session arrives (R272). -/
def seqArrive (d : Die) (node : Nat) (f : Frame) (s : State) : State :=
  let c := ctx s d node
  let k := seqDist c.expect f.seq
  if k = 0 then
    s |> arrived d node |> onCtx d node (fun c => { c with expect := (c.expect + 1) % 2 ^ 24 }) |> takeFrame d node f |> takeHeld d node 64
      |> ackDue d node
  else if seqBefore f.seq c.expect ∨ (nget c.held f.seq).isSome then sendAck d node (addCount d .FPC 4 1 s)
  else if 64 < k then addCount d .FPC 5 1 s
  else if storeBytes s d + f.payload.length ≤ 2 ^ 21 then
    s |> onCtx d node (fun c => { c with held := nset c.held f.seq f }) |> arrived d node |> ackDue d node
  else s |> addCount d .FPC 5 1 |> setFlag F.FPC_STATUS.REORDER_FULL d 0

/-- The first check of R267 that a frame fails. -/
def badFrame (s : State) (d : Die) (f : Frame) (sciOk : Bool) : Option Nat :=
  let node := f.src % 4096
  let c := ctx s d node
  let asks := f.op == 1 || f.op == 9
  if f.ver ≠ 1 then some 0
  else if !(sequenced f.op || f.op == 0 || f.op == 0x0C || f.op == 0x0D || f.op == 0x0E) then some 1
  else if f.dst % 8192 ≠ nodeId s + 4096 * dieNum d then some 2
  else if c.en = false ∨ sciOk = false ∨ fld f.src 12 1 ≠ c.port then some 3
  else if !asks && decide (64 * ctxLines c < f.len) then some 4
  else if !asks && decide (f.payload.length < f.len) then some 5
  else if f.rsv ∨ 8192 ≤ f.dst ∨ 8192 ≤ f.src then some 6 else none

/-- A frame has passed MACsec (R267, R272, R273). -/
def accept (d : Die) (f : Frame) (sciOk : Bool) (s0 : State) : State :=
  let s := addCount d .FPC 1 1 s0
  let node := f.src % 4096
  match badFrame s d f sciOk with
  | some k =>
    s |> addCount d .FPC 7 1 |> setFlag F.FPC_STATUS.BAD_FRAME d 0
      |> postLim d 0 ⟨0x0208, sevInfo, locDie d, [it1 (Config.detailCode 0x0208 k)], none, none⟩ []
  | none =>
    let heard := onCtx d node (fun c => { c with heardNs := s.nowNs }) s
    if f.op = 0x0C then takeHello d node f heard
    else if f.op = 0x0D then takeHelloAck d node f heard
    else if (ctx s d node).st ≠ .up ∨ f.session ≠ (ctx s d node).session then addCount d .FPC 7 1 s
    else
      let s1 := takeAck d node f heard
      if sequenced f.op then seqArrive d node f s1 else s1

/-- A frame fails its MACsec check (R265). -/
def macsecDrop (d : Die) (s : State) : State :=
  s |> addCount d .FPC 6 1 |> setFlag F.FPC_STATUS.MACSEC_DROP d 0 |> postLim d 0 ⟨0x0207, sevInfo, locDie d, [], none, none⟩ []

/-- A MACsec frame arrives on a fabric port: `sciOk` is whether its SCI is of the peer that it names, `macBad` whether its check
fails; an injection on received frames acts first (R283). -/
def rxFrame (d : Die) (f : Frame) (sciOk macBad : Bool) (s : State) : State :=
  let node := f.src % 4096
  if canReceive s d node = false then s
  else if macBad then macsecDrop d s
  else
    match (die s d).fpc.swapped with
    | some h =>
      if h.rx ∧ h.node = node then accept d h.frame h.sciOk (accept d f sciOk (onFpc d (fun x => { x with swapped := none }) s))
      else accept d f sciOk s
    | none =>
      match injTake d true node f.op s with
      | (none, t) => accept d f sciOk t
      | (some 0, t) => t
      | (some 1, t) => macsecDrop d t
      | (some 2, t) => accept d f sciOk (accept d f sciOk t)
      | (some 3, t) => onFpc d (fun x => { x with swapped := some ⟨true, node, f, sciOk⟩ }) t
      | (some _, t) => onFpc d (fun x => { x with delayed := x.delayed ++ [⟨true, node, f, sciOk⟩] }) t

end Sys2Proof.Machine
end

