-- ==== Sys2Proof/Machine/Tme.lean ====
section
/-!
DEFINITION. Sys2Proof/Machine/Tme.lean: the Tiering and Migration Engine (chapter 6): page map entries (R141, R142), heat (R147),
frames, sectors and pool pages (R142, R175 to R177), and moves with their placement epochs (R149 to R154).
-/

namespace Sys2Proof.Machine

/-! ### The page map -/

/-- The TME of a die. -/
def tme (s : State) (d : Die) : TmeSt := (die s d).tme

/-- Change the TME of a die. -/
def onTme (d : Die) (f : TmeSt → TmeSt) : State → State := onDie d (fun x => { x with tme := f x.tme })

/-- The number of the page map entry of a DLA of a tiered region (R141). -/
def pageKey (s : State) (n dla : Nat) : Nat := rg s F.RGN_MAP.MAP_G n * 262144 + (dla / 4096 - rg s F.RGN_RANGE.BASE n * 262144)

/-- What an unlisted entry is: blank (R142), or LOST in a run that a switch of mapping lost (R155). -/
def pageUnlisted (t : TmeSt) (key : Nat) : PageEnt :=
  if t.lostRuns.any (fun p => decide (p.1 ≤ key) && decide (key < p.1 + p.2)) then { PageEnt.blank with tier := 5 } else PageEnt.blank

/-- A page map entry: one whose map line was read as poison is LOST (DESIGN CHOICE, log entry 131). -/
def pageEnt (s : State) (d : Die) (key : Nat) : PageEnt :=
  if (tme s d).unread.contains key then { PageEnt.blank with tier := 5 } else ngetD (tme s d).pages key (pageUnlisted (tme s d) key)

/-- An entry as the map has it. -/
def putPage (key : Nat) (e : PageEnt) (t : TmeSt) : TmeSt :=
  { t with pages := if e = pageUnlisted t key then nerase t.pages key else nset t.pages key e, unread := t.unread.filter (· != key) }

/-- Change a page map entry in the cache, which has to be written back then (R143). -/
def setPage (d : Die) (key : Nat) (e : PageEnt) : State → State := onTme d (fun t => { putPage key e t with cached := nset t.cached key true })

/-- Tiers (Table 6.2). -/
def tZero : Nat := 0
def tT0 : Nat := 1
def tT1 : Nat := 2
def tT2 : Nat := 3
def tPattern : Nat := 4
def tLost : Nat := 5

/-- The present heat epoch of a die, modulo 256 (R147). -/
def heatEpoch (s : State) (d : Die) : Nat := rf s F.TME_STATUS.EPOCH d 0

/-- The effective heat of an entry at an epoch (R147). -/
def effHeat (e : PageEnt) (ep : Nat) : Nat :=
  let k := (ep + 256 - e.hstamp) % 256
  if 4 ≤ k then 0 else e.heat >>> k

/-- A sampled access updates an entry's heat (R147). -/
def heatUp (e : PageEnt) (ep : Nat) : PageEnt := { e with heat := min (effHeat e ep + 1) 15, hstamp := ep }

/-- Count a host or fabric access to a tiered page: every 16th updates its entry (R147). -/
def countAccess (d : Die) (key : Nat) (s : State) : State :=
  let n := (tme s d).accesses + 1
  let s1 := onTme d (fun t => { t with accesses := n % 16 }) s
  if n = 16 then setPage d key (heatUp (pageEnt s1 d key) (heatEpoch s1 d)) s1 else s1

/-! ### Entries and bitmaps in memory (R141, R142) -/

/-- The sixteen bytes of an entry (Table 6.2). -/
def pageBits (e : PageEnt) : Nat :=
  e.tier + 8 * b2n e.moving + 16 * b2n e.pin + 32 * b2n e.incomp + e.heat * 2 ^ 8 + e.hstamp * 2 ^ 16 + e.iepoch * 2 ^ 24 + e.epoch * 2 ^ 32 +
    (if e.tier = 2 then e.cls * 2 ^ 40 + e.place * 2 ^ 64
     else if e.tier = 3 then e.node * 2 ^ 64 + e.place * 2 ^ 76
     else if e.tier = 1 ∨ e.tier = 4 then e.place * 2 ^ 64 else 0)

/-- The entry that sixteen bytes spell: TIER 6 and 7 are read as LOST. -/
def pageOf (v : Nat) : PageEnt :=
  let tier := min 5 (fld v 0 3)
  { tier := tier, moving := bitn v 3, pin := bitn v 4, incomp := bitn v 5, heat := fld v 8 4, hstamp := fld v 16 8, iepoch := fld v 24 8,
    epoch := fld v 32 8, cls := if tier = 2 then fld v 40 2 else 0, node := if tier = 3 then fld v 64 12 else 0,
    place := if tier = 1 then fld v 64 29 else if tier = 2 then fld v 64 33 else if tier = 3 then fld v 76 31 else if tier = 4 then fld v 64 64 else 0 }

/-- The home line index of the map line of an entry. -/
def mapHome (s : State) (d : Die) (key : Nat) : Nat := dieNum d * 2 ^ 35 + mapBase s d + key / 4

/-- Write the map line of an entry back: its four entries as the TME has them (R143; DESIGN CHOICE, log entry 131). -/
def writeEntry (d : Die) (key : Nat) (s : State) : State :=
  let es := (List.range 4).flatMap (fun j => leBytes 16 (pageBits (pageEnt s d (key / 4 * 4 + j))))
  putMeta d (mapHome s d key) (lineOf es) false (onTme d (fun t => { t with cached := nupd t.cached key (fun _ => false) }) s)

/-- A line of 512 bits by whether each is set. -/
def bitLine (f : Nat → Bool) : Line := BitVec.ofNat 512 ((List.range 512).foldl (fun v j => v + b2n (f j) * 2 ^ j) 0)

/-- The tiered region whose backing on a die holds a frame. -/
def frameRegion (s : State) (d : Die) (f : Nat) : Option Nat :=
  (List.range 64).find? (fun n => (rg s F.RGN_CTRL.ENABLE n == 1 || rg s F.RGN_CTRL.BUSY n == 1) && atTiered (rgAttr s n) && atHome (rgAttr s n) == d &&
    decide (rg s F.RGN_PLACE.DPA_G n * 262144 ≤ f) && decide (f < (rg s F.RGN_PLACE.DPA_G n + rg s F.RGN_PLACE.BACK_GIB n) * 262144))

/-- Write the line of a backing's frame bitmap that has the bit of a frame (R141). -/
def putFrameBit (d : Die) (f : Nat) (s : State) : State :=
  match frameRegion s d f with
  | none => s
  | some n =>
    let f0 := rg s F.RGN_PLACE.DPA_G n * 262144
    let k := (f - f0) / 512
    putMeta d (dieNum d * 2 ^ 35 + f0 * 64 + k) (bitLine (fun j => (nget (tme s d).frames (f0 + 512 * k + j)).isSome)) false s

/-- Write the line of the T2 pool bitmap that has the bit of a pool page (R141). -/
def putPoolBit (d : Die) (k : Nat) (s : State) : State :=
  putMeta d (dieNum d * 2 ^ 35 + poolBase s d + k / 512) (bitLine (fun j => (nget (tme s d).pool (512 * (k / 512) + j)).isSome)) false s

/-! ### The page map cache (R143) -/

/-- The ways and sets of the page map cache: 64 Ki entries in 8 ways. An entry's set is its number modulo the sets (DESIGN CHOICE, log entry 131). -/
def mapWays : Nat := 8
def mapSets : Nat := 8192
def mapSet (key : Nat) : Nat := key % mapSets

/-- Whether the page map cache holds an entry. -/
def cachedEntry (s : State) (d : Die) (key : Nat) : Bool := (nget (tme s d).cached key).isSome

/-- Whether an entry is never evicted: its page is moving, or requests that have looked it up are not done with its placement (R143, R150). -/
def entryHeld (s : State) (d : Die) (key : Nat) : Bool :=
  let e := pageEnt s d key
  let mine := fun (r : MemReq) => atTiered r.attr && atHome r.attr == d && pageKey s r.region r.dla == key
  e.moving || s.ops.any (fun p => p.2.page == some (d, key, e.epoch)) || (tme s d).starved.any mine ||
    (tme s d).moves.any (fun p => p.2.page == key && p.2.waiting.any mine)

/-- The entries that the cache holds in the set of an entry. -/
def setEntries (s : State) (d : Die) (key : Nat) : List Nat := ((tme s d).cached.map (·.1)).filter (fun k => mapSet k == mapSet key)

/-- The reads under way for entries of a set. -/
def setLoads (s : State) (d : Die) (key : Nat) : Nat :=
  (s.ops.filter (fun p => match p.2.job with
    | .map x k => x == d && mapSet k == mapSet key
    | _ => false)).length

/-- Whether a way of an entry's set is, or can be made, free for it. -/
def wayFree (s : State) (d : Die) (key : Nat) : Bool :=
  decide (((setEntries s d key).filter (entryHeld s d)).length + setLoads s d key < mapWays)

/-- Make a way of an entry's set free: of the entries not held a free value chooses the one that goes, written back where it has changed (R143,
log entry 6). -/
def freeMapWay (d : Die) (key : Nat) (s : State) : State :=
  if (setEntries s d key).length < mapWays then s
  else
    let (v, s1) := takeFree s
    let ks := (setEntries s d key).filter (fun k => !(entryHeld s d k))
    match ks[v.toNat % ks.length]? with
    | none => s1
    | some k => onTme d (fun t => { t with cached := nerase t.cached k }) (onlyIf ((nget (tme s d).cached k).getD false) (writeEntry d k) s1)

/-- The map line of an entry has come: the entry comes into the cache as the line has it. A line that nothing has written holds what its entries
are unlisted; one read as poison tells none of its entries. -/
def entryCame (d : Die) (key : Nat) (l : LineData) (s : State) : State :=
  let v := decMeta s (mapHome s d key) l.line
  let line := (List.range 4).map (fun j => key / 4 * 4 + j)
  let put := fun (t : TmeSt) =>
    if l.poison then { t with unread := t.unread ++ line.filter (fun k => (nget t.cached k).isNone && !(t.unread.contains k)) }
    else if l.line = 0 then { t with pages := nerase t.pages key, unread := t.unread.filter (· != key) }
    else putPage key (pageOf (lineNum v (key % 4 * 16) 16)) t
  s |> freeMapWay d key |> onTme d (fun t => { put t with cached := nset t.cached key false })

/-- What has waited for ways of the cache of a die is tried again. -/
def wakeFull (d : Die) (s : State) : State := each (tme s d).full (fun p => later p.2) (onTme d (fun t => { t with full := [] }) s)

/-- Bring an entry into the page map cache, and let what needs it wait: by one read of its map line, under port tag TME; or, where every way of
its set is held, until one becomes free (R27, R143; log entry 129). -/
def askEntry (d : Die) (key n dla : Nat) (t : Todo) (s : State) : State :=
  match s.ops.find? (fun p => p.2.job == .map d key) with
  | some p => { s with ops := nupd s.ops p.1 (fun o => { o with after := o.after ++ [t] }) }
  | none =>
    if wayFree s d key = false then onTme d (fun x => { x with full := x.full ++ [(key, t)] }) s
    else
      let h := mapHome s d key
      let a := rgAttr s n
      let id := s.seq + 1
      let o : OpSt := { asker := .nobody, job := .map d key, port := .tme, region := n, attr := a, dla := dla, cmp := .plain, track := none, page := none,
                        want := [0], got := [], after := [t] }
      match placeOf s h with
      | none => later t (entryCame d key ⟨0, true⟩ s)
      | some (_, i, loc) =>
        submit d (mkRead .tme i loc h (classOf s d i .tme a) true 0xFF 0 LineMeta.blank (.op id 0)) { s with seq := id, ops := nset s.ops id o }

/-- Look an entry up in the page map cache for a request; a hit or a miss is counted once for it (Table 18.1). -/
def lookEntry (d : Die) (hit : Bool) (looked : Bool) (s : State) : State := onlyIf (!looked) (signalDie d (if hit then 0x0680 else 0x0681) 1) s

/-! ### Frames, sectors, pool pages -/

/-- The first allocatable frame of a region's backing, beyond its frame bitmap (R141), and the end of the frames that it has on
the die as it stands (R155). -/
def frameLo (s : State) (n : Nat) : Nat := rg s F.RGN_PLACE.DPA_G n * 262144 + 8 * rg s F.RGN_PLACE.BACK_GIB n
def frameHi (s : State) (d : Die) (n : Nat) : Nat :=
  min ((rg s F.RGN_PLACE.DPA_G n + rg s F.RGN_PLACE.BACK_GIB n) * 262144) (freeTop s d / 64)

/-- The tiered regions homed on a die. -/
def tieredOn (s : State) (d : Die) : List Nat :=
  (List.range 64).filter (fun n => rgLive s n && atTiered (rgAttr s n) && atHome (rgAttr s n) == d)

/-- The free frames of a die, over all backings (TME_FREE_FRAMES). -/
def freeFrames (s : State) (d : Die) : Nat :=
  ((tieredOn s d).map (fun n =>
    let lo := frameLo s n
    let hi := frameHi s d n
    (hi - lo) - ((tme s d).frames.filter (fun p => decide (lo ≤ p.1) && decide (p.1 < hi))).length)).foldl (· + ·) 0

/-- The limit below which free frames are low (R145). -/
def lowFrames (s : State) (d : Die) : Nat := rf s F.TME_POOL_CFG.LOW_FRAMES d 0 * 256

/-- Frame pressure ends once free frames exceed twice the limit (R145). -/
def frameEase (d : Die) (s : State) : State :=
  if (tme s d).pressure ∧ 2 * lowFrames s d < freeFrames s d then onTme d (fun t => { t with pressure := false }) s else s

/-- Frame pressure after free frames have become fewer (R145). -/
def framePressure (d : Die) (s : State) : State :=
  let n := freeFrames s d
  if (tme s d).pressure = false ∧ n < lowFrames s d ∧ tieredOn s d ≠ [] then
    s |> onTme d (fun t => { t with pressure := true }) |> setFlag F.TME_STATUS.FRAMES_LOW d 0
      |> post d ⟨0x0603, sevInfo, locDie d, [it4 n], none, none⟩
  else s

/-- Take the lowest free frame of a region's backing. -/
def takeFrame0 (d : Die) (n mask : Nat) (s : State) : Option (Nat × State) :=
  let f := lowGap (tme s d).frames (frameLo s n)
  if f < frameHi s d n then
    some (f, framePressure d (putFrameBit d f (onTme d (fun t => { t with frames := nset t.frames f mask }) s))) else none

/-- The jobs of a die's TME may go on. -/
def wakeJobs (d : Die) (s : State) : State := each ((tme s d).jobs.map (·.1)) (fun id => later (.job d id)) s

/-- The writes that wait for a frame are tried again (R145), and so are the jobs. -/
def wakeStarved (d : Die) (s : State) : State :=
  wakeFull d (wakeJobs d (each (tme s d).starved (fun r => later (.carry r)) (onTme d (fun t => { t with starved := [] }) s)))

/-- Change a job. -/
def onJob (d : Die) (id : Nat) (f : TmeJob → TmeJob) : State → State := onTme d (fun t => { t with jobs := nupd t.jobs id f })

/-- A move that a job started has been committed, or aborted (R162). -/
def jobTold (d : Die) (why : MoveWhy) (done : Bool) (s : State) : State :=
  match why with
  | .job id => s |> onJob d id (fun j => if done then { j with done := j.done + 1 } else { j with skipped := j.skipped + 1 }) |> later (.job d id)
  | .sweep | .write => s

/-- Return a frame to its pool. -/
def freeFrame (d : Die) (f : Nat) (s : State) : State :=
  s |> onTme d (fun t => { t with frames := nerase t.frames f, opened := t.opened.filter (· != f) }) |> putFrameBit d f |> frameEase d |> wakeStarved d

/-- The mask of a sector frame, bit 15 always 1 (R175). -/
def sectorMask (s : State) (d : Die) (f : Nat) : Nat := ngetD (tme s d).frames f 0

/-- The free sectors of a sector frame. -/
def freeSectors (mask : Nat) : Nat := ((List.range 15).filter (fun i => !(bitn mask i))).length

/-- The lowest aligned free run of k sectors in a mask (R175). -/
def freeRunAt (mask k : Nat) : Option Nat :=
  ((List.range 15).filter (fun p => p % k == 0 && decide (p + k ≤ 15))).find? (fun p => (List.range k).all (fun j => !(bitn mask (p + j))))

/-- The mask bits of a run. -/
def runBits (p k : Nat) : Nat := (2 ^ k - 1) * 2 ^ p

/-- The open sector frames of a region's backing, lowest first. -/
def openFrames (s : State) (d : Die) (n : Nat) : List Nat :=
  ((tme s d).frames.map (·.1)).filter (fun f => (tme s d).opened.contains f && decide (frameLo s n ≤ f) && decide (f < frameHi s d n))

/-- The open frame with the fewest free sectors, of equals the one opened first (DESIGN CHOICE, log entry 132). -/
def fullestOpen (s : State) (d : Die) : Option Nat :=
  (tme s d).opened.foldl (fun b f => match b with
    | none => some f
    | some g => if freeSectors (sectorMask s d f) < freeSectors (sectorMask s d g) then some f else some g) none

/-- CMP_CFG.OPEN_MAX as it acts. -/
def openMax (s : State) (d : Die) : Nat := clamp 1 64 (rf s F.CMP_CFG.OPEN_MAX d 0)

/-- The home line index of line k of a frame of a die, and of the first line of a sector. -/
def frameLine (d : Die) (f k : Nat) : Nat := dieNum d * 2 ^ 35 + f * 64 + k
def sectorHome (d : Die) (sect : Nat) : Nat := dieNum d * 2 ^ 35 + sect * 4

/-- Write the record of a sector frame into its sector 15: the mask, 0x01, and zeros (R175). -/
def putRecord (d : Die) (f mask : Nat) (s : State) : State :=
  each (List.range 4) (fun j => putMeta d (frameLine d f (60 + j)) (if j = 0 then lineOf (leBytes 2 mask ++ leBytes 1 1) else 0) false) s

/-- Close the open sector frame with the fewest free sectors: its record is written (R176). -/
def closeFullest (d : Die) (s : State) : State :=
  match fullestOpen s d with
  | some g => putRecord d g (sectorMask s d g) (onTme d (fun t => { t with opened := t.opened.filter (· != g) }) s)
  | none => s

/-- Place a run of k sectors for a region (R176): its first sector. As many open frames are closed as it takes to open one more. -/
def placeRun (d : Die) (n k : Nat) (s : State) : Option (Nat × State) :=
  match (openFrames s d n).find? (fun f => (freeRunAt (sectorMask s d f) k).isSome) with
  | some f =>
    let p := (freeRunAt (sectorMask s d f) k).getD 0
    some (f * 16 + p, onTme d (fun t => { t with frames := nupd t.frames f (fun m => m + runBits p k) }) s)
  | none =>
    match takeFrame0 d n (32768 + runBits 0 k) s with
    | none => none
    | some (f, s1) =>
      let s2 := each (List.range ((tme s1 d).opened.length + 1 - openMax s d)) (fun _ => closeFullest d) s1
      some (f * 16, onTme d (fun t => { t with opened := t.opened ++ [f] }) s2)

/-- Clear the bits of a run of k sectors in a frame's record, as it stands (R177): an empty frame goes back to its pool, and a closed one is reopened
with 8 free sectors or more where fewer than OPEN_MAX are open; the record of one that stays closed is written back. -/
def clearRun (d : Die) (sect k mask : Nat) (s : State) : State :=
  let f := sect / 16
  let m := (List.range k).foldl (fun v j => setFld v (sect % 16 + j) 1 0) mask
  if m % 32768 = 0 then freeFrame d f s
  else
    let open_ := (tme s d).opened
    let s1 := onTme d (fun t => { t with frames := nset t.frames f m }) s
    if open_.contains f then s1
    else if 8 ≤ freeSectors m ∧ open_.length < openMax s d then onTme d (fun t => { t with opened := open_ ++ [f] }) s1
    else putRecord d f m s1

/-- The operation that reads the record of a closed frame. -/
def recordOp (s : State) (d : Die) (f : Nat) : Option Nat :=
  (s.ops.find? (fun p => match p.2.job with
    | .record x sect _ => x == d && sect / 16 == f
    | _ => false)).map (·.1)

/-- Free a run of k sectors (R177): of an open frame at once; of a closed one its record is read from sector 15 first, for one run after the
other. -/
def freeRun (d : Die) (sect k : Nat) (s : State) : State :=
  let f := sect / 16
  if (tme s d).opened.contains f then clearRun d sect k (sectorMask s d f) s
  else match recordOp s d f with
    | some id => { s with ops := nupd s.ops id (fun o => { o with after := o.after ++ [.freeRun d sect k] }) }
    | none =>
      let h := frameLine d f 60
      let n := (frameRegion s d f).getD 0xFF
      let id := s.seq + 1
      let o : OpSt := { asker := .nobody, job := .record d sect k, port := .tme, region := n, attr := 0, dla := 0, cmp := .plain, track := none, page := none,
                        want := [0], got := [] }
      match placeOf s h with
      | none => s
      | some (_, i, loc) =>
        submit d (mkRead .tme i loc h (classOf s d i .tme 0) true 0xFF 0 LineMeta.blank (.op id 0)) { s with seq := id, ops := nset s.ops id o }

/-- The record of a closed frame has come. A run whose frame's record was read as poison is not freed (DESIGN CHOICE, log entry 132). -/
def recordCame (d : Die) (sect k : Nat) (l : LineData) (s : State) : State :=
  if l.poison ∨ (nget (tme s d).frames (sect / 16)).isNone then s
  else clearRun d sect k (lineNum (decMeta s (frameLine d (sect / 16) 60) l.line) 0 2) s

/-- A line of the page map, or the record of a sector frame, has come for an operation: what has waited goes on, or waits for a way of the cache. -/
def opLoaded (n : Nat) (s : State) : State :=
  match nget s.ops n with
  | none => s
  | some o =>
    let s1 := { s with ops := nerase s.ops n }
    let l := ngetD o.got 0 ⟨0, true⟩
    match o.job with
    | .map d key =>
      if (setEntries s1 d key).length < mapWays ∨ (setEntries s1 d key).any (fun k => !(entryHeld s1 d k)) then
        each o.after later (entryCame d key l s1)
      else onTme d (fun t => { t with full := t.full ++ o.after.map (fun x => (key, x)) }) s1
    | .record d sect k => each o.after later (recordCame d sect k l s1)
    | .read | .write | .tier1 _ _ _ _ | .move _ _ | .gather _ _ _ | .merge _ | .rot _ _ _ _ | .node _ _ => s1

/-- The pages of a die's T2 pool (R144). -/
def poolSize (s : State) (d : Die) : Nat := carved s d (rf s F.TME_T2_SIZE.SIZE_G d 0) * 262144

/-- Take the lowest free page of the T2 pool: its DLA page on the peer. A pool that this fills is reported (R148). -/
def takePool (d : Die) (s : State) : Option (Nat × State) :=
  let k := lowGap (tme s d).pool 0
  if k < poolSize s d then
    let s1 := putPoolBit d k (onTme d (fun t => { t with pool := nset t.pool k () }) s)
    some (rf s F.TME_T2_CFG.BASE_G d 0 * 262144 + k,
      onlyIf (decide (poolSize s d ≤ (tme s1 d).pool.length)) (fun t => t |> setFlag F.TME_STATUS.T2_FULL d 0
        |> post d ⟨0x0604, sevInfo, locDie d, [], none, none⟩) s1)
  else none

/-- Free what an entry's placement holds on a die. -/
def freePlacement (d : Die) (e : PageEnt) (s : State) : State :=
  if e.tier = tT0 then freeFrame d e.place s
  else if e.tier = tT1 then freeRun d e.place (2 ^ e.cls) s
  else if e.tier = tT2 then
    let k := e.place - rf s F.TME_T2_CFG.BASE_G d 0 * 262144
    putPoolBit d k (onTme d (fun t => { t with pool := nerase t.pool k }) s)
  else s

/-! ### Lines of frames and sectors -/

/-- Write ciphertext at a home line index. -/
def writeCipher (d : Die) (p : Port) (n a h dla : Nat) (c : Line) (poison : Bool) (w : Why) (s : State) : Bool × State :=
  match placeOf s h with
  | none => (false, s)
  | some (_, i, loc) => (true, submit d (mkWrite p i loc h (classOf s d i p a) (hintOf p a true) n dla c poison w) s)

/-! ### The lines of a page (R173, Table 7.5) -/

/-- Whether the lines of a decoded page are whole, or how the decode failed. -/
inductive Whole where
  | fine | part | header | crc
  deriving DecidableEq, Repr

/-- A whole decode: the lines, how it came out, and the CRC of the header and of the lines. -/
structure Decoded where
  lines : List LineData
  whole : Whole
  want : Nat
  crc : Nat
  deriving DecidableEq, Repr

/-- A decode that gives no line. -/
def Decoded.none (w : Whole) (want crc : Nat) : Decoded := ⟨List.replicate 64 poisoned, w, want, crc⟩

/-- The lines of a T1 page, out of the lines of its sectors as stored: decoded, with the lines of poisoned sectors as poison (Table 7.5). -/
def decodeT1 (s : State) (d : Die) (n a : Nat) (e : PageEnt) (got : NMap LineData) : Decoded :=
  let parts := (List.range (2 ^ e.cls)).map (fun k =>
    let g := (List.range 4).map (fun j => ngetD got (4 * k + j) poisoned)
    if g.any (·.poison) then none else some (sectorBytes s n a (sectorHome d (e.place + k)) g))
  let all := parts.flatMap (fun p => p.getD (List.replicate 256 0))
  match (parts.headD none).bind (fun hd => headerOk hd e.cls) with
  | none => Decoded.none .header 0 0
  | some cs =>
    let held := fun (k : Nat) => (parts.getD k none).isSome
    let ls := (List.range 64).map (fun i =>
      if !(held (lineSector cs i)) then none
      else extractLine cs all (fun k => (k == 0 || k == (offsets cs).1.getD i 0 / 256) && held k) i)
    let out := ls.map (fun o => match o with
      | some l => (⟨l, false⟩ : LineData)
      | none => poisoned)
    let want := fromLe ((all.drop 4).take 2)
    let crc := (crc16 (pageBytes (ls.filterMap id))).toNat
    if !(parts.all (·.isSome)) then ⟨out, .part, want, crc⟩
    else if !(ls.all (·.isSome)) then Decoded.none .header want crc
    else if crc = want then ⟨out, .fine, want, crc⟩ else Decoded.none .crc want crc

/-- The report of a whole decode: counted, and a CRC mismatch posted (Table 7.5). -/
def noteDecode (d : Die) (n dla : Nat) (x : Decoded) (s : State) : State :=
  let s1 := addCount d .CMP 8 1 s
  if x.whole = .crc then
    s1 |> setFlag F.CMP_STATUS.CRC d 0
       |> post d ⟨0x0702, sevUncorrected, locDie d, [it1 n, it6 (dla / 4096 * 4096), it2 x.want, it2 x.crc], some dla, some (bindOf s (rgAttr s n))⟩
  else s1

/-- The lines of a page whose entry tells them all: of PATTERN and ZERO, and of LOST, which are poison. -/
def valueLines (e : PageEnt) : List LineData :=
  List.replicate 64 (if e.tier = tPattern then ⟨patternLine (BitVec.ofNat 64 e.place), false⟩ else if e.tier = tZero then ⟨0, false⟩ else poisoned)

/-! ### Moves (R149 to R154) -/

/-- The slot of a page's move or drain. -/
def moveOf (s : State) (d : Die) (key : Nat) : Option (Nat × MoveSt) := (tme s d).moves.find? (fun p => p.2.page == key)

/-- Change a move slot. -/
def onMove (d : Die) (k : Nat) (f : MoveSt → MoveSt) : State → State := onTme d (fun t => { t with moves := nupd t.moves k f })

/-- TME_STATUS.MOVES as it stands. -/
def syncMoves (d : Die) (s : State) : State :=
  wf F.TME_STATUS.MOVES d 0 ((tme s d).moves.filter (fun p => !p.2.committed)).length s

/-- Take a slot for a move of a page, and set MOVING (R149). -/
def takeSlot (d : Die) (k : Nat) (m : MoveSt) (s : State) : State :=
  s |> onTme d (fun t => { t with moves := nset t.moves k m }) |> setPage d m.page { pageEnt s d m.page with moving := true } |> syncMoves d

/-- The home line index of the first line of a block of a region on a die. -/
def blockHome (s : State) (d : Die) (n k : Nat) : Nat := dieNum d * 2 ^ 35 + rg s F.RGN_PLACE.DPA_G n * 2 ^ 24 + 4 * k

/-- The rotation that is at a block of a region among lines of a die: its slot (R202). -/
def rotAt (s : State) (d : Die) (n lo len : Nat) : Option Nat :=
  (s.rots.find? (fun p => p.2.region == n && (let h := blockHome s d n p.2.block; decide (h < lo + len) && decide (lo < h + 4)))).map (·.1)

/-- A move writes to the block that a rotation is at: what the rotation has read of it is not written back. -/
def rotStale (d : Die) (n h : Nat) (s : State) : State :=
  match rotAt s d n h 1 with
  | some k => { s with rots := nupd s.rots k (fun r => { r with stale := true }) }
  | none => s

/-- An operation whose lines are the destination writes of a move: each entry is a home line index with its ciphertext. -/
def moveWrites (d : Die) (k n dla : Nat) (ws : List (Nat × Line × Bool)) (s : State) : State :=
  let a := rgAttr s n
  let id := s.seq + 1
  let o : OpSt := { asker := .nobody, job := .move d k, port := .tme, region := n, attr := a, dla := dla, cmp := .plain, track := none, page := none,
                    want := List.range ws.length, got := [] }
  let s1 := { s with seq := id, ops := nset s.ops id o }
  each ws.zipIdx (fun p t =>
    let (ok, t1) := writeCipher d .tme n a p.1.1 dla p.1.2.1 p.1.2.2 (.opw id p.2) (rotStale d n p.1.1 (rrmCount d .tme (some d) t))
    if ok then t1 else opGot id p.2 ⟨0, false⟩ t1) s1

/-- Write the 64 lines of a page into a frame (R144). -/
def fillFrame (d : Die) (k n dla f : Nat) (ls : List LineData) (s : State) : State :=
  let a := rgAttr s n
  moveWrites d k n dla (ls.zipIdx.map (fun p => (frameLine d f p.2, sealLine s n a (frameLine d f p.2) p.1.line, p.1.poison))) s

/-- Drop what a move has in flight: its destination writes' operation, and the answer that a peer owes it (R153). -/
def dropMove (d : Die) (k : Nat) (s : State) : State :=
  let gone : Waiter := .move d 64
  let re := fun (r : PeerReq) => if r.waiter = .move d k then { r with waiter := gone } else r
  let port := fun (x : FpcSt) => { x with ctxs := x.ctxs.map (fun p => (p.1, { p.2 with reqs := p.2.reqs.map re })),
                                          outq := x.outq.map (fun (w : WaitReq) => { w with req := re w.req }) }
  { s with ops := s.ops.filter (fun p => p.2.job != .move d k) } |> onFpc .east port |> onFpc .west port

/-- A move ends with no commit: what it had allocated is freed, the page keeps its placement, and the requests that waited go on. -/
def cancelMove (d : Die) (k : Nat) (m : MoveSt) (s : State) : State :=
  s |> dropMove d k |> onTme d (fun t => { t with moves := nerase t.moves k })
    |> setPage d m.page { pageEnt s d m.page with moving := false }
    |> onlyIf m.held (freePlacement d m.dest) |> syncMoves d
    |> each m.waiting (fun r => later (.carry r)) |> jobTold d m.why false |> wakeStarved d

/-- A move aborts (R151, R155, R139): the page is not demoted again in this epoch. -/
def abortMove (d : Die) (k : Nat) (s : State) : State :=
  match nget (tme s d).moves k with
  | none => s
  | some m =>
    if m.committed then s
    else
      s |> onTme d (fun t => { t with spared := t.spared ++ [(m.page, heatEpoch s d)] })
        |> postLim d 0 ⟨0x0601, sevInfo, locDie d, [], none, none⟩ [] |> cancelMove d k m

/-- Commit a move whose destination holds the page (R152). -/
def commitMove (d : Die) (k : Nat) (s : State) : State :=
  match nget (tme s d).moves k with
  | none => s
  | some m =>
    if m.accepted ∧ !m.committed then
      let e := pageEnt s d m.page
      let e1 := { e with tier := m.dest.tier, cls := m.dest.cls, node := m.dest.node, place := m.dest.place, moving := false, pin := m.dest.pin,
                         incomp := m.dest.incomp, iepoch := m.dest.iepoch, epoch := (e.epoch + 1) % 256 }
      s |> setPage d m.page e1 |> writeEntry d m.page |> onMove d k (fun x => { x with committed := true, waiting := [] }) |> syncMoves d
        |> each m.waiting (fun r => later (.carry r)) |> jobTold d m.why (m.dest.tier != m.old.tier) |> wakeFull d
    else s

/-- The requests that still use the old placement of a committed move (R150). -/
def drainCount (s : State) (d : Die) (m : MoveSt) : Nat :=
  (s.ops.filter (fun p => p.2.page == some (d, m.page, m.old.epoch))).length

/-- The drain of a move is over: its old placement is freed, where the page has another, and the slot released (R154). -/
def drainMove (d : Die) (k : Nat) (s : State) : State :=
  match nget (tme s d).moves k with
  | none => s
  | some m =>
    if m.committed ∧ drainCount s d m = 0 then
      s |> onTme d (fun t => { t with moves := nerase t.moves k }) |> onlyIf (m.dest.tier != m.old.tier) (freePlacement d m.old) |> syncMoves d |> wakeStarved d
    else s

/-- A free move slot: at most 64 moves are in flight per die (R148), and in salvage none starts (R155). -/
def freeSlot (s : State) (d : Die) : Option Nat := if (die s d).sru.salvage.isSome then none else nfree (tme s d).moves 64

/-- Whether a page may start a move (R149). -/
def movable (s : State) (d : Die) (key : Nat) : Bool := (moveOf s d key).isNone && (freeSlot s d).isSome

/-- What came of an attempt to start a move. -/
inductive Started where
  | yes | noFrame | noPool | busy
  deriving DecidableEq, Repr

/-- The reads of a page in T0 that a move makes: requests of the engine, which the RRM counts and the directory sees as any engine's
(R19, R30). -/
def askFrame (d : Die) (k id n dla : Nat) (s : State) : State :=
  each (List.range 64) (fun j t =>
    let r : MemReq := { asker := .move d k id j, kind := .rdNC, issuer := d, port := .tme, agent := none, metaS := false, region := n,
                        attr := rgAttr t n, dla := dla / 4096 * 4096 + 64 * j, data := poisoned, mask := 0, track := none }
    later (.present r) (rrmCount d .tme (some d) t)) s

/-- The reads of the sectors of a page in T1 that a move makes (R173). -/
def askSectors (d : Die) (k id n dla : Nat) (e : PageEnt) (s : State) : State :=
  let a := rgAttr s n
  let op := s.seq + 1
  let c := 4 * 2 ^ e.cls
  let o : OpSt := { asker := .nobody, job := .gather d k id, port := .tme, region := n, attr := a, dla := dla, cmp := .plain, track := none, page := none,
                    want := List.range c, got := [] }
  each (List.range c) (fun j t =>
    let h := sectorHome d e.place + j
    let t1 := rrmCount d .tme (some d) t
    match placeOf t h with
    | none => opGot op j poisoned t1
    | some (x, i, loc) => submit x (mkRead .tme i loc h (classOf t x i .tme a) true n dla (metaOf t h) (.op op j)) t1)
    { s with seq := op, ops := nset s.ops op o }

/-- The reads that a move of a page makes. -/
def askPage (d : Die) (k id n dla : Nat) (e : PageEnt) (s : State) : State :=
  if e.tier = tT0 then askFrame d k id n dla s else if e.tier = tT1 then askSectors d k id n dla e s else s

/-- Start the promotion of a page to a T0 frame (R28, R144); `pin` is the PIN of the entry as committed. -/
def promote (d : Die) (n dla : Nat) (pin : Bool) (why : MoveWhy) (waiting : List MemReq) (s : State) : Started × State :=
  let key := pageKey s n dla
  let e := pageEnt s d key
  if e.tier = tT2 ∧ (outPort s d e.node).isNone then (.busy, s)
  else match freeSlot s d, moveOf s d key with
  | some k, none =>
    (match takeFrame0 d n 65536 s with
     | none => (.noFrame, s)
     | some (f, s1) =>
       let dest := { e with tier := tT0, cls := 0, node := 0, place := f, pin := pin, incomp := false, iepoch := 0 }
       let id := s1.seq + 1
       let m : MoveSt := ⟨id, .fill, true, [], n, key, dla / 4096 * 4096, dest, e, decide (e.tier = tT2), false, false, waiting, why⟩
       let s2 := takeSlot d k m { s1 with seq := id }
       if e.tier = tT2 then
         let (ok, s3) := peerRead d e.node 9 (e.place * 4096) 64 (.move d k) s2
         if ok then (.yes, s3) else (.busy, abortMove d k s3)
       else if e.tier = tT1 then (.yes, askSectors d k id n dla e s2)
       else (.yes, fillFrame d k n dla f (valueLines e) s2))
  | _, _ => (.busy, s)

/-- Whether a region's pages may go to T2: its slot has FABRIC (R187). -/
def t2Allowed (s : State) (n : Nat) : Bool := bitn (bindOf s (rgAttr s n)) 2

/-- The entry of a page in T2 at a pool page. -/
def t2Entry (s : State) (d : Die) (e : PageEnt) (rp : Nat) : PageEnt :=
  { e with tier := tT2, cls := 0, node := rf s F.TME_T2_CFG.NODE d 0, place := rp, incomp := false, iepoch := 0 }

/-- Start a demotion of a T0 or T1 page to T2 (R144): the pool page is allocated, and the page is read. -/
def toT2 (d : Die) (n dla : Nat) (why : MoveWhy) (s : State) : Started × State :=
  let key := pageKey s n dla
  let e := pageEnt s d key
  match freeSlot s d, moveOf s d key with
  | some k, none =>
    if t2Allowed s n = false then (.noPool, s)
    else if (outPort s d (rf s F.TME_T2_CFG.NODE d 0)).isNone then (.busy, s)
    else
      (match takePool d s with
       | none => (.noPool, s)
       | some (rp, s1) =>
         let id := s1.seq + 1
         let m : MoveSt := ⟨id, .send, true, [], n, key, dla / 4096 * 4096, t2Entry s d e rp, e, true, false, false, [], why⟩
         (.yes, askPage d k id n dla e (takeSlot d k m { s1 with seq := id })))
  | _, _ => (.busy, s)

/-- The entry of a ZERO page, or of a PATTERN page with a value. -/
def valueEntry (e : PageEnt) (tier v : Nat) : PageEnt := { e with tier := tier, cls := 0, node := 0, place := v, pin := false, incomp := false, iepoch := 0 }

/-- A move to ZERO with no copy, accepted at once. -/
def toZero (d : Die) (n dla : Nat) (why : MoveWhy) (s : State) : Started × State :=
  let key := pageKey s n dla
  let e := pageEnt s d key
  match freeSlot s d, moveOf s d key with
  | some k, none =>
    let id := s.seq + 1
    (.yes, takeSlot d k ⟨id, .value, true, [], n, key, dla / 4096 * 4096, valueEntry e tZero 0, e, false, true, false, [], why⟩ { s with seq := id })
  | _, _ => (.busy, s)

/-- The tier that coding gives a page (Table 7.1): ZERO or PATTERN with a value, T1 with the coded page, or incompressible. -/
inductive Coding where
  | value (v : Nat) | coded (c : CodedPage) | incomp
  deriving DecidableEq, Repr

/-- Code a page under CMP_CFG.MAX_CLASS (R164). -/
def codeOutcome (s : State) (d : Die) (ls : List Line) : Coding :=
  match pageValue ls with
  | some v => .value v
  | none =>
    let c := codePage ls
    if c.len ≤ 256 * 2 ^ rf s F.CMP_CFG.MAX_CLASS d 0 then .coded c else .incomp

/-- Start the demotion of a T0 page (R144, R148): the page is read and coded, to T1, ZERO or PATTERN; an incompressible page goes to T2 where
`far` allows it, and is otherwise marked. -/
def demote (d : Die) (n dla : Nat) (far : Bool) (why : MoveWhy) (s : State) : Started × State :=
  let key := pageKey s n dla
  let e := pageEnt s d key
  match freeSlot s d, moveOf s d key with
  | some k, none =>
    let id := s.seq + 1
    let m : MoveSt := ⟨id, .code far, false, [], n, key, dla / 4096 * 4096, e, e, false, false, false, [], why⟩
    (.yes, askFrame d k id n dla (takeSlot d k m { s with seq := id }))
  | _, _ => (.busy, s)

/-- The destination of a move that needs no write: accepted at once. -/
def moveInto (d : Die) (k : Nat) (e : PageEnt) (held : Bool) : State → State := onMove d k (fun x => { x with dest := e, held := held, accepted := true })

/-- The lines of a page go to the T2 pool page of its move. -/
def sendPage (d : Die) (k node rp : Nat) (ls : List LineData) (s : State) : State :=
  let (ok, s1) := peerWrite d node 7 (rp * 4096) ls (.move d k) s
  if ok then s1 else abortMove d k s1

/-- A job's page finds no frame for its sectors (Table 6.5). -/
def jobNoFrame (d : Die) (why : MoveWhy) (s : State) : State :=
  match why with
  | .job id => onJob d id (fun j => { j with noFrame := true }) s
  | .sweep | .write => s

/-- The page of a demotion has been read: it is coded and written (R144, R148, R164, R176). A poisoned page is not demoted: its move counts as
aborted (DESIGN CHOICE, log entry 20). -/
def codeMove (d : Die) (k : Nat) (m : MoveSt) (far : Bool) (ls : List LineData) (s : State) : State :=
  let n := m.region
  let a := rgAttr s n
  if ls.any (·.poison) then abortMove d k s
  else
    match codeOutcome s d (ls.map (·.line)) with
    | .value 0 => moveInto d k (valueEntry m.old tZero 0) true (addCount d .CMP 4 1 s)
    | .value v => moveInto d k (valueEntry m.old tPattern v) true (addCount d .CMP 5 1 s)
    | .incomp =>
      let node := rf s F.TME_T2_CFG.NODE d 0
      let room := if far && t2Allowed s n && (outPort s d node).isSome then takePool d s else none
      (match room with
       | some (rp, s1) =>
         sendPage d k node rp ls (onMove d k (fun x => { x with goal := .send, held := true, dest := t2Entry s d m.old rp, waitsPeer := true }) s1)
       | none => moveInto d k { m.old with incomp := true, iepoch := heatEpoch s d } false (addCount d .CMP 6 1 s))
    | .coded c =>
      (match placeRun d n (2 ^ c.size) s with
       | none => cancelMove d k m (jobNoFrame d m.why s)
       | some (sect, s1) =>
         let dest := { m.old with tier := tT1, cls := c.size, node := 0, place := sect, incomp := false, iepoch := 0 }
         let ws := (List.range (2 ^ c.size)).flatMap (fun j =>
           let h := sectorHome d (sect + j)
           let ks := lineKeys s n a h
           (encSector ks.1 ks.2.2 h (toLines 4 (c.bytes.drop (256 * j)))).zipIdx.map (fun p => (h + p.2, p.1, false)))
         moveWrites d k n m.dla ws (onMove d k (fun x => { x with dest := dest, held := true }) (addCount d .CMP c.size 1 s1)))

/-- The lines that a move asked for have come (R144, R173, Table 7.5): a T1 page whose decode fails keeps its tier where it was to go to T2. -/
def moveRead (d : Die) (k id : Nat) (s : State) : State :=
  match nget (tme s d).moves k with
  | none => s
  | some m =>
    if m.id ≠ id ∨ m.committed ∨ m.accepted then s
    else
      let dec := decodeT1 s d m.region (rgAttr s m.region) m.old m.got
      let t1 := decide (m.old.tier = tT1)
      let s1 := onlyIf t1 (noteDecode d m.region m.dla dec) s
      let ls := if t1 then dec.lines else (List.range 64).map (fun j => ngetD m.got j poisoned)
      match m.goal with
      | .fill => fillFrame d k m.region m.dla m.dest.place ls s1
      | .send => if t1 ∧ dec.whole ≠ .fine then abortMove d k s1 else sendPage d k m.dest.node m.dest.place ls s1
      | .code far => codeMove d k m far ls s1
      | .value => s1

/-- The answer of a peer to a tier-2 transfer of a move (R152, R281, Table 6.4). -/
def movePeer (d : Die) (k status : Nat) (ls : List LineData) (s : State) : State :=
  match nget (tme s d).moves k with
  | none => s
  | some m =>
    if m.committed ∨ m.accepted ∨ m.waitsPeer = false then s
    else if m.dest.tier = tT2 then (if status = 0 then onMove d k (fun x => { x with accepted := true, waitsPeer := false }) s else abortMove d k s)
    else if status = 0 ∨ status = 5 then
      fillFrame d k m.region m.dla m.dest.place ((List.range 64).map (fun i => ls.getD i poisoned)) (onMove d k (fun x => { x with waitsPeer := false }) s)
    else abortMove d k s

end Sys2Proof.Machine
end

