-- ==== Sys2Proof/Machine/Path.lean ====
section
/-!
DEFINITION. Sys2Proof/Machine/Path.lean: the paths of Tables 1.7 to 1.9: a request that the RRM has bound, and that the directory has
let through, is carried out on its home die.
-/

namespace Sys2Proof.Machine

/-- The completion of a request kind (Table 9.2). -/
def reqCmp : ReqKind → Cmp
  | .rdS => .shared
  | .rdX | .inv => .exclusive
  | .rdNC | .wr => .plain

/-- A request is done: whoever asked is answered, and the transaction that it is goes on (R223). -/
def finishReq (r : MemReq) (l : Option LineData) (s : State) : State :=
  let s1 := answer r.asker l (reqCmp r.kind) s
  match r.track with
  | some (d, key) => later (.line d key) s1
  | none => s1

/-- A read answered at once with a line. -/
def finishRead (r : MemReq) (l : LineData) : State → State := finishReq r (some l)

/-- Open an operation for a request: its number. -/
def newOp (r : MemReq) (job : OpJob) (want : List Nat) (page : Option (Die × Nat × Nat)) (s : State) : Nat × State :=
  let id := s.seq + 1
  (id, { s with seq := id, ops := nset s.ops id { asker := r.asker, job := job, port := r.port, region := r.region, attr := r.attr, dla := r.dla,
                                                  cmp := reqCmp r.kind, track := r.track, page := page, want := want, got := [] } })

/-- Whether a DLA lies in the cells of a pool. -/
def inCells (s : State) (dla : Nat) : Bool :=
  [Die.east, Die.west].any (fun d => (die s d).pools.any (fun p => decide (p.2.base ≤ dla) && decide (dla < p.2.base + 256 * p.2.cells)))

/-- Whether a request is an access of a REMOTE_ENQUEUE. -/
def asksRemote (s : State) (a : Asker) : Bool :=
  match a with
  | .desc d sq seq _ => (die s d).cpr.sqs.any (fun p => p.1 == sq && p.2.started.any (fun (e : Desc) => e.seq == seq && lineNum e.bytes 0 1 == 0x3E))
  | .host _ _ | .peer _ _ | .work _ _ _ | .move _ _ _ _ | .copy _ _ | .nobody => false

/-- The hint OPEN of an engine's request (Table 3.1, R307, R344): of the LKE as its table says, of the QUE for the reads of cells and of the
source of a REMOTE_ENQUEUE. -/
def engOpen (s : State) (r : MemReq) : Bool :=
  match r.port with
  | .lke => s.tables.any (fun p => decide (p.2.base ≤ r.dla) && decide (r.dla < p.2.base + p.2.size) && p.2.hint == 0)
  | .que => r.kind == .rdNC && (inCells s r.dla || asksRemote s r.asker)
  | .hp0 | .hp1 | .fp0 | .fp1 | .tme | .sru | .cpr => false

/-- Submit the read of a home line for line k of an operation: poison where the line has no place. -/
def readHome (r : MemReq) (id k h : Nat) (s : State) : State :=
  match placeOf s h with
  | none => opGot id k poisoned s
  | some (d, i, loc) =>
    submit d (mkRead r.port i loc h (classOf s d i r.port r.attr) (hintOf r.port r.attr (engOpen s r)) r.region r.dla (metaOf s h) (.op id k)) s

/-- Whether a home line index lies above what a die's regions may map, as a re-carve at a switch of mapping leaves it (R13, R14,
Table 5.4). -/
def aboveTop (s : State) (h : Nat) : Bool :=
  let d := dieOf (fld h 35 1)
  !((die s d).sru.memoryLost) && decide (liveLen s d ≠ 0) && decide (freeTop s d ≤ fld h 0 35)

/-- Whether a die has no copy of a flat line to read. -/
def noCopy (s : State) (d : Die) (a h : Nat) : Bool := integCut s d a || (placeOf s h).isNone || aboveTop s h

/-- Read a line of a flat region for an operation with a job (Table 1.7, R25, R140). A line above the new top of its die reads as unmapped;
of a mirrored region the other die's copy answers. -/
def flatFetch (r : MemReq) (job : OpJob) (s : State) : State :=
  let d := homeDie r.attr r.issuer
  let h := flatHome s r.region d r.dla
  let (id, s1) := newOp r job [0] none s
  if noCopy s d r.attr h = false then readHome r id 0 h s1
  else if atMirror r.attr then
    (match nget s1.ops id with
     | some o =>
       if noCopy s (otherDie d) r.attr (flatHome s r.region (otherDie d) r.dla) then opGot id 0 poisoned s1
       else readOther d id 0 o (mkRead r.port 0 0 h 0 (hintOf r.port r.attr (engOpen s r)) r.region r.dla LineMeta.blank (.op id 0)) false s1
     | none => s1)
  else opGot id 0 poisoned (onlyIf (aboveTop s h) (unmapped r.issuer r.port r.dla) s1)

/-- A read of a flat region. -/
def flatRead (r : MemReq) : State → State := flatFetch r .read

/-- The line that a write of a part leaves: its bytes merged onto the line as it stands (R225). What it is
merged onto being poison leaves poison (DESIGN CHOICE, log entry 21). -/
def mergeOnto (r : MemReq) (old : LineData) : LineData :=
  let bytes := (List.range 64).map (fun b => if r.mask.getLsbD b then lineByte r.data.line b else lineByte old.line b)
  ⟨lineOf bytes, r.data.poison || old.poison⟩

/-- Whether a write covers only a part of its line. -/
def MemReq.part (r : MemReq) : Bool := r.kind == .wr && r.mask != BitVec.allOnes 64

/-- A request as it is carried out once the line has been merged. -/
def MemReq.whole (r : MemReq) (l : LineData) : MemReq := { r with data := l, mask := BitVec.allOnes 64 }

/-- The job of the read that a write of a part is merged onto: nobody else is answered by it. -/
def mergeJob (r : MemReq) : MemReq × OpJob := ({ r with asker := .nobody, track := none }, .merge r)

/-- The dies that a write of a flat region goes to (R25). -/
def writeDies (a : Nat) : List Die := if atMirror a then [.east, .west] else [atHome a]

/-- A write of a whole line of a flat region (Table 1.8, R25, R199, R461). -/
def flatWrite (r : MemReq) (s : State) : State :=
  let l := r.data
  let ds := writeDies r.attr
  let gone := fun (t : State) (d : Die) => noCopy t d r.attr (flatHome t r.region d r.dla)
  let (id, s1) := newOp r .write (List.range ds.length) none
    (onlyIf (ds.all (fun d => aboveTop s (flatHome s r.region d r.dla))) (unmapped r.issuer r.port r.dla) s)
  each ds.zipIdx (fun p t =>
    if gone t p.1 then opGot id p.2 ⟨0, false⟩ t
    else
      let (ok, t1) := writeLine p.1 r.port r.region r.attr (flatHome t r.region p.1 r.dla) r.dla l (engOpen t r) (.opw id p.2) t
      if ok then t1 else opGot id p.2 ⟨0, false⟩ t1) s1

/-! ### Tiered regions (R27, R28, Table 1.9) -/

/-- A host's or a peer's request counts toward heat (R147). -/
def heats : Port → Bool
  | .hp0 | .hp1 | .fp0 | .fp1 => true
  | .lke | .que | .tme | .sru | .cpr => false

/-- 0x0608 (R146). -/
def t2Failed (d : Die) (n dla node : Nat) (s : State) : State :=
  post d ⟨0x0608, sevUncorrected, locDie d, [it1 n, it6 dla, it2 node], some dla, some (bindOf s (rgAttr s n))⟩ s

/-- A read of a T1 page's line begins with its header sector (R172). -/
def readT1 (r : MemReq) (d : Die) (e : PageEnt) (page : Option (Die × Nat × Nat)) (s : State) : State :=
  let h := sectorHome d e.place
  let (id, s1) := newOp r (.tier1 (r.dla / 64 % 64) e.cls h none) (List.range 4) page s
  each (List.range 4) (fun j t => readHome r id j (h + j) t) s1

/-- The header sector of a T1 page has come: the sector that holds the line is read, where it is another and the header is sound (R172). -/
def sectorNext (n : Nat) (s : State) : State :=
  match nget s.ops n with
  | none => s
  | some o =>
    match o.job with
    | .tier1 line cls h none =>
      let k := match tier1Head s o h with
        | none => 0
        | some hd => (match headerOk hd cls with
          | none => 0
          | some cs => lineSector cs line)
      let o1 := { o with job := .tier1 line cls h (some (h + 4 * k)) }
      if k = 0 then finishOp n { s with ops := nset s.ops n o1 }
      else
        let r : MemReq := { asker := .nobody, kind := .rdNC, issuer := .east, port := o.port, agent := none, metaS := false, region := o.region,
                            attr := o.attr, dla := o.dla, data := poisoned, mask := 0, track := none }
        each (List.range 4) (fun j t => readHome r n (4 + j) (h + 4 * k + j) t) { s with ops := nset s.ops n { o1 with want := List.range 8 } }
    | .tier1 _ _ _ (some _) | .read | .write | .move _ _ | .gather _ _ _ | .merge _ | .rot _ _ _ _ | .node _ _ | .map _ _ | .record _ _ _ => s

/-- A request has been handed to the fabric port for a peer: its transaction closes there (R223). -/
def handed (r : MemReq) (id : Nat) (s : State) : State :=
  match r.track with
  | some (d, line) => later (.line d line) { s with ops := nupd s.ops id (fun o => { o with track := none }) }
  | none => s

/-- A read of a tiered page, by its tier (Table 1.9). -/
def tieredRead (r : MemReq) (d : Die) (key : Nat) (e : PageEnt) (s : State) : State :=
  let page := some (d, key, e.epoch)
  if e.tier = tT0 then
    let (id, s1) := newOp r .read [0] page s
    readHome r id 0 (frameLine d e.place (r.dla / 64 % 64)) s1
  else if e.tier = tT1 then readT1 r d e page s
  else if e.tier = tT2 then
    let (id, s1) := newOp r .read [0] page s
    let (ok, s2) := peerRead d e.node 1 (e.place * 4096 + r.dla % 4096) 1 (.op id) s1
    if ok then handed r id s2 else opGot id 0 poisoned (t2Failed d r.region r.dla e.node s2)
  else if e.tier = tZero then finishRead r ⟨0, false⟩ s
  else if e.tier = tPattern then finishRead r ⟨patternLine (BitVec.ofNat 64 e.place), false⟩ s
  else finishRead r poisoned s

/-- A write of a tiered page's frame: a part of a line is merged onto the line, which is read first. -/
def frameWrite (r : MemReq) (d : Die) (key : Nat) (e : PageEnt) (s : State) : State :=
  let h := frameLine d e.place (r.dla / 64 % 64)
  let page := some (d, key, e.epoch)
  if r.part then
    let (id, s1) := newOp (mergeJob r).1 (mergeJob r).2 [0] page s
    readHome r id 0 h s1
  else
    let (id, s1) := newOp r .write [0] page s
    let (ok, s2) := writeLine d r.port r.region r.attr h r.dla r.data false (.opw id 0) s1
    if ok then s2 else opGot id 0 ⟨0, false⟩ s2

/-- Whether two requests are to one line. -/
def sameLine (a b : MemReq) : Bool := a.region == b.region && a.dla / 64 == b.dla / 64

/-- The merge of a line that has not been written yet: later requests for the line wait for it (R31). -/
def mergeOf (s : State) (r : MemReq) : Option Nat :=
  (s.ops.find? (fun p => match p.2.job with
    | .merge q => sameLine q r
    | .read | .write | .tier1 _ _ _ _ | .move _ _ | .gather _ _ _ | .rot _ _ _ _ | .node _ _ | .map _ _ | .record _ _ _ => false)).map (·.1)

/-- Whether a write of a requester port to the line of a request waits, for the commit of a move or for a frame: what the port sends later
to the line waits behind it (R31, R33). -/
def behind (s : State) (d : Die) (key : Nat) (r : MemReq) : Bool :=
  let mine := fun (q : MemReq) => q.port == r.port && sameLine q r
  (tme s d).starved.any mine || (match moveOf s d key with
    | some (_, m) => m.waiting.any mine
    | none => false)

/-- A request joins those that wait for its page. -/
def waitBehind (d : Die) (key : Nat) (r : MemReq) (s : State) : State :=
  match moveOf s d key with
  | some (k, m) =>
    if m.waiting.any (fun q => q.port == r.port && sameLine q r) then onMove d k (fun x => { x with waiting := x.waiting ++ [r] }) s
    else onTme d (fun t => { t with starved := t.starved ++ [r] }) s
  | none => onTme d (fun t => { t with starved := t.starved ++ [r] }) s

/-- A write of a tiered page: in its frame, or once the page has been promoted (R28, R145, R151). -/
def tieredWrite (r : MemReq) (d : Die) (key : Nat) (e : PageEnt) (s : State) : State :=
  match moveOf s d key with
  | some (k, m) =>
    if m.committed then
      (if e.tier = tT0 then frameWrite r d key e s else onTme d (fun t => { t with starved := t.starved ++ [r] }) s)
    else if m.goal = .fill then onMove d k (fun x => { x with waiting := x.waiting ++ [r] }) s
    else later (.carry r) (abortMove d k s)
  | none =>
    if e.tier = tT0 then frameWrite r d key e s
    else
      match promote d r.region r.dla e.pin .write [r] s with
      | (.yes, t) => t
      | (_, t) => onTme d (fun x => { x with starved := x.starved ++ [r] }) t

/-- Whether a die serves no memory (R132, R386). -/
def memGone (s : State) (d : Die) : Bool := (die s d).sru.memoryLost || fenced s d

/-- A request to a page of a tiered region (R27, R28, R147). -/
def tieredCarry (r : MemReq) (s : State) : State :=
  let d := atHome r.attr
  let key := pageKey s r.region r.dla
  if memGone s d then (if r.kind = .wr then finishReq r none s else finishRead r poisoned s)
  else if behind s d key r then waitBehind d key r s
  else
    let s1 := onlyIf (heats r.port && !r.counted) (countAccess d key) (lookEntry d true r.looked s)
    let e := pageEnt s1 d key
    let q := { r with counted := true, looked := true }
    if r.kind = .wr then tieredWrite q d key e s1 else tieredRead q d key e s1

/-- The lines in memory that a request needs: die, first home line index, number. -/
def linesOf (s : State) (r : MemReq) : List (Die × Nat × Nat) :=
  if atTiered r.attr then
    let d := atHome r.attr
    let e := pageEnt s d (pageKey s r.region r.dla)
    if e.tier = tT0 then [(d, frameLine d e.place (r.dla / 64 % 64), 1)]
    else if e.tier = tT1 then [(d, sectorHome d e.place, 4 * 2 ^ e.cls)] else []
  else (if r.kind = .wr then writeDies r.attr else [homeDie r.attr r.issuer]).map (fun d => (d, flatHome s r.region d r.dla, 1))

/-- The rotation that is at the block of a request: the request waits for it (R202). -/
def rotOf (s : State) (r : MemReq) : Option Nat := (linesOf s r).findSome? (fun x => rotAt s x.1 r.region x.2.1 x.2.2)

/-- A request waits for the rotation of a slot to pass its block. -/
def rotWait (slot : Nat) (r : MemReq) (s : State) : State :=
  { s with rots := nupd s.rots slot (fun x => { x with waiting := x.waiting ++ [r] }) }

/-- Whether a request is a copy read, which the scheduler carries out by location once the directory has let it through. -/
def copies (r : MemReq) : Bool :=
  match r.asker with
  | .copy _ _ => true
  | .host _ _ | .peer _ _ | .desc _ _ _ _ | .work _ _ _ | .move _ _ _ _ | .nobody => false

/-- The line that has to come into a die's node cache before a request for a line of a flat region is carried out (R198, R199). -/
def metaWait (s : State) (r : MemReq) : Option (Die × Nat) :=
  if atTiered r.attr then none
  else (if r.kind = .wr then writeDies r.attr else [homeDie r.attr r.issuer]).findSome? (fun d =>
    if noCopy s d r.attr (flatHome s r.region d r.dla) || belowBad s d r.region r.dla then none
    else (metaNext s d r.region r.attr (rgLine s r.region r.dla)).map (fun key => (d, key)))

/-- Whether a request has to wait for its page map entry (R143). -/
def entryWait (s : State) (r : MemReq) : Bool :=
  let d := atHome r.attr
  atTiered r.attr && !(memGone s d) && !(cachedEntry s d (pageKey s r.region r.dla))

/-- Carry out a request that the directory has let through (R23). -/
def carry (r : MemReq) (s : State) : State :=
  if r.kind = .inv ∨ copies r then finishReq r none s
  else if entryWait s r then
    let d := atHome r.attr
    askEntry d (pageKey s r.region r.dla) r.region r.dla (.carry { r with looked := true }) (lookEntry d false r.looked s)
  else if let some k := rotOf s r then rotWait k r s
  else match mergeOf s r with
    | some n => { s with ops := nupd s.ops n (fun o => { o with waiting := o.waiting ++ [r] }) }
    | none =>
      if let some x := metaWait s r then askNode x.1 x.2 r.port r.region r.dla (.carry r) s
      else if atTiered r.attr then tieredCarry r s
      else if r.kind = .wr then
        (if r.part && (writeDies r.attr).any (fun d => !(noCopy s d r.attr (flatHome s r.region d r.dla))) then flatFetch (mergeJob r).1 (mergeJob r).2 s
         else flatWrite r s)
      else flatRead r s

/-- The line that a write of a part is merged onto has come: the whole line is written, and the requests that waited go on in their order. -/
def merged (n : Nat) (s : State) : State :=
  match nget s.ops n with
  | none => s
  | some o =>
    let s1 := { s with ops := nerase s.ops n }
    let s2 := match o.job with
      | .merge r => carry (r.whole (mergeOnto r (ngetD o.got 0 poisoned))) s1
      | .read | .write | .tier1 _ _ _ _ | .move _ _ | .gather _ _ _ | .rot _ _ _ _ | .node _ _ | .map _ _ | .record _ _ _ => s1
    each o.waiting carry s2

/-- The answer of a peer to a read of a T2 page's line (R146). -/
def t2Answer (id status node : Nat) (ls : List LineData) (s : State) : State :=
  match nget s.ops id with
  | none => s
  | some o =>
    if status = 0 ∨ status = 5 then opGot id 0 (ls.headD poisoned) s
    else opGot id 0 poisoned (t2Failed (atHome o.attr) o.region o.dla node s)

end Sys2Proof.Machine
end

