-- ==== Sys2Proof/Machine/Cdr.lean ====
section
/-!
DEFINITION. Sys2Proof/Machine/Cdr.lean: the Coherence Directory (chapter 9): entries and sets (R217, R233 to R236), transactions
(R221 to R225), snoops and their answers (Tables 9.3 to 9.5), and agents that do not answer (R229, R231, R232).
-/

namespace Sys2Proof.Machine

/-! ### Entries -/

/-- The directory of a die. -/
def cdr (s : State) (d : Die) : CdrSt := (die s d).cdr

/-- Change the directory of a die. -/
def onCdr (d : Die) (f : CdrSt → CdrSt) : State → State := onDie d (fun x => { x with cdr := f x.cdr })

/-- The directory line of a DLA of a COHERENT region: its home line index on the tracking die (R216, R217), or for a tiered
region, whose home addresses change, its DLA line (DESIGN CHOICE, log entry 22). -/
def dirLine (s : State) (n a dla : Nat) : Nat := if atTiered a then 2 ^ 40 + dla / 64 else flatHome s n (atHome a) dla

/-- The set of a directory line (R217). -/
def dirSet (line : Nat) : Nat := Nat.xor (line % 2 ^ 18) (line / 2 ^ 18 % 2 ^ 18)

/-- The entry of a line, with its place. -/
def dirFind (s : State) (d : Die) (line : Nat) : Option (Nat × DirEnt) := (cdr s d).dir.find? (fun p => p.2.line == line)

/-- Change the entry at a place. -/
def onEnt (d : Die) (k : Nat) (f : DirEnt → DirEnt) : State → State := onCdr d (fun x => { x with dir := nupd x.dir k f })

/-- The entries of a set. -/
def setEnts (s : State) (d : Die) (set : Nat) : NMap DirEnt := (cdr s d).dir.filter (fun p => p.1 / 16 == set)

/-- The pinned ways of a set (R235). -/
def pinned (s : State) (d : Die) (set : Nat) : Nat := ((setEnts s d set).filter (fun p => p.2.tr.isSome)).length

/-- CDR_CFG.PIN_MAX as it acts. -/
def pinMax (s : State) (d : Die) : Nat := clamp 4 12 (rf s F.CDR_CFG.PIN_MAX d 0)

/-- A free way of a set. -/
def freeWay (s : State) (d : Die) (set : Nat) : Option Nat := ((List.range 16).map (fun w => set * 16 + w)).find? (fun k => (nget (cdr s d).dir k).isNone)

/-- The victim of a full set (R233): an S entry before an X entry, and of a kind one whose recency bit is clear, lowest way first. -/
def victim (s : State) (d : Die) (set : Nat) : Option Nat :=
  let es := (setEnts s d set).filter (fun p => p.2.tr.isNone)
  let kinds : List (DirEnt → Bool) := [fun e => !e.x && !e.recent, fun e => !e.x, fun e => e.x && !e.recent, fun e => e.x]
  (kinds.findSome? (fun f => es.find? (fun p => f p.2))).map (·.1)

/-- Mark an entry recent; where that leaves no entry of its set with a clear bit, the others' are cleared (log entry 22). -/
def touch (d : Die) (k : Nat) (s : State) : State :=
  let s1 := onEnt d k (fun e => { e with recent := true }) s
  if (setEnts s1 d (k / 16)).all (fun p => p.2.recent) then
    onCdr d (fun x => { x with dir := x.dir.map (fun p => if p.1 / 16 = k / 16 ∧ p.1 ≠ k then (p.1, { p.2 with recent := false }) else p) }) s1
  else s1

/-- The agents that may hold a line. -/
def DirEnt.holders (e : DirEnt) : List Nat := (if e.x then [e.owner] else []) ++ e.sharers

/-- An agent holds nothing more. -/
def DirEnt.drop (a : Nat) (e : DirEnt) : DirEnt :=
  { e with x := e.x && e.owner != a, sharers := e.sharers.filter (· != a) }

/-- An agent becomes a sharer. -/
def DirEnt.share (a : Nat) (e : DirEnt) : DirEnt := { e with sharers := if e.sharers.contains a then e.sharers else e.sharers ++ [a] }

/-- Count a statistic of the directory. -/
def cdrStat (d : Die) (k : Nat) : State → State := addCount d .CDR k 1

/-- An empty transaction. -/
def CdrTr.new (r f : Option MemReq) : CdrTr := ⟨r, f, [], [], [], 0, false, false, []⟩

/-- Change the open transaction at a place. -/
def onTr (d : Die) (k : Nat) (f : CdrTr → CdrTr) : State → State := onEnt d k (fun e => { e with tr := e.tr.map f })

/-! ### Snoops (Table 9.3) -/

/-- The write of a line as poison for the directory (R229, R231): the transaction waits for it. -/
def poisonLine (d : Die) (k : Nat) (s : State) : State :=
  match nget (cdr s d).dir k with
  | none => s
  | some e =>
    let track := if e.tr.isSome then some (d, e.line) else none
    let r : MemReq := { asker := .nobody, kind := .wr, issuer := d, port := hostPort d, agent := none, metaS := false, region := e.region,
                        attr := rgAttr s e.region, dla := e.dla, data := ⟨0, true⟩, mask := BitVec.allOnes 64, track := track }
    later (.carry r) (onTr d k (fun t => { t with wbs := t.wbs + 1 }) s)

/-- An agent whose port is down is taken to answer BIRspI; a line that it owns is poisoned (R232, Table 9.6). -/
def lostAgent (d : Die) (k a : Nat) (s : State) : State :=
  match nget (cdr s d).dir k with
  | none => s
  | some e =>
    let s1 := onEnt d k (DirEnt.drop a) s
    if e.x && e.owner == a then poisonLine d k s1 else s1

/-- Send a snoop to an agent for the line at a place; one whose port is down is answered at once as BIRspI (R232). -/
def sendSnoop (d : Die) (k : Nat) (z : Snoop) (s : State) : State :=
  match nget (cdr s d).dir k with
  | none => s
  | some e =>
    match agentPort s z.agent with
    | none => lostAgent d k z.agent s
    | some p =>
      s |> onTr d k (fun t => { t with out := t.out ++ [z] }) |> cdrStat d 1 |> signalDie d 0x0581 1
        |> onlyIf (p != d) (fun t => t |> signalDie d 0x0380 1 |> signalDie p 0x0380 1)
        |> send (.snoop p z.agent z.kind (snoopHpa s p z.agent e.dla))

/-- The snoops that a request makes of a line's entry (Table 9.3). -/
def snoopsOf (r : MemReq) (e : DirEnt) : List Snoop :=
  let others := (e.holders.filter (fun a => some a != r.agent)).map (fun a => (⟨a, .inv⟩ : Snoop))
  let own := e.x && some e.owner == r.agent
  match r.kind with
  | .rdS => if e.x && !own then [⟨e.owner, .data⟩] else []
  | .rdNC => if e.x && !own then [⟨e.owner, .cur⟩] else []
  | .rdX | .inv => others
  | .wr => if own then [] else others

/-- The entry that a request leaves once its snoops have been answered (Table 9.3). -/
def settled (r : MemReq) (e : DirEnt) : DirEnt :=
  match r.agent, r.kind with
  | some a, .rdS => (if e.x && e.owner == a then { e with x := false } else e).share a
  | some a, .rdX | some a, .inv => { e with x := true, owner := a, sharers := [] }
  | some a, .rdNC => e.drop a
  | some a, .wr =>
    if e.x && e.owner == a then (if r.metaS then ({ e with x := false }).share a else { e with x := false })
    else { e with x := false, sharers := if r.metaS then [a] else [] }
  | none, .wr => { e with x := false, sharers := [] }
  | none, _ => e

/-- Requests held at a full set may be admitted now that a way of it is no longer pinned (R236). -/
def unpinned (d : Die) (set : Nat) (s : State) : State :=
  let mine := fun (r : MemReq) => dirSet (dirLine s r.region r.attr r.dla) == set
  let hs := (cdr s d).held.filter mine
  each hs (fun r => later (.takeIn d r)) (onCdr d (fun x => { x with held := x.held.filter (fun r => !(mine r)) }) s)

/-- Whether a transaction has all its answers and write-backs. -/
def CdrTr.ready (t : CdrTr) : Bool := t.out.isEmpty && t.await.isEmpty && decide (t.wbs = 0) && !t.running

/-- Open the transaction of a request on the entry at a place: its snoops go out. -/
def openTr (d : Die) (k : Nat) (r : MemReq) (s : State) : State :=
  let s1 := touch d k (onEnt d k (fun e => { e with tr := some (CdrTr.new (some r) none) }) s)
  match nget (cdr s1 d).dir k with
  | none => s1
  | some e => each (snoopsOf r e) (sendSnoop d k) s1

/-- Start the invalidation of an entry, for an eviction or a recall (R233, R234). -/
def openInv (d : Die) (k : Nat) (forReq : Option MemReq) (s : State) : State :=
  let s1 := onEnt d k (fun e => { e with tr := some (CdrTr.new none forReq) }) s
  match nget (cdr s1 d).dir k with
  | none => s1
  | some e => each (e.holders.map (fun a => (⟨a, .inv⟩ : Snoop))) (sendSnoop d k) s1

/-- The invalidations of recalls that are open. -/
def recallsOpen (s : State) (d : Die) : Nat :=
  ((cdr s d).dir.filter (fun p => match p.2.tr with
    | some t => t.req.isNone && t.forReq.isNone
    | none => false)).length

/-- CDR_STATUS.WALK as it stands. -/
def syncWalk (d : Die) (s : State) : State :=
  wf F.CDR_STATUS.WALK d 0 (b2n (!(cdr s d).walks.isEmpty || !(cdr s d).recalls.isEmpty)) s

/-- A way for a new line: empty, and pinned by its first transaction. -/
def newEnt (line n dla : Nat) : DirEnt := ⟨line, false, 0, [], true, none, [], n, dla⟩

/-- A transaction that has all it waits for goes on: its request is carried out, or its entry is freed and given to the request
that the eviction made room for (R224, R233). Answers whether the entry's transaction is now a new one. -/
def advance (d : Die) (k : Nat) (s : State) : State :=
  match nget (cdr s d).dir k with
  | none => s
  | some e =>
    match e.tr with
    | none => s
    | some t =>
      if t.ready = false then s
      else
        match t.req with
        | some r =>
          let free := fun (x : DirEnt) => if t.failed then { x with x := false, sharers := [] } else settled r x
          carry { r with track := some (d, e.line) } (s |> onEnt d k free |> onTr d k (fun t => { t with running := true }))
        | none =>
          let s1 := each e.waiting (fun r => later (.takeIn d r)) (onCdr d (fun x => { x with dir := nerase x.dir k }) s)
          match t.forReq with
          | some r =>
            let ent := { newEnt (dirLine s1 r.region r.attr r.dla) r.region r.dla with waiting := t.behind }
            s1 |> onCdr d (fun x => { x with dir := nset x.dir k ent })
               |> openTr d k r |> later (.line d (dirLine s1 r.region r.attr r.dla))
          | none => unpinned d (k / 16) s1

/-- Start as many invalidations of the recalled regions as may run: 64 at a time (R234); a recall ends when its region has no
entry left. -/
def recallAdvance (d : Die) (s : State) : State :=
  let rs := (cdr s d).recalls
  let cand := ((cdr s d).dir.filter (fun p => rs.contains p.2.region && p.2.tr.isNone)).take (64 - recallsOpen s d)
  let s1 := each cand (fun p t => advance d p.1 (openInv d p.1 none t)) s
  syncWalk d (onCdr d (fun x => { x with recalls := x.recalls.filter (fun n => x.dir.any (fun p => p.2.region == n)) }) s1)

/-- The transaction of a line that takes no way is over: what came behind it reaches the directory (R223). -/
def looseEnd (d : Die) (line : Nat) (s : State) : State :=
  each (ngetD (cdr s d).loose line []) (fun r => later (.takeIn d r)) (onCdr d (fun x => { x with loose := nerase x.loose line }) s)

/-- The transaction of a line goes on: an access or a write-back of it is done, or its snoops have been answered (R223). -/
def lineEvent (d : Die) (line : Nat) (s : State) : State :=
  match dirFind s d line with
  | none => recallAdvance d (looseEnd d line s)
  | some (k, e) =>
    match e.tr with
    | none => recallAdvance d s
    | some t =>
      if 0 < t.wbs then recallAdvance d (advance d k (onTr d k (fun t => { t with wbs := t.wbs - 1 }) s))
      else if t.running then
        (match e.waiting with
         | r :: rs =>
           let s1 := openTr d k r (onEnt d k (fun x => { x with waiting := rs, tr := none }) s)
           advance d k s1
         | [] =>
           let s1 := if e.x ∨ e.sharers ≠ [] then onEnt d k (fun x => { x with tr := none }) s
             else onCdr d (fun x => { x with dir := nerase x.dir k }) s
           recallAdvance d (unpinned d (k / 16) s1))
      else recallAdvance d (advance d k s)

/-! ### Admission (R223, R236, R237) -/

/-- A request that makes its requester a holder: it needs a way. -/
def needsWay (r : MemReq) : Bool :=
  match r.kind with
  | .rdS | .rdX | .inv => true
  | .rdNC => false
  | .wr => r.agent.isSome && r.metaS

/-- A hold or a retry at a set (R236, R237). -/
def setPressure (d : Die) (stat set : Nat) (s : State) : State :=
  s |> cdrStat d stat |> postLim d 0 ⟨0x0505, sevInfo, locDie d, [it4 set], none, none⟩ []

/-- Refuse a request with retry. -/
def refuseRetry (d : Die) (r : MemReq) (set : Nat) (s : State) : State :=
  setPressure d 7 set (onCdr d (fun x => { x with retry := x.retry ++ [r] }) s)

/-- A write-back that crosses a snoop: taken as the snoop's data (Table 9.5). -/
def takeWb (d : Die) (k a : Nat) (line : Nat) (r : MemReq) (s : State) : State :=
  s |> onTr d k (fun t => { t with taken := t.taken ++ [a], await := t.await.filter (· != a), wbs := t.wbs + 1 }) |> cdrStat d 3
    |> carry { r with track := some (d, line) }

/-- A write that the directory poisoned a line for comes after all (R229). -/
def lateWb (d : Die) (line : Nat) (r : MemReq) (s : State) : State :=
  match r.agent with
  | some a =>
    if r.kind = .wr ∧ (cdr s d).late.contains (line, a) then
      s |> onCdr d (fun x => { x with late := x.late.filter (· != (line, a)) })
        |> post d ⟨0x0507, sevInfo, locDie d, [it1 r.region, it6 r.dla, it1 a], some r.dla, some (bindOf s r.attr)⟩
    else s
  | none => s

/-- Whether a write comes from an agent that the open transaction has snooped or awaits. -/
def crossesSnoop (t : CdrTr) (r : MemReq) : Option Nat :=
  match r.agent with
  | some a => if r.kind = .wr ∧ (t.out.any (fun z => z.agent == a) || t.await.contains a) then some a else none
  | none => none

/-- A write-back: a write of the recorded owner, or of an agent that the open transaction waits for. It is always admitted (R236). -/
def writesBack (s : State) (d : Die) (line : Nat) (r : MemReq) : Bool :=
  match dirFind s d line with
  | none => false
  | some (_, e) => r.kind == .wr && ((e.x && some e.owner == r.agent) || (match e.tr with
      | some t => (crossesSnoop t r).isSome
      | none => false))

/-- A request that may be refused with retry where its line has an entry (R236). -/
def caches (r : MemReq) : Bool := r.kind == .rdS || r.kind == .rdX || r.kind == .inv

/-- The eviction under way that makes room for a line, by its place. -/
def evictFor (s : State) (d : Die) (line : Nat) : Option Nat :=
  ((cdr s d).dir.find? (fun p => match p.2.tr with
    | some t => t.forReq.any (fun q => dirLine s q.region q.attr q.dla == line)
    | none => false)).map (·.1)

/-- Whether a request waits behind a retry of its port at its set: a write-back only behind one to its own line, and not where the open
transaction waits for it (R236, R237). -/
def retryFirst (s : State) (d : Die) (line : Nat) (r : MemReq) : Bool :=
  let mine := (cdr s d).retry.filter (fun q => q.port == r.port && dirSet (dirLine s q.region q.attr q.dla) == dirSet line)
  let crosses := (dirFind s d line).any (fun p => p.2.tr.any (fun t => (crossesSnoop t r).isSome))
  if crosses then false
  else if writesBack s d line r then mine.any (fun q => dirLine s q.region q.attr q.dla == line)
  else !mine.isEmpty

/-- A request behind the open transaction of an entry: held, where it is non-caching and every way of the set is pinned, and where its line
has one held already, so that the order stays (R223, R236). -/
def waitEnt (d : Die) (k set : Nat) (line : Nat) (r : MemReq) (s : State) : State :=
  let before := (cdr s d).held.any (fun q => dirLine s q.region q.attr q.dla == line)
  if writesBack s d line r = false ∧ (before ∨ (caches r = false ∧ pinned s d set = 16)) then
    onlyIf (!before) (setPressure d 6 set) (onCdr d (fun x => { x with held := x.held ++ [r] }) s)
  else onEnt d k (fun x => { x with waiting := x.waiting ++ [r] }) s

/-- A request at the directory is admitted, or waits (R223, R236). -/
def takeIn (d : Die) (r : MemReq) (s : State) : State :=
  let line := dirLine s r.region r.attr r.dla
  let set := dirSet line
  if retryFirst s d line r then onCdr d (fun x => { x with retry := x.retry ++ [r] }) s
  else if let some k := evictFor s d line then onTr d k (fun t => { t with behind := t.behind ++ [r] }) s
  else if (nget (cdr s d).loose line).isSome then onCdr d (fun x => { x with loose := nupd x.loose line (· ++ [r]) }) s
  else
    match dirFind s d line with
    | some (k, e) =>
      (match e.tr with
       | some t =>
         (match crossesSnoop t r with
          | some a => takeWb d k a line r s
          | none => waitEnt d k set line r s)
       | none =>
         if caches r ∧ pinMax s d ≤ pinned s d set then refuseRetry d r set s
         else advance d k (openTr d k r s))
    | none =>
      if needsWay r = false then
        carry { r with track := some (d, line) } (onCdr d (fun x => { x with loose := nset x.loose line [] }) s)
      else if pinMax s d ≤ pinned s d set then refuseRetry d r set s
      else
        match freeWay s d set, victim s d set with
        | some k, _ => advance d k (openTr d k r (onCdr d (fun x => { x with dir := nset x.dir k (newEnt line r.region r.dla) }) s))
        | none, some k => advance d k (openInv d k (some r) (cdrStat d 2 s))
        | none, none => refuseRetry d r set s

/-- A request reaches the directory (R223, R236). -/
def letIn (d : Die) (r : MemReq) (s : State) : State :=
  takeIn d r (lateWb d (dirLine s r.region r.attr r.dla) r (s |> cdrStat d 0 |> signalDie d 0x0580 1))

/-- A request that the RRM has bound goes to the directory of its tracking die, or straight to its home (R215, R216). -/
def presentNow (r : MemReq) (s : State) : State :=
  if atCoherent r.attr then
    let d := atHome r.attr
    let cross := atMirror r.attr && d != r.issuer
    letIn d r (onlyIf cross (fun t => t |> signalDie r.issuer 0x0380 1 |> signalDie d 0x0380 1) s)
  else carry r s

/-- Whether a request goes to a die that its issuer reaches through the Passage. -/
def crossesTo (r : MemReq) (d : Die) : Bool :=
  d != r.issuer && ((atCoherent r.attr && atHome r.attr == d) || (if atMirror r.attr then r.kind == .wr else atHome r.attr == d))

/-- A request that the RRM has bound; toward a die whose core is on the bypass, and during a Passage reset, it waits (R35, R361, R385). -/
def present (r : MemReq) (s : State) : State :=
  if crossesTo r (otherDie r.issuer) && (coreBypass s (otherDie r.issuer) || s.psg.resetting) then
    onDie (otherDie r.issuer) (fun x => { x with psgHeld := x.psgHeld ++ [r] }) s
  else presentNow r s

/-! ### Answers (Tables 9.4 and 9.5) -/

/-- An agent's answer to a snoop. -/
def applyAnswer (d : Die) (k : Nat) (z : Snoop) (ans : SnoopAns) (pend taken : Bool) (s : State) : State :=
  let a := z.agent
  let gone := fun (t : State) =>
    let t1 := onEnt d k (DirEnt.drop a) t
    if pend && !taken && s.dev.mode != .sanitize then cdrStat d 4 (onTr d k (fun x => { x with await := x.await ++ [a] }) t1) else t1
  let shared := fun (t : State) => if taken then t else onEnt d k (fun e => (e.drop a).share a) t
  match z.kind, ans with
  | .data, .s | .cur, .s => shared s
  | .cur, .e => s
  | .data, .e | .inv, .s | .inv, .e => gone (cdrStat d 10 s)
  | _, .i => gone s

/-- The entry whose open transaction waits for an agent's answer about a line. -/
def snooped (s : State) (a dla : Nat) : Option (Die × Nat × DirEnt × CdrTr × Snoop) :=
  (diesPresent s).findSome? (fun d =>
    (cdr s d).dir.findSome? (fun p => match p.2.tr with
      | some t => if p.2.dla = dla then (t.out.find? (fun z => z.agent == a)).map (fun z => (d, p.1, p.2, t, z)) else none
      | none => none))

/-- A snoop answer is applied, and the transaction goes on (R222). -/
def snoopAnswer (a dla : Nat) (ans : SnoopAns) (pend : Bool) (s : State) : State :=
  match snooped s a dla with
  | none => s
  | some (d, k, _, t, z) =>
    let s1 := onTr d k (fun t => { t with out := t.out.filter (· != z) }) s
    recallAdvance d (advance d k (applyAnswer d k z ans pend (t.taken.contains a) s1))

/-! ### Agents that do not answer, or are gone (R229, R231, R232) -/

/-- The entry at which a line of a DLA has its open transaction on a die. -/
def lineTr (s : State) (d : Die) (dla : Nat) : Option (Nat × DirEnt × CdrTr) :=
  (cdr s d).dir.findSome? (fun p => if p.2.dla = dla then p.2.tr.map (fun t => (p.1, p.2, t)) else none)

/-- The record of a directory event about a line. -/
def cdrEv (s : State) (code sev : Nat) (d : Die) (e : DirEnt) (a : Nat) : Ev :=
  ⟨code, sev, locDie d, [it1 e.region, it6 e.dla, it1 a], some e.dla, some (bindOf s (rgAttr s e.region))⟩

/-- AWAIT_WB expires: the line is written as poison, and its entry is freed once that is accepted (R229). -/
def awaitExpire (d : Die) (dla : Nat) (s : State) : State :=
  match lineTr s d dla with
  | none => s
  | some (k, e, t) =>
    if t.await = [] then s
    else
      each t.await (fun a x => x |> onCdr d (fun c => { c with late := c.late ++ [(e.line, a)] }) |> cdrStat d 5
            |> setFlag F.CDR_STATUS.AWAIT_TO d 0 |> post d (cdrEv x 0x0501 sevUncorrected d e a)) s
        |> onTr d k (fun x => { x with await := [], failed := true }) |> poisonLine d k

/-- A snoop stays unanswered: the sharer is dropped, or the owned line poisoned (R231). -/
def snoopExpire (d : Die) (dla a : Nat) (s : State) : State :=
  match lineTr s d dla with
  | none => s
  | some (k, e, t) =>
    if t.out.any (fun z => z.agent == a) then
      let s1 := s |> onTr d k (fun x => { x with out := x.out.filter (fun z => z.agent != a) }) |> lostAgent d k a
      let s2 := if e.x && e.owner == a then s1 |> setFlag F.CDR_STATUS.SNP_TO d 0 |> post d (cdrEv s 0x0502 sevUncorrected d e a)
        else post d (cdrEv s 0x0503 sevInfo d e a) s1
      recallAdvance d (advance d k s2)
    else s

/-- The agents of a die's host port. -/
def portAgents (s : State) (p : Die) : List Nat := ((List.range 8).map (agentOf s p)).eraseDups

/-- A host port goes down: the snoops to its agents are answered at once, and each die starts its walk (R232). -/
def portSnoops (p d : Die) (s : State) : State :=
  let as := portAgents s p
  let s1 := each (cdr s d).dir (fun q t =>
    match q.2.tr with
    | none => t
    | some tr =>
      let lost := tr.out.filter (fun z => as.contains z.agent)
      if lost = [] then t
      else
        let t1 := onTr d q.1 (fun x => { x with out := x.out.filter (fun z => !(as.contains z.agent)) }) t
        advance d q.1 (each lost (fun z => lostAgent d q.1 z.agent) t1)) s
  let owned := ((cdr s d).dir.filter (fun q => q.2.x && as.contains q.2.owner && (match q.2.tr with
    | some tr => tr.out.any (fun z => z.agent == q.2.owner)
    | none => false))).length
  syncWalk d (recallAdvance d (onCdr d (fun x => { x with walks := (x.walks.filter (fun w => w.1 != p)) ++ [(p, owned)] }) s1))

/-- The entry at a place is walked: the agents of a port hold nothing more, and a line that one of them owned is poisoned. -/
def walkEnt (d : Die) (as : List Nat) (k : Nat) (s : State) : State :=
  match nget (cdr s d).dir k with
  | none => s
  | some e =>
    let left := { e with x := e.x && !(as.contains e.owner), sharers := e.sharers.filter (fun a => !(as.contains a)) }
    let s1 := onEnt d k (fun _ => left) s
    if e.x ∧ left.x = false then poisonLine d k s1
    else s1

/-- The walk of a die for a port that has gone down ends (R232). -/
def agentsDropped (d p : Die) (s : State) : State :=
  match (cdr s d).walks.find? (fun w => w.1 == p) with
  | none => s
  | some (_, owned0) =>
    let as := portAgents s p
    let es := (cdr s d).dir
    let owned := (es.filter (fun q => q.2.x && as.contains q.2.owner)).length
    let bits := (es.map (fun q => (q.2.sharers.filter (fun a => as.contains a)).length)).foldl (· + ·) 0
    let s1 := each (es.map (·.1)) (walkEnt d as) s
    let idle := fun (q : Nat × DirEnt) => q.2.tr.isNone && !q.2.x && q.2.sharers.isEmpty
    s1 |> onCdr d (fun x => { x with dir := x.dir.filter (fun q => !(idle q)), walks := x.walks.filter (fun w => w.1 != p) })
       |> setFlag F.CDR_STATUS.PORT_DROP d 0
       |> post d ⟨0x0504, sevUncorrected, locDie d, [it1 (dieNum p), it4 (owned0 + owned), it4 bits], none, none⟩
       |> recallAdvance d |> syncWalk d

end Sys2Proof.Machine
end

