-- ==== Sys2Proof/Machine/HostIn.lean ====
section
/-!
DEFINITION. Sys2Proof/Machine/HostIn.lean: the requests of a host port on their way into the core (R23, R26, Table 1.6), and what a core that
comes back from the bypass takes up (R35, R361).
-/

namespace Sys2Proof.Machine

/-- Change a host port. -/
def onHpc (p : Die) (f : HpcSt → HpcSt) : State → State := onDie p (fun x => { x with hpc := f x.hpc })

/-- A request of a host port: one that the mode or the decode refuses is answered with `refused`, the others go to the directory of
their tracking die or to their home (R23, Table 1.6, Table 16.3). -/
def hostReq (p : Die) (tag hpa : Nat) (kind : ReqKind) (metaS : Bool) (data : LineData) (mask : BitVec 64)
    (refused : Option LineData) (s : State) : State :=
  match hostDecode p hpa (kind == .wr) s with
  | (none, s1) => hostCpl p tag refused (reqCmp kind) s1
  | (some b, s1) =>
    let a := rgAttr s1 b.region
    present { asker := .host p tag, kind := kind, issuer := p, port := hostPort p,
              agent := if portDb s p then some (agentOf s p b.dec) else none, metaS := metaS, region := b.region, attr := a, dla := b.dla,
              data := data, mask := mask, track := none } s1

/-- A host port takes a request. -/
def hostTake (p : Die) (x : HxEntry) (s : State) : State :=
  let read := x.kind == .rdS || x.kind == .rdX || x.kind == .rdNC
  s |> onlyIf read (signalDie p 0x0180 1) |> onlyIf (x.kind == .wr) (signalDie p 0x0181 1)
    |> hostReq p x.tag x.hpa x.kind x.metaS x.data x.mask (if read then some poisoned else none)

/-- The requests that a host port holds are taken, once its core is off the bypass and its link in L0 (R257, R361). -/
def portTakes (d : Die) (s : State) : State :=
  if coreBypass s d ∨ linkHeld s d then s
  else each (die s d).hpc.hxin (hostTake d) (onHpc d (fun h => { h with hxin := [] }) s)

/-- The core of a die is off the bypass: what its ports and the other die have held goes on, in order. -/
def coreBack (d : Die) (s : State) : State :=
  if coreBypass s d then s
  else
    let x := die s d
    let s1 := onDie d (fun y => { y with psgHeld := [], fpc := { y.fpc with fxin := [] } }) s
    s1 |> each x.psgHeld present |> portTakes d |> each x.fpc.fxin (fun f => rxFrame d f.1 f.2.1 f.2.2)

end Sys2Proof.Machine
end

