-- ==== Sys2Proof/Machine/CxlRegs.lean ====
section
/-!
DEFINITION. Sys2Proof/Machine/CxlRegs.lean: what a host port shows of itself in the standard CXL layouts (R241, R244 to R248): the capability word of its
CXL DVSEC, the rate extension DVSEC of Table 10.3, the HDM decoder capability among the component registers and the device registers.
The places of the fields inside the standard structures are those of CXL (PRESUMED, log entry 137); what they hold is the spec's.
-/

namespace Sys2Proof.Machine

/-- The capability word of the port's CXL DVSEC (Table 10.1): CXL.io, CXL.mem, one HDM range and viral; CXL.cache,
multiple logical devices and global persistent flush read as absent. -/
def cxlCapability : Nat := 2 ^ 1 + 2 ^ 2 + 2 ^ 4 + 2 ^ 14

/-- The low size word of range 1 of the CXL DVSEC: memory info valid; Memory_Active, set at the first entry to SERVE or DEGRADED, which is when LOCKED
is set; and the Memory_Active timeout of 64 s (R370, R378). -/
def rangeSizeLow (s : State) : Nat := 1 + 2 * rfc s F.DEV_MODE.LOCKED 0 + 2 ^ 13 * 3

/-- The words of the rate extension DVSEC of a port, by offset from its capability header (Table 10.3). Its vendor ID is the function's, which the
silicon fixes. -/
def rateDvsec (s : State) (p : Die) (o : Nat) : Nat :=
  let h := (die s p).hpc
  let r := rf s F.HPC_LINK_STATUS.RATE p 0
  if o = 0 then 0x0023 + 2 ^ 16
  else if o = 4 then (Config.cxlConst 40).toNat % 65536 + 2 ^ 16 + 2 ^ 20 * 0x18
  else if o = 8 then 1 + 2 ^ 16 * (1 + 2 + 2 ^ 8)
  else if o = 0xC then b2n h.rate128En
  else if o = 0x10 then b2n h.partner128 + 2 * b2n (portUp s p && decide (2 ≤ r)) + 4 * b2n h.rate128Lost
  else 0

/-- The code of CXL for interleave ways and for a granularity. -/
def waysCode (w : Nat) : Nat := if w = 3 then 8 else if w = 6 then 9 else if w = 12 then 10 else w.log2
def granCode (g : Nat) : Nat := g.log2 - 8

/-- The DPA skip of decoder k: what lies between the decoder before it and its start. -/
def hdmSkip (s : State) (p : Die) (k : Nat) (x : HdmDec) : Nat :=
  x.dla - (match nget (die s p).hpc.hdm (k - 1) with
    | some y => if k = 0 then 0 else y.dla + y.size / y.ways
    | none => 0)

/-- The words of decoder k in the HDM decoder capability: base, size, control (committed, or Commit Error) and skip (R246). -/
def hdmWord (s : State) (p : Die) (k o : Nat) : Nat :=
  let h := (die s p).hpc
  match nget h.hdm k with
  | none => if o = 0x10 ∧ h.hdmErr.contains k then 2 ^ 11 + 2 ^ 12 else 0
  | some x =>
    if o = 0 then fld x.base 28 4 * 2 ^ 28
    else if o = 4 then fld x.base 32 32
    else if o = 8 then fld x.size 28 4 * 2 ^ 28
    else if o = 0xC then fld x.size 32 32
    else if o = 0x10 then granCode x.gran + 16 * waysCode x.ways + 2 ^ 9 + 2 ^ 10 + 2 ^ 12
    else if o = 0x14 then fld (hdmSkip s p k x) 28 4 * 2 ^ 28
    else if o = 0x18 then fld (hdmSkip s p k x) 32 32
    else 0

/-- The component registers of a die's HPC block from 0x1000: the capability header, that of the HDM decoder capability, and its registers at 0x40
(R246, R248): eight decoders, one target each, ways 1 to 16 and granularities to 16 KiB. -/
def componentWord (s : State) (d : Die) (o : Nat) : Nat :=
  if o = 0 then 1 + 2 ^ 16 + 2 ^ 20 + 2 ^ 24
  else if o = 4 then 5 + 3 * 2 ^ 16 + 2 ^ 20 * 0x40
  else if o = 0x40 then 4 + 2 ^ 8 + 2 ^ 9 + 2 ^ 11 + 2 ^ 12
  else if o = 0x44 then 2
  else if 0x50 ≤ o ∧ o < 0x150 then hdmWord s d ((o - 0x50) / 32) ((o - 0x50) % 32)
  else 0

/-- The CXL device registers of a die's HPC block from 0x8000 (R248): the capability array of three; the device status at 0x100, a bit for each event
log that holds records; the primary mailbox at 0x120, with a payload of 2^12 bytes (R250), idle whenever it is read; the memory device status at
0x1200: media and mailbox ready, or fatal once viral is signalled (R253). -/
def deviceWord (s : State) (d : Die) (o : Nat) : Nat :=
  let h := (die s d).hpc
  let fatal := h.viralTx
  if o = 0 then 2 ^ 16
  else if o = 4 then 2 ^ 24 + 3
  else if o = 0x10 then 1 + 2 ^ 16
  else if o = 0x14 then 0x100
  else if o = 0x18 then 8
  else if o = 0x20 then 2 + 2 ^ 16
  else if o = 0x24 then 0x120
  else if o = 0x28 then 0x1020
  else if o = 0x30 then 0x4000 + 2 ^ 16
  else if o = 0x34 then 0x1200
  else if o = 0x38 then 8
  else if o = 0x100 then ((List.range 4).map (fun k => 2 ^ k * b2n (!(ngetD h.logs k LogSt.reset).recs.isEmpty))).foldl (· + ·) 0
  else if o = 0x120 then 12
  else if o = 0x1200 then b2n fatal + 4 * (if fatal then 2 else 1) + 16
  else 0

/-- The CXL registers of a die's HPC block at an offset of it (R248): zero where there is none. -/
def cxlWord (s : State) (d : Die) (o : Nat) : Nat :=
  if 0x1000 ≤ o ∧ o < 0x2000 then componentWord s d (o - 0x1000)
  else if 0x8000 ≤ o ∧ o < 0x10000 then deviceWord s d (o - 0x8000)
  else 0

end Sys2Proof.Machine
end

