-- ==== Sys2Proof/Machine/Pmc.lean ====
section
/-!
DEFINITION. Sys2Proof/Machine/Pmc.lean: the counters' commands, snapshots, sensors and power estimates (chapter 18).
-/

namespace Sys2Proof.Machine

/-! ### Counters (R408 to R412) -/

/-- A counter reaches 2^48 and goes on `past` counts beyond: its occurrences of this cycle bring it there (R408). -/
def counterWrap (d : Die) (n past : Nat) (s : State) : State :=
  let v := ngetD (die s d).pmc.cnt n 0
  if ctrRun s = true ∧ bitn (ctrCfg s d n) 24 = true ∧ ctrChained s d n = false then
    let (ws, s1) := ctrAdd d n (2 ^ 48 - v + past % 2 ^ 48) s
    each ws (fun k t => postLim d k (ovfEv d k) [] t) s1
  else s

/-- COUNTER_WRAP (R408). -/
def execCounterWrap (d : Die) (n : Nat) (past : Nat) (s : State) : Host.Outcome State Fault Refusal := .next (counterWrap d n past s)

/-- A read of PMC_CNT_LO of counter n: the low bits, and the latch (R410). -/
def cntLoRead (d : Die) (n : Nat) (s : State) : State :=
  let v := ngetD (die s d).pmc.cnt n 0
  s |> onPmc d (fun p => { p with latch := nset p.latch n (fld v 32 16) })
    |> send (.regData (regAddr .PMC_CNT_LO d n) (BitVec.ofNat 32 v))

/-- A read of PMC_CYC_LO (R410). -/
def cycLoRead (d : Die) (s : State) : State :=
  let v := (die s d).cyc
  s |> onPmc d (fun p => { p with cycLatch := fld v 32 32 }) |> send (.regData (regAddr .PMC_CYC_LO d 0) (BitVec.ofNat 32 v))

/-- COUNTER_LO_READ: PMC_CNT_LO of a counter, or PMC_CYC_LO (R410). -/
def execCounterLoRead (d : Die) (n : Option Nat) (s : State) : Host.Outcome State Fault Refusal :=
  .next (match n with
    | some k => cntLoRead d k s
    | none => cycLoRead d s)

/-- A write of PMC_CNT_HI (R411). -/
def stageWrite (d : Die) (n v : Nat) : State → State := onPmc d (fun p => { p with stage := nset p.stage n (fld v 0 16) })

/-- COUNTER_STAGE_WRITE (R411). -/
def execCounterStageWrite (d : Die) (n : Nat) (value : Word) (s : State) : Host.Outcome State Fault Refusal :=
  .next (barWrite .PMC d (stageWrite d n value.toNat) s)

/-- A write of PMC_CNT_LO: the counter takes the stage and the value (R411). -/
def reprogram (d : Die) (n v : Nat) (s : State) : State :=
  onPmc d (fun p => { p with cnt := nset p.cnt n (ngetD p.stage n 0 * 2 ^ 32 + v % 2 ^ 32) }) s

/-- REPROGRAMMING_WRITE (R411). -/
def execReprogrammingWrite (d : Die) (n : Nat) (value : Word) (s : State) : Host.Outcome State Fault Refusal :=
  .next (barWrite .PMC d (reprogram d n value.toNat) s)

/-! ### Freeze and snapshot (R414 to R417) -/

/-- CTRG_SNAP (R414). -/
def execCtrgSnap (s : State) : Host.Outcome State Fault Refusal := .next (barWrite .CTRG (seniorDie s) requestSnap s)

/-- Zero every programmable counter and PMC_OVF of both dies (R417). -/
def zeroCounters (s : State) : State :=
  each (diesPresent s) (fun d t => t |> onPmc d (fun p => { p with cnt := [] }) |> wf F.PMC_OVF_LO.OVF d 0 0 |> wf F.PMC_OVF_HI.OVF d 0 0) s

/-- What takes effect on an edge of both dies: 0 the counters run, 1 they stop, 2 they are zeroed (R417). -/
def ctrgEdge (k : Nat) (s : State) : State := if k = 2 then zeroCounters s else wfc F.CTRG_STATUS.FROZEN k 0 s

/-- Schedule it: while a snapshot is pending its edge comes after the copy edge, as its target is the later one (R414, R417, Table 18.5); otherwise
at once. -/
def ctrgSchedule (k : Nat) (s : State) : State :=
  if s.snapTarget.isSome then { s with ctrgWait := s.ctrgWait ++ [k] } else ctrgEdge k s

/-- Stop or restart the programmable counters (R417): a write of FREEZE that changes nothing schedules nothing. -/
def freezeCounters (v : Nat) (s : State) : State :=
  if rfc s F.CTRG_CTRL.FREEZE 0 = v then s else ctrgSchedule v (wfc F.CTRG_CTRL.FREEZE v 0 s)

/-- COUNTER_FREEZE (R417). -/
def execCounterFreeze (s : State) : Host.Outcome State Fault Refusal := .next (barWrite .CTRG (seniorDie s) (freezeCounters 1) s)

/-- COUNTER_UNFREEZE (R417). -/
def execCounterUnfreeze (s : State) : Host.Outcome State Fault Refusal := .next (barWrite .CTRG (seniorDie s) (freezeCounters 0) s)

/-- Zero every programmable counter and PMC_OVF of both dies (R417). -/
def clearCounters : State → State := ctrgSchedule 2

/-- CLEAR_ALL (R417). -/
def execClearAll (s : State) : Host.Outcome State Fault Refusal := .next (barWrite .CTRG (seniorDie s) clearCounters s)

/-- The dies that take part in a snapshot. -/
def snapDies (s : State) : List Die := (diesPresent s).filter (fun d => !(unreachable s d))

/-- The shadow bank of a die at the copy edge (Table 18.2). -/
def shadowOf (s : State) (d : Die) (target : Nat) : NMap Nat :=
  (List.range 64).map (fun n => (n, ngetD (die s d).pmc.cnt n 0)) ++ [(64, target), (65, stampNs s d)]

/-- A die's cycle counter reaches the target: its counters are copied; with the last die SEQ advances (R414, R415). -/
def snapshotCopy (d : Die) (s : State) : State :=
  match s.snapTarget with
  | none => s
  | some t =>
    if (die s d).pmc.copied ∨ (snapDies s).contains d = false then s
    else
      let s1 := s |> onDie d (fun x => { x with cyc := max x.cyc t, pmc := { x.pmc with shadow := shadowOf s d t, copied := true } })
        |> onlyIf (coreBypass s d) (wfc F.CTRG_STATUS.SKEWED 1 0)
      if (snapDies s1).all (fun o => (die s1 o).pmc.copied) then
        each (diesPresent s) (fun o => onPmc o (fun p => { p with copied := false }))
          (s1 |> wfc F.CTRG_STATUS.SEQ ((rfc s1 F.CTRG_STATUS.SEQ + 1) % 65536) 0 |> wfc F.CTRG_STATUS.BUSY 0 0 |>
            fun u => each u.ctrgWait ctrgEdge { u with snapTarget := none, ctrgWait := [] })
      else s1

/-- SNAPSHOT_COPY (R414). -/
def execSnapshotCopy (d : Die) (s : State) : Host.Outcome State Fault Refusal := .next (snapshotCopy d s)

/-- The 528 bytes of a die in a snapshot (Table 18.2). -/
def snapBytes (s : State) (d : Die) : List Byte :=
  if diePresent s d then (List.range 66).flatMap (fun i => leBytes 8 (ngetD (die s d).pmc.shadow i 0)) else padTo 528 []

/-! ### Temperatures and power (R419 to R421) -/

/-- The register field of junction sensor k. -/
def tjReg (k : Nat) : RegName := if k < 4 then .PMC_TJ_A else .PMC_TJ_B

/-- Store a sensor's reading. -/
def putTj (d : Die) (k : Nat) (t : Int) (s : State) : State :=
  wrReg (tjReg k) d 0 (setFld (rdReg s (tjReg k) d 0) (8 * (k % 4)) 8 (sbyte t)) s

/-- THROT_C, DRAM_C and HYST as they act. -/
def throtC (s : State) : Nat := clamp 70 105 (rf s F.PMC_THERM_CFG.THROT_C .east 0)
def dramC (s : State) : Nat := clamp 70 105 (rf s F.PMC_THERM_CFG.DRAM_C .east 0)
def hystC (s : State) : Nat := max 1 (rf s F.PMC_THERM_CFG.HYST .east 0)

/-- Whether a sensor is marked bad. -/
def sensorBad (s : State) (d : Die) (k : Nat) : Bool := bitn (rf s F.PMC_THROTTLE.BAD_MASK d 0) k

/-- Mark a sensor bad: reported once (R419). -/
def markBad (d : Die) (k : Nat) (s : State) : State :=
  if sensorBad s d k then s
  else
    s |> wf F.PMC_THROTTLE.BAD_MASK d 0 (setFld (rf s F.PMC_THROTTLE.BAD_MASK d 0) k 1 1) |> setFlag F.PMC_THROTTLE.SENSOR_BAD d 0
      |> post d ⟨0x1063, sevUncorrected, locDie d, [it1 (dieNum d), it1 k], none, none⟩

/-- The highest of some readings with its sensor, the lowest-numbered among equals. -/
def hottest : List (Nat × Int) → Option (Nat × Int)
  | [] => none
  | p :: ps => match hottest ps with
    | none => some p
    | some q => if p.2 < q.2 then some q else some p

/-- TJ_MAX and its sensor from the good sensors; with none good THROT_C, and no sensor is stated (R419). -/
def putTjMax (d : Die) (temps : List Int) (s : State) : State :=
  match hottest ((List.range 8).filter (fun k => !(sensorBad s d k)) |>.map (fun k => (k, temps.getD k 0))) with
  | some (k, t) => s |> wf F.PMC_TJ_SUM.TJ_MAX d 0 (sbyte t) |> wf F.PMC_TJ_SUM.TJ_SENSOR d 0 k
  | none =>
    let (v, s1) := takeFree s
    s1 |> wf F.PMC_TJ_SUM.TJ_MAX d 0 (throtC s) |> wf F.PMC_TJ_SUM.TJ_SENSOR d 0 (v.toNat % 8)

/-- The sensors of a die are sampled: `temps` in whole °C, `failed` the sensors whose conversion fails its self-check
(R419). -/
def sensorSample (d : Die) (temps : List Int) (failed : Nat) (s : State) : State :=
  s |> each (List.range 8) (fun k t => putTj d k (temps.getD k 0) t)
    |> each (List.range 8) (fun k t => if bitn failed k ∨ temps.getD k 0 < -40 ∨ 150 < temps.getD k 0 then markBad d k t else t)
    |> putTjMax d temps

/-- SENSOR_SAMPLE (R419). -/
def execSensorSample (d : Die) (temps : List Int) (failed : Nat) (s : State) : Host.Outcome State Fault Refusal :=
  .next (sensorSample d temps failed s)

/-- The estimates of a die's rails, in units of 0.1 W (R421, Table 18.4). -/
def powerEstimate (d : Die) (rails : List Nat) (s : State) : State :=
  let r := fun k => rails.getD k 0 % 65536
  s |> wf F.PMC_PWR_A.RAIL_LO d 0 (r 0) |> wf F.PMC_PWR_A.RAIL_HI d 0 (r 1)
    |> wf F.PMC_PWR_B.RAIL_LO d 0 (r 2) |> wf F.PMC_PWR_B.RAIL_HI d 0 (r 3)
    |> wf F.PMC_PWR_C.RAIL_LO d 0 (r 4) |> wf F.PMC_PWR_C.RAIL_HI d 0 (r 5)
    |> wf F.PMC_PWR_DIE.RAIL_LO d 0 (min 65535 (r 0 + r 1 + r 2 + r 3 + r 4 + r 5))

/-- POWER_ESTIMATE (R421). -/
def execPowerEstimate (d : Die) (rails : List Nat) (s : State) : Host.Outcome State Fault Refusal := .next (powerEstimate d rails s)

/-- A rank's place and temperature. -/
structure RankTemp where
  chan : Nat
  subB : Nat
  rank : Nat
  temp : Int
  deriving DecidableEq, Repr

/-- The ranks of a die with their temperatures. -/
def rankTemps (s : State) (d : Die) : List RankTemp :=
  (List.range 12).flatMap (fun i => (List.range (popRanks s d)).map (fun r => ⟨i / 2, i % 2, r, (rankOf (sub s d i) r).temp⟩))

/-- The hottest rank of a list, the first among equals. -/
def hotRank : List RankTemp → Option RankTemp
  | [] => none
  | p :: ps => match hotRank ps with
    | none => some p
    | some q => if p.temp < q.temp then some q else some p

/-- DRAM_MAX of a die with its locator (R420). -/
def dramMax (s : State) (d : Die) : RankTemp := (hotRank (rankTemps s d)).getD ⟨0, 0, 0, 0⟩

/-- POSTING_INTERVAL_END: a posting interval of an event in a scope ends with occurrences held back (R462). -/
def execPostingIntervalEnd (d : Die) (code : Nat) (scope : Nat) (s : State) : Host.Outcome State Fault Refusal :=
  .next (postHeld d code scope s)

end Sys2Proof.Machine
end

