-- ==== Sys2Proof/Machine/Cpr.lean ====
section
/-!
DEFINITION. Sys2Proof/Machine/Cpr.lean: the command processor of a die (chapter 12): rings and doorbells, the fetch, check, start
and completion of descriptors, completions and interrupts, the disabling and failure of rings.
-/

namespace Sys2Proof.Machine

/-! ### Rings -/

/-- A submission ring beyond its registers. -/
def sqOf (s : State) (d : Die) (n : Nat) : SqSt := ngetD (die s d).cpr.sqs n SqSt.reset

/-- Change a submission ring. -/
def onSq (d : Die) (n : Nat) (f : SqSt → SqSt) : State → State :=
  onDie d (fun x => { x with cpr := { x.cpr with sqs := nmod x.cpr.sqs n SqSt.reset f } })

/-- A completion ring beyond its registers. -/
def cqOf (s : State) (d : Die) (n : Nat) : CqSt := ngetD (die s d).cpr.cqs n CqSt.reset

/-- Change a completion ring. -/
def onCq (d : Die) (n : Nat) (f : CqSt → CqSt) : State → State :=
  onDie d (fun x => { x with cpr := { x.cpr with cqs := nmod x.cpr.cqs n CqSt.reset f } })

/-- The completion ring that a submission ring names (R287). -/
def sqCq (s : State) (d : Die) (n : Nat) : Nat := rf s F.CPR_SQ_CTRL.CQ d n

/-- The entries of a submission ring. -/
def sqSize (s : State) (d : Die) (n : Nat) : Nat := ringSize (rf s F.CPR_SQ_CTRL.LOG2SIZE d n)

/-- The descriptors of a submission ring that are fetched and not completed. -/
def SqSt.inFlight (q : SqSt) : Nat := q.fetched.length + q.started.length

/-- The kinds of ring (Table 12.1). -/
inductive RingKind where
  | sq | cq | eq
  deriving DecidableEq, Repr

/-- The number of a ring kind, as RING_QUERY and the events give it. -/
def ringNum : RingKind → Nat
  | .sq => 0 | .cq => 1 | .eq => 2

/-- EN, BUSY, ERROR and LOG2SIZE of a ring kind. -/
def ringEn : RingKind → Fld
  | .sq => F.CPR_SQ_CTRL.EN | .cq => F.CPR_CQ_CTRL.EN | .eq => F.CPR_EQ_CTRL.EN
def ringBusy : RingKind → Fld
  | .sq => F.CPR_SQ_CTRL.BUSY | .cq => F.CPR_CQ_CTRL.BUSY | .eq => F.CPR_EQ_CTRL.BUSY
def ringErr : RingKind → Fld
  | .sq => F.CPR_SQ_CTRL.ERROR | .cq => F.CPR_CQ_CTRL.ERROR | .eq => F.CPR_EQ_CTRL.ERROR
def ringLog : RingKind → Fld
  | .sq => F.CPR_SQ_CTRL.LOG2SIZE | .cq => F.CPR_CQ_CTRL.LOG2SIZE | .eq => F.CPR_EQ_CTRL.LOG2SIZE
def ringPtr : RingKind → RegName
  | .sq => .CPR_SQ_PTR | .cq => .CPR_CQ_PTR | .eq => .CPR_EQ_PTR

/-- Whether a ring is enabled and not in ERROR. -/
def ringLive (s : State) (k : RingKind) (d : Die) (n : Nat) : Bool := rfb s (ringEn k) d n && !(rfb s (ringErr k) d n)

/-! ### Descriptors (Table 12.3) -/

/-- A field of a descriptor. -/
def Desc.num (e : Desc) (o n : Nat) : Nat := lineNum e.bytes o n
def Desc.op (e : Desc) : Nat := e.num 0 1
def Desc.fence (e : Desc) : Bool := bitn (e.num 1 1) 0
def Desc.quiet (e : Desc) : Bool := bitn (e.num 1 1) 1
def Desc.irqNow (e : Desc) : Bool := bitn (e.num 1 1) 2
def Desc.tag (e : Desc) : Nat := e.num 2 2
def Desc.arg (e : Desc) : Nat := e.num 4 4

/-- Whether bytes o to o + n − 1 of a descriptor are zero. -/
def Desc.zero (e : Desc) (o n : Nat) : Bool := e.num o n == 0

/-- The opcodes assigned (Tables 12.8, 13.6, 14.5, 8.3 and the opcodes of the TME, PMC and FPC). -/
def assigned (op : Nat) : Bool :=
  [0x00, 0x01, 0x02, 0x03, 0x04, 0x10, 0x11, 0x12, 0x13, 0x18, 0x19, 0x20, 0x21, 0x22, 0x23, 0x30, 0x31, 0x32, 0x33, 0x34,
   0x38, 0x39, 0x3A, 0x3B, 0x3C, 0x3D, 0x3E, 0x50, 0x51, 0x52, 0x60, 0x61, 0x62, 0x63, 0x64, 0x65, 0x80, 0x81, 0x90, 0x91,
   0x92, 0x93].contains op

/-- Whether the unit of an opcode is absent on a part (Table 12.5). -/
def unitAbsent (p : Part) (op : Nat) : Bool :=
  (decide (0x10 ≤ op) && decide (op < 0x50) && (p == .km1622 || p == .km1602)) ||
    (decide (0x90 ≤ op) && decide (op < 0xA0) && p == .km1602)

/-- Whether a descriptor names a local DLA, for MEM_COPY and MEM_FILL (R303). -/
def namesLocal (e : Desc) : Bool := e.op == 2 || (e.op == 1 && fld (e.num 28 1) 0 2 != 0)

/-- The opcodes that a seniority disagreement refuses (Table 16.10). -/
def disagreeRefuses (op : Nat) : Bool := [0x60, 0x61, 0x62, 0x63, 0x64, 0x65, 0x20, 0x21, 0x30, 0x31, 0x33, 0x93].contains op

/-- Whether the mode admits a descriptor (Tables 16.3 and 16.10, R211). -/
def modeAdmits (s : State) (e : Desc) : Bool :=
  !(s.psg.disagree && disagreeRefuses e.op) &&
  match s.dev.mode with
  | .serve | .degraded | .thrift => true
  | .train => decide (e.op ≤ 4) && !(namesLocal e)
  | .frozen => e.op == 3 || e.op == 4 || (decide (0x80 ≤ e.op) && decide (e.op < 0x90))
  | .sanitize => e.op == 0x64
  | .boot | .hold => false

/-- The mark of a key opcode that was fetched while LOCKDOWN was set (R208, Table 8.10). -/
def lockMark : Nat := 100

/-- Whether a ring may not give a key opcode (R188, R208). -/
def keyDenied (s : State) (d : Die) (e : Desc) : Bool :=
  decide (0x60 ≤ e.op) && decide (e.op ≤ 0x65) && e.op != 0x64 &&
    (!(rfb s F.CPR_SQ_CTRL.KEY_ADMIN d e.sq) || (nget e.vals lockMark).isSome)

/-- The status of the first of checks 1 to 6 of Table 12.4 that a descriptor fails; a region's domain is checked by its unit,
before the unit's own checks. -/
def descCheck (s : State) (d : Die) (e : Desc) : Nat :=
  if 0xA0 ≤ e.op then 2
  else if unitAbsent s.dev.part e.op then 1
  else if assigned e.op = false then 2
  else if modeAdmits s e = false then 9
  else if fld (e.num 1 1) 3 5 ≠ 0 then 3
  else if keyDenied s d e then 6 else 0

/-! ### Completion (R295 to R297) -/

/-- CPR_SQ_CTRL.BUSY of a ring that is disabled: descriptors in flight, or completions not written (R301). -/
def syncSq (d : Die) (n : Nat) (s : State) : State :=
  let q := sqOf s d n
  let waits := (cqOf s d (sqCq s d n)).waiting.any (fun (c : Comp) => c.sq == n)
  wf F.CPR_SQ_CTRL.BUSY d n (b2n (!(rfb s F.CPR_SQ_CTRL.EN d n) && (decide (0 < q.inFlight) || waits))) s

/-- CPR_CQ_CTRL.BUSY of a ring whose EN has been cleared: entries to be written, or submission rings that are BUSY (R301). -/
def syncCq (d : Die) (n : Nat) (s : State) : State :=
  if rfb s F.CPR_CQ_CTRL.BUSY d n && (cqOf s d n).waiting.isEmpty
      && !((die s d).cpr.sqs.any (fun p => sqCq s d p.1 == n && rfb s F.CPR_SQ_CTRL.BUSY d p.1)) then
    wf F.CPR_CQ_CTRL.BUSY d n 0 s
  else s

/-- A descriptor leaves its ring with a completion: written later, unless it is QUIET and OK (R296), or its rings have failed or
gone (R301, R302). -/
def complete (d : Die) (e : Desc) (st r0 r1 : Nat) (s : State) : State :=
  let cq := sqCq s d e.sq
  let s1 := s |> onSq d e.sq (fun q => { q with started := q.started.filter (fun (x : Desc) => x.seq != e.seq) })
              |> signalDie d 0x0F80 1
  let dropped := rfb s F.CPR_SQ_CTRL.ERROR d e.sq || !(rfb s F.CPR_CQ_CTRL.EN d cq || rfb s F.CPR_CQ_CTRL.BUSY d cq)
    || rfb s F.CPR_CQ_CTRL.ERROR d cq
  if (e.quiet && st == 0) || dropped then syncCq d cq (syncSq d e.sq s1)
  else syncSq d e.sq (onCq d cq (fun q => { q with waiting := q.waiting ++ [⟨e.sq, e.seq, e.tag, st, r0 % 2 ^ 32, r1 % 2 ^ 64, e.quiet, e.irqNow⟩] }) s1)

/-- Whether a FENCE descriptor may start: every earlier one has completed, and their completions are written (R292). -/
def fenceOpen (s : State) (d : Die) (e : Desc) : Bool :=
  !e.fence || ((sqOf s d e.sq).started.isEmpty && !((cqOf s d (sqCq s d e.sq)).waiting.any (fun (c : Comp) => c.sq == e.sq)))

/-- Start the fetched descriptors of a ring in ring order (R292, R293). In HOLD nothing starts (R381). -/
def startReady (d : Die) (n : Nat) : Nat → State → State
  | 0, s => s
  | fuel + 1, s =>
    match (sqOf s d n).fetched with
    | [] => s
    | e :: es =>
      if ringLive s .sq d n = false ∨ s.dev.mode = .hold ∨ fenceOpen s d e = false then s
      else
        let st := descCheck s d e
        let s1 := onSq d n (fun q => { q with fetched := es, started := q.started ++ [e] }) s
        startReady d n fuel (if st = 0 then s1 else complete d e st 0 0 s1)

/-- Start what may start of a ring. -/
def startSq (d : Die) (n : Nat) (s : State) : State := startReady d n (sqOf s d n).fetched.length s

/-- The end of a descriptor's work: its completion follows when none of its accesses is outstanding (R297). -/
def finishDesc (d : Die) (e : Desc) (st r0 r1 : Nat) (s : State) : State :=
  match (sqOf s d e.sq).started.find? (fun (x : Desc) => x.seq == e.seq) with
  | none => s
  | some x =>
    if x.left = 0 then startSq d e.sq (complete d x st r0 r1 s)
    else onDesc d e.sq e.seq (fun y => { y with phase := 9, vals := nset (nset (nset y.vals 90 st) 91 r0) 92 r1 }) s

/-- A started descriptor. -/
def startedDesc (s : State) (d : Die) (sq seq : Nat) : Option Desc := (sqOf s d sq).started.find? (fun (e : Desc) => e.seq == seq)

/-- An access of a descriptor is done: one whose work has ended completes when nothing is outstanding. -/
def descEvent (d : Die) (sq seq : Nat) (s : State) : State :=
  match startedDesc s d sq seq with
  | none => s
  | some e =>
    if e.phase = 9 ∧ e.left = 0 then startSq d sq (complete d e (ngetD e.vals 90 0) (ngetD e.vals 91 0) (ngetD e.vals 92 0) s) else s

/-- A descriptor that its unit may carry on with: started, with an opcode, with no access outstanding and not ended. The CPR's
units do nothing in HOLD. -/
def descOf (s : State) (d : Die) (sq seq op : Nat) : Option Desc :=
  (startedDesc s d sq seq).filter (fun (e : Desc) => e.op == op && e.left == 0 && e.phase != 9 && !(s.dev.mode == .hold))

/-! ### Interrupts (R298) -/

/-- Send a completion ring's interrupt and restart its count and timer. -/
def cqIrq (d : Die) (n : Nat) (s : State) : State :=
  sendIrq d (rf s F.CPR_CQ_CTRL.VECTOR d n) (onCq d n (fun q => { q with sinceIrq := 0 }) s)

/-- Count a completion toward its ring's interrupt. -/
def cqMod (d : Die) (n : Nat) (now : Bool) (s : State) : State :=
  let q := cqOf s d n
  let k := q.sinceIrq + 1
  let s1 := onCq d n (fun x => { x with sinceIrq := k, firstNs := if q.sinceIrq = 0 then s.nowNs else x.firstNs }) s
  if rfb s F.CPR_CQ_CTRL.IRQ_EN d n && (now || decide (max 1 (rf s F.CPR_CQ_MOD.COUNT d n) ≤ k)) then cqIrq d n s1 else s1

/-! ### Writing completions -/

/-- Whether a completion ring is full (R288). -/
def cqFull (s : State) (d : Die) (n : Nat) : Bool :=
  (rf s F.CPR_CQ_PTR.TAIL d n + 1) % ringSize (rf s F.CPR_CQ_CTRL.LOG2SIZE d n) == rf s F.CPR_CQ_PTR.HEAD d n

/-- The 16 bytes of a completion (Table 12.6). -/
def compBytes (c : Comp) (phase : Bool) : List Byte :=
  leBytes 2 c.tag ++ leBytes 1 c.status ++ leBytes 1 (b2n phase) ++ leBytes 4 c.res0 ++ leBytes 8 c.res1

/-- Note when a completion ring becomes full, or has drained (R296). -/
def cqNote (d : Die) (n : Nat) (s : State) : State :=
  if cqFull s d n then onCq d n (fun q => { q with fullNs := some (q.fullNs.getD s.nowNs) }) s
  else onCq d n (fun q => { q with fullNs := none, stallPosted := false }) s

/-- A submission ring enters ERROR: what it has fetched and not started is never started (R302). -/
def sqError (d : Die) (n : Nat) (s : State) : State :=
  s |> setFlag F.CPR_SQ_CTRL.ERROR d n |> onSq d n (fun q => { q with fetched := [] }) |> syncSq d n

/-- A completion ring enters ERROR, and every submission ring that names it (R302). -/
def cqError (d : Die) (n : Nat) (s : State) : State :=
  let s1 := s |> setFlag F.CPR_CQ_CTRL.ERROR d n |> onCq d n (fun q => { q with waiting := [], fullNs := none })
  let sqs := (List.range 256).filter (fun k => sqCq s d k == n && (rfb s F.CPR_SQ_CTRL.EN d k || rfb s F.CPR_SQ_CTRL.BUSY d k))
  syncCq d n (each sqs (sqError d) s1)

/-- A write of a completion or event ring cannot be sent (R302). -/
def ringWriteError (k : RingKind) (d : Die) (n : Nat) (s : State) : State :=
  let s1 := match k with
    | .cq => cqError d n s
    | .sq | .eq => setFlag (ringErr k) d n s
  s1 |> setFlag F.CPR_STATUS.WRITE_ERR d 0 |> post d ⟨0x0F03, sevUncorrected, locDie d, [it1 (ringNum k), it2 n], none, none⟩

/-- Every ring of a die enters ERROR when its host port goes down (R302). -/
def ringsDown (d : Die) (s : State) : State :=
  let up := fun (k : RingKind) (t : State) (n : Nat) => (rfb t (ringEn k) d n || rfb t (ringBusy k) d n) && !(rfb t (ringErr k) d n)
  let s1 := each (List.range 256) (fun n t => if up .cq t n then cqError d n t else t) s
  let s2 := each (List.range 256) (fun n t => if up .sq t n then sqError d n t else t) s1
  each (List.range 4) (fun n t => if up .eq t n then setFlag F.CPR_EQ_CTRL.ERROR d n t else t) s2

/-- Write the completion at the front of those that wait for a ring (R295 to R297); `ok` is whether the port could send it. -/
def writeComp (d : Die) (n : Nat) (ok : Bool) (s : State) : State :=
  match (cqOf s d n).waiting with
  | [] => s
  | c :: cs =>
    if cqFull s d n ∨ rfb s F.CPR_CQ_CTRL.ERROR d n ∨ s.dev.mode = .hold then s
    else if ok = false ∨ portAlive s d = false then ringWriteError .cq d n s
    else
      let tail := rf s F.CPR_CQ_PTR.TAIL d n
      let phase := rfb s F.CPR_CQ_CTRL.PHASE d n
      let next := (tail + 1) % ringSize (rf s F.CPR_CQ_CTRL.LOG2SIZE d n)
      s |> onCq d n (fun q => { q with waiting := cs })
        |> send (.hostWrite d (ringBase s F.CPR_CQ_BASE_LO.BASE_LO F.CPR_CQ_BASE_HI.BASE_HI d n + 16 * tail) (compBytes c phase) false)
        |> wf F.CPR_CQ_PTR.TAIL d n next |> onlyIf (next == 0) (wf F.CPR_CQ_CTRL.PHASE d n (b2n (!phase)))
        |> addCount d .CPR 1 1
        |> onSq d c.sq (fun q => { q with oldest := max q.oldest (c.seq + 1) })
        |> cqMod d n c.irqNow |> cqNote d n |> startSq d c.sq |> syncSq d c.sq |> syncCq d n

/-! ### Fetching (R291, R302) -/

/-- The descriptors in flight on a die. -/
def dieInFlight (s : State) (d : Die) : Nat := ((die s d).cpr.sqs.map (fun p => p.2.inFlight)).foldl (· + ·) 0

/-- Whether the CPR may fetch the next descriptor of a ring (R291, R296, R381). -/
def mayFetch (s : State) (d : Die) (n : Nat) : Bool :=
  let q := sqOf s d n
  ringLive s .sq d n && portUp s d && !(fenced s d) && !(s.dev.mode == .boot) && !(s.dev.mode == .hold)
    && !(s.dev.trans == some .toHold) && ((cqOf s d (sqCq s d n)).waiting.isEmpty || !(cqFull s d (sqCq s d n)))
    && decide (q.next < q.tailSeq) && decide (q.inFlight < 256) && decide (dieInFlight s d < 4096)

/-- Fetch one descriptor of a ring: its bytes, or none where the host answers with an error or poison. -/
def fetchOne (d : Die) (n : Nat) (l : Option Line) (s : State) : State :=
  if mayFetch s d n = false then s
  else
    let q := sqOf s d n
    match l with
    | none =>
      s |> sqError d n |> setFlag F.CPR_STATUS.FETCH_ERR d 0
        |> post d ⟨0x0F02, sevUncorrected, locDie d, [it2 n, it2 (q.next % sqSize s d n)], none, none⟩
    | some b =>
      let e : Desc := ⟨n, q.next, b, 0, 0, [], [], if rfc s F.SEC_POLICY.LOCKDOWN = 1 then [(lockMark, 1)] else []⟩
      s |> onSq d n (fun q => { q with fetched := q.fetched ++ [e], next := q.next + 1 })
        |> wf F.CPR_SQ_PTR.HEAD d n ((q.next + 1) % sqSize s d n) |> addCount d .CPR 0 1

/-- One turn of the CPR for a ring: up to 8 descriptors, which then start in ring order (R291, R292). -/
def fetchTurn (d : Die) (n : Nat) (ls : List (Option Line)) (s : State) : State :=
  startSq d n (each (ls.take 8) (fetchOne d n) s)

/-! ### Doorbells (R289, R290) -/

/-- The die that owns a ring, if one does (R285). -/
def ringOwner (s : State) (k : RingKind) (n : Nat) : Option Die := (diesPresent s).find? (fun d => rfb s (ringEn k) d n)

/-- A doorbell write that is ignored. -/
def badDoorbell (d : Die) (n value : Nat) (s : State) : State :=
  s |> setFlag F.CPR_STATUS.BAD_DB d 0 |> addCount d .CPR 3 1
    |> postLim d 0 ⟨0x0F01, sevInfo, locDie d, [it2 n ++ it4 value], none, none⟩ []

/-- The new index of a doorbell where the write is well formed. -/
def doorbellIndex (s : State) (k : RingKind) (d : Die) (n value size : Nat) : Option Nat :=
  if size ≠ 4 ∨ value / 65536 ≠ 0 ∨ ringLive s k d n = false ∨ ringSize (rf s (ringLog k) d n) ≤ value then none else some value

/-- A tail doorbell of a submission ring. -/
def sqDoorbell (d : Die) (n v : Nat) (s : State) : Option State :=
  let q := sqOf s d n
  let size := sqSize s d n
  let fwd := (v + size - q.tailSeq % size) % size
  if q.tailSeq + fwd - q.oldest ≤ size - 1 then
    some (s |> onSq d n (fun q => { q with tailSeq := q.tailSeq + fwd }) |> wf F.CPR_SQ_PTR.TAIL d n v)
  else none

/-- Whether a new head lies from the present head forward to the present tail. -/
def headFits (size head tail v : Nat) : Bool := decide ((v + size - head) % size ≤ (tail + size - head) % size)

/-- A head doorbell of a completion ring: completions that waited may now be written. -/
def cqDoorbell (d : Die) (n v : Nat) (s : State) : Option State :=
  if headFits (ringSize (rf s F.CPR_CQ_CTRL.LOG2SIZE d n)) (rf s F.CPR_CQ_PTR.HEAD d n) (rf s F.CPR_CQ_PTR.TAIL d n) v then
    some (cqNote d n (wf F.CPR_CQ_PTR.HEAD d n v s))
  else none

/-- The EQ_OVERFLOW record (R300): into its ring alone, and counted nowhere. -/
def eqOverflow (d : Die) (e : Nat) (s : State) : State :=
  let lost := rf s F.CPR_EQ_LOST.COUNT d e
  if lost ≠ 0 ∧ eqFull s d e = false then
    wf F.CPR_EQ_LOST.COUNT d e 0
      (eqPut d e ⟨stampNs s d, 0x0F04, sevInfo, locDie d, packDetails [it1 e, it4 lost]⟩ s)
  else s

/-- A head doorbell of an event ring (R300). -/
def eqDoorbell (d : Die) (n v : Nat) (s : State) : Option State :=
  if headFits (ringSize (rf s F.CPR_EQ_CTRL.LOG2SIZE d n)) (rf s F.CPR_EQ_PTR.HEAD d n) (rf s F.CPR_EQ_PTR.TAIL d n) v then
    some (eqOverflow d n (wf F.CPR_EQ_PTR.HEAD d n v s))
  else none

/-- A doorbell write on a host port: applied by the die that owns the ring, across the Passage where that is the other die
(R289, R290). A write to a ring that no die has enabled is bad at the die of the port. -/
def doorbell (k : RingKind) (port : Die) (n value size : Nat) (s : State) : State :=
  if diePresent s port = false ∨ portAlive s port = false then s
  else
    let d := (ringOwner s k n).getD port
    let s1 := onlyIf (d != port) (fun t => t |> signalDie port 0x0380 1 |> signalDie d 0x0380 1) s
    let r := match doorbellIndex s k d n value size with
      | none => none
      | some v => match k with
        | .sq => sqDoorbell d n v s1
        | .cq => cqDoorbell d n v s1
        | .eq => eqDoorbell d n v s1
    r.getD (badDoorbell d n value s1)

/-! ### Enabling and disabling (R285 to R287, R301) -/

/-- An enable, a disable or a write of a ring is refused with a REASON. -/
def ringRefuse (k : RingKind) (d : Die) (n reason : Nat) (s : State) : State :=
  s |> setFlag F.CPR_STATUS.RING_REFUSED d 0 |> wf F.CPR_STATUS.REASON d 0 reason
    |> post d ⟨0x0F05, sevInfo, locDie d, [it1 (ringNum k), it2 n, it1 reason], none, none⟩

/-- The REASON with which an enable is refused, if any. -/
def enableReason (s : State) (k : RingKind) (d : Die) (n : Nat) : Option Nat :=
  if rfb s (ringBusy k) d n then some 7
  else if diePresent s (otherDie d) && rfb s (ringEn k) (otherDie d) n then some 1
  else if rf s (ringLog k) d n < 6 ∨ 16 < rf s (ringLog k) d n then some 2
  else if k = .sq ∧ rfb s F.CPR_CQ_CTRL.EN d (sqCq s d n) = false then some 4 else none

/-- The number from which a ring's descriptors count after an enable: a slot 0, above every number it has used. -/
def firstSeq (q : SqSt) : Nat := (q.next + 65535) / 65536 * 65536

/-- Enable a ring: head and tail at 0, the first pass with PHASE 1, and out of ERROR (R295, R301, R302). -/
def ringEnable (k : RingKind) (d : Die) (n : Nat) (s : State) : State :=
  if rfb s (ringEn k) d n then s
  else
    match enableReason s k d n with
    | some r => ringRefuse k d n r s
    | none =>
      let s1 := s |> wf (ringEn k) d n 1 |> wf (ringErr k) d n 0 |> wrReg (ringPtr k) d n 0
      match k with
      | .sq => onSq d n (fun q => ⟨[], [], firstSeq q, firstSeq q, firstSeq q⟩) s1
      | .cq => s1 |> wf F.CPR_CQ_CTRL.PHASE d n 1 |> onCq d n (fun _ => CqSt.reset)
      | .eq => s1 |> wf F.CPR_EQ_CTRL.PHASE d n 1 |> wf F.CPR_EQ_LOST.COUNT d n 0 |> onEq d n (fun _ => CqSt.reset)

/-- Disable a submission ring: what was fetched and not started completes with ABORTED (R301). -/
def sqDisable (d : Die) (n : Nat) (s : State) : State :=
  if rfb s F.CPR_SQ_CTRL.EN d n = false then s
  else
    let es := (sqOf s d n).fetched
    let s1 := s |> wf F.CPR_SQ_CTRL.EN d n 0 |> onSq d n (fun q => { q with fetched := [] })
    syncSq d n (each es (fun (e : Desc) => complete d e 7 0 0) s1)

/-- Disable a completion ring: refused while an enabled submission ring names it; it is gone once nothing is to be written
(R287, R301). -/
def cqDisable (d : Die) (n : Nat) (s : State) : State :=
  if rfb s F.CPR_CQ_CTRL.EN d n = false then s
  else if (List.range 256).any (fun k => rfb s F.CPR_SQ_CTRL.EN d k && sqCq s d k == n) then ringRefuse .cq d n 5 s
  else
    let busy := !(cqOf s d n).waiting.isEmpty || (List.range 256).any (fun k => rfb s F.CPR_SQ_CTRL.BUSY d k && sqCq s d k == n)
    s |> wf F.CPR_CQ_CTRL.EN d n 0 |> wf F.CPR_CQ_CTRL.BUSY d n (b2n busy)

/-- Disable an event ring: every record is written as it is posted, so that nothing keeps it BUSY. -/
def eqDisable (d : Die) (n : Nat) (s : State) : State := wf F.CPR_EQ_CTRL.EN d n 0 s

end Sys2Proof.Machine
end

