-- ==== Sys2Proof/Machine/Engine.lean ====
section
/-!
DEFINITION. Sys2Proof/Machine/Engine.lean: how descriptors reach memory: their checks against regions (Table 1.6, R186, R303), their
accesses as requests, ranges of bytes in lines, host memory, and the view that the LKE and the QUE have of their lines.
-/

namespace Sys2Proof.Machine

/-! ### Checks -/

/-- Whether a ring may reach the region of a DLA: the SLOT_DENIED row of Table 1.6 is posted where not. A DLA in no region is
left to the unit's own checks. -/
def domainCheck (d : Die) (sq dla : Nat) (p : Port) (s : State) : Bool × State :=
  match regionOf s dla with
  | none => (true, s)
  | some n => if ringBound s d sq n then (true, s) else (false, rrmDenied d p 4 n dla (rrmCount d p none s))

/-- The region that holds a whole range. -/
def rangeRegion (s : State) (dla len : Nat) : Option Nat := (regionOf s dla).filter (fun n => rgHolds s n (dla + len - 1))

/-- The status of a descriptor that names a local range: BAD_FIELD where no one enabled region holds it, ACCESS_DENIED for a
write of an OWNER = LKE region (R303), 0 otherwise. -/
def rangeStatus (s : State) (dla len : Nat) (write : Bool) : Nat :=
  match rangeRegion s dla len with
  | none => 3
  | some n => if write ∧ atOwner (rgAttr s n) = 1 then 6 else 0

/-! ### Requests -/

/-- The request of access k of a descriptor, issued by a die. -/
def descReq (s : State) (o d : Die) (e : Desc) (p : Port) (k n dla : Nat) (kind : ReqKind) (l : LineData) (mask : BitVec 64) : MemReq :=
  { asker := .desc d e.sq e.seq k, kind := kind, issuer := o, port := p, agent := none, metaS := false, region := n, attr := rgAttr s n,
    dla := dla, data := l, mask := mask, track := none }

/-- The engine of a die issues an access of a descriptor to a line of a region that it works under (R20). -/
def boundOne (o d : Die) (e : Desc) (p : Port) (k n dla : Nat) (kind : ReqKind) (l : LineData) (mask : BitVec 64) (s : State) : State :=
  s |> onDesc d e.sq e.seq (fun x => { x with left := x.left + 1 }) |> rrmCount o p (some (rgHomeDie s n o))
    |> later (.present (descReq s o d e p k n dla kind l mask))

/-- The engine of a die issues an access of a descriptor to a line: as unmapped, a read is poison and a write is discarded
(Table 1.6). -/
def issueOne (o d : Die) (e : Desc) (p : Port) (k dla : Nat) (kind : ReqKind) (l : LineData) (mask : BitVec 64) (s : State) : State :=
  match regionOf s dla with
  | none =>
    let s1 := onDesc d e.sq e.seq (fun x => { x with left := x.left + 1 }) s
    answer (.desc d e.sq e.seq k) (if kind = .wr then none else some poisoned) .plain (unmapped o p dla (rrmCount o p none s1))
  | some n => boundOne o d e p k n dla kind l mask s

/-- Issue reads of lines, the k-th as access k from a first number. -/
def issueReads (o d : Die) (e : Desc) (p : Port) (k0 : Nat) (dlas : List Nat) : State → State :=
  each dlas.zipIdx (fun q => issueOne o d e p (k0 + q.2) q.1 .rdNC ⟨0, false⟩ 0)

/-- A write of a part of a line. -/
structure PartWrite where
  dla : Nat
  line : Line
  mask : BitVec 64
  poison : Bool
  deriving DecidableEq, Repr

/-- Issue writes; their numbers lie above those of reads. -/
def issueWrites (o d : Die) (e : Desc) (p : Port) (ws : List PartWrite) : State → State :=
  each ws.zipIdx (fun q => issueOne o d e p (2 ^ 40 + q.2) q.1.dla .wr ⟨q.1.line, q.1.poison⟩ q.1.mask)

/-! ### Ranges of bytes -/

/-- The lines that a range of bytes touches. -/
def rangeLines (a len : Nat) : List Nat := if len = 0 then [] else (List.range ((a + len - 1) / 64 - a / 64 + 1)).map (fun k => (a / 64 + k) * 64)

/-- The writes of bytes at an address: one for each line that they touch. -/
def byteWrites (a : Nat) (bs : List Byte) (poison : Bool) : List PartWrite :=
  (rangeLines a bs.length).map (fun ln =>
    let bytes := (List.range 64).map (fun b => if a ≤ ln + b then bs.getD (ln + b - a) 0 else 0)
    let mask := (List.range 64).foldl (fun v b => if a ≤ ln + b ∧ ln + b < a + bs.length then v + 2 ^ b else v) 0
    ⟨ln, lineOf bytes, BitVec.ofNat 64 mask, poison⟩)

/-- The bytes of a range, out of the lines that came for it (numbered from k0), with whether any of them was poison. -/
def rangeBytes (e : Desc) (k0 a len : Nat) : List Byte × Bool :=
  let ls := (rangeLines a len).zipIdx.map (fun p => ngetD e.got (k0 + p.2) poisoned)
  (((ls.flatMap (fun l => lineBytes l.line)).drop (a % 64)).take len, ls.any (·.poison))

/-- The 64-byte pieces of a range, each poison where a line it lies in is. -/
def rangePieces (e : Desc) (k0 a n : Nat) : List LineData :=
  (List.range n).map (fun i =>
    let l0 := ngetD e.got (k0 + i) poisoned
    if a % 64 = 0 then l0
    else
      let l1 := ngetD e.got (k0 + i + 1) poisoned
      ⟨lineOf (((lineBytes l0.line ++ lineBytes l1.line).drop (a % 64)).take 64), l0.poison || l1.poison⟩)

/-! ### Host memory -/

/-- A posted write to host memory through a die's port, which is sent while the port is up (R297). -/
def hostPut (d : Die) (addr : Nat) (bs : List Byte) (poison : Bool) (s : State) : State :=
  onlyIf (portAlive s d) (send (.hostWrite d addr bs poison)) s

/-- Bytes that host memory returned, in pieces of 64: those that did not come, or came with an error or poison, are poison. -/
def hostPieces (host : List LineData) (n : Nat) : List LineData := (List.range n).map (fun k => host.getD k poisoned)

/-- A place in host memory or in a local range. -/
structure Place where
  loc : Bool
  addr : Nat
  deriving DecidableEq, Repr

/-- Put bytes at a place: to the host as a posted write, to a local range as writes of the descriptor. -/
def putAt (d : Die) (e : Desc) (p : Port) (pl : Place) (bs : List Byte) (s : State) : State :=
  if bs.isEmpty then s
  else if pl.loc then issueWrites d d e p (byteWrites pl.addr bs false) s else hostPut d pl.addr bs false s

/-! ### The view of an engine -/

/-- What an engine has read and is about to write: its die and region, the lines that have come (R307, R344), those that it has to ask for, the
first line found poison, the first line found malformed and the rule that it breaks, the lines written, and
every write in turn, the last first. -/
structure Eng where
  die : Die
  region : Nat
  got : NMap LineData
  need : List Nat
  bad : Option Nat
  mal : Option (Nat × Nat)
  put : NMap Line
  turns : List (Nat × Line)
  deriving DecidableEq, Repr

/-- The view that an engine begins with, out of the lines that have come. -/
def Eng.start (d : Die) (n : Nat) (got : NMap LineData) : Eng := ⟨d, n, got, [], none, none, [], []⟩

/-- Whether a view holds a line. -/
def Eng.has (v : Eng) (ln : Nat) : Bool := (nget v.put ln).isSome || (nget v.got ln).isSome

/-- Ask for lines together, those that the view does not hold. -/
def Eng.fetch (v : Eng) (dlas : List Nat) : Eng :=
  if v.need.isEmpty then
    { v with need := ((dlas.map (· / 64)).eraseDups.filter (fun ln => !(v.has ln))).map (· * 64) }
  else v

/-- Do independent work on a view: what it has to ask for is asked for beside what was asked for before. -/
def Eng.par {α : Type} (v : Eng) (f : Eng → α × Eng) : α × Eng :=
  let (x, w) := f { v with need := [] }
  (x, { w with need := v.need ++ w.need.filter (fun a => !(v.need.contains a)) })

/-- Read a line. One that has not come is asked for, and the view reads as zeros from there on, asking for nothing that depends on it; one that
is poison reads as zeros, with the view marked. -/
def Eng.read (v : Eng) (dla : Nat) : Line × Eng :=
  let ln := dla / 64
  match nget v.put ln, nget v.got ln with
  | some l, _ => (l, v)
  | none, some l => if l.poison then (0, { v with bad := some (v.bad.getD (ln * 64)) }) else (l.line, v)
  | none, none => (0, v.fetch [dla])

/-- Mark a line as malformed, by the rule that it breaks (R324). -/
def Eng.broken (v : Eng) (line rule : Nat) : Eng := { v with mal := some (v.mal.getD (line, rule)) }

/-- Write a line. -/
def Eng.write (v : Eng) (dla : Nat) (l : Line) : Eng := { v with put := nset v.put (dla / 64) l, turns := (dla / 64, l) :: v.turns }

/-- Read n bytes, which lie within one line. -/
def Eng.num (v : Eng) (a n : Nat) : Nat × Eng :=
  let (l, v1) := v.read a
  (lineNum l (a % 64) n, v1)

/-- Write n bytes, which lie within one line. -/
def Eng.setNum (v : Eng) (a n x : Nat) : Eng :=
  let (l, v1) := v.read a
  v1.write (a / 64 * 64) (lineSet l (a % 64) n x)

/-- Whether a view is good: nothing to wait for. -/
def Eng.whole (v : Eng) : Bool := v.need.isEmpty

/-- The lines that a descriptor's engine has to wait for are asked for, each numbered by itself, and counted in a count of the unit's own. -/
def Eng.ask (v : Eng) (d : Die) (e : Desc) (p : Port) (b : RegBlock) (k : Nat) (s : State) : State :=
  each v.need (fun dla => boundOne v.die d e p (dla / 64) v.region dla .rdNC ⟨0, false⟩ 0) (addCount v.die b k v.need.length s)

/-- Writes of a descriptor's engine to lines of the region that it works under. -/
def Eng.issue (v : Eng) (d : Die) (e : Desc) (p : Port) (ws : List PartWrite) : State → State :=
  each ws.zipIdx (fun q => boundOne v.die d e p (2 ^ 40 + q.2) v.region q.1.dla .wr ⟨q.1.line, q.1.poison⟩ q.1.mask)

/-- A whole line as a write. -/
def wholeWrite (q : Nat × Line) : PartWrite := ⟨q.1 * 64, q.2, BitVec.allOnes 64, false⟩

/-- The lines that an engine has written enter memory as writes of its descriptor. -/
def Eng.commit (v : Eng) (d : Die) (e : Desc) (p : Port) (s : State) : State := v.issue d e p (v.put.map wholeWrite) s

/-! ### An engine's own work -/

/-- A request of an engine's own work on a die: access k of piece `id` (R20, R30). -/
def workReq (s : State) (o : Die) (id : Nat) (p : Port) (k n dla : Nat) (kind : ReqKind) (l : LineData) (mask : BitVec 64) : MemReq :=
  { asker := .work o id k, kind := kind, issuer := o, port := p, agent := none, metaS := false, region := n, attr := rgAttr s n,
    dla := dla, data := l, mask := mask, track := none }

/-- Issue an access of an engine's own work to a line of its region. -/
def workOne (o : Die) (id : Nat) (p : Port) (k n dla : Nat) (kind : ReqKind) (l : LineData) (mask : BitVec 64) (s : State) : State :=
  s |> onWork o id (fun w => { w with left := w.left + 1 }) |> rrmCount o p (some (rgHomeDie s n o))
    |> later (.present (workReq s o id p k n dla kind l mask))

/-- The lines that an engine's own work has to wait for are asked for. -/
def Eng.askWork (v : Eng) (id : Nat) (p : Port) (b : RegBlock) (k : Nat) (s : State) : State :=
  each v.need (fun dla => workOne v.die id p (dla / 64) v.region dla .rdNC ⟨0, false⟩ 0) (addCount v.die b k v.need.length s)

/-- Writes of an engine's own work. -/
def workWrites (o : Die) (id : Nat) (p : Port) (n : Nat) (ws : List PartWrite) : State → State :=
  each ws.zipIdx (fun q => workOne o id p (2 ^ 40 + q.2) n q.1.dla .wr ⟨q.1.line, q.1.poison⟩ q.1.mask)

/-- Writes of an engine that nobody waits for. -/
def freeWrites (o : Die) (p : Port) (n : Nat) (ws : List PartWrite) : State → State :=
  each ws (fun w t => later (.present { workReq t o 0 p 0 n w.dla .wr ⟨w.line, w.poison⟩ w.mask with asker := .nobody })
    (rrmCount o p (some (rgHomeDie t n o)) t))

/-- The lines that a view has written, as writes. -/
def Eng.writes (v : Eng) : List PartWrite := v.put.map wholeWrite

/-- A piece of own work of a die, of a kind, if one runs. -/
def workOf (s : State) (o : Die) (k : WorkKind) : Option (Nat × EngWork) := (die s o).work.find? (fun p => p.2.kind == k)

/-- The piece of own work of a kind: that which runs, or a new one with nothing come. -/
def takeWork (o : Die) (k : WorkKind) (s : State) : (Nat × EngWork) × State :=
  match workOf s o k with
  | some w => (w, s)
  | none =>
    let id := s.seq + 1
    let w : EngWork := ⟨k, 0, [], false⟩
    ((id, w), onDie o (fun x => { x with work := nset x.work id w }) { s with seq := id })

/-- A piece of own work is done. -/
def dropWork (o : Die) (id : Nat) : State → State := onDie o (fun x => { x with work := nerase x.work id })

end Sys2Proof.Machine
end

