-- ==== Sys2Proof/Machine/CprOps.lean ====
section
/-!
DEFINITION. Sys2Proof/Machine/CprOps.lean: the general opcodes of the command processor (Table 12.8, R303). Each works on a started
descriptor; one that makes accesses ends when they have all been answered (R297).
-/

namespace Sys2Proof.Machine

/-- NOP: RESULT0 = bytes 8–11. -/
def opNop (d : Die) (e : Desc) (s : State) : State :=
  if e.arg ≠ 0 ∨ e.zero 16 48 = false then finishDesc d e 3 0 0 s else finishDesc d e 0 (e.num 8 4) 0 s

/-- TIMESTAMP: the die and the nanoseconds since reset. -/
def opTimestamp (d : Die) (e : Desc) (s : State) : State :=
  if e.arg ≠ 0 ∨ e.zero 8 56 = false then finishDesc d e 3 0 0 s else finishDesc d e 0 (dieNum d) s.upNs s

/-- The kind of ring that a number names. -/
def ringKind (n : Nat) : Option RingKind := if n = 0 then some .sq else if n = 1 then some .cq else if n = 2 then some .eq else none

/-- The state of a ring as RING_QUERY gives it: 0 disabled, 1 enabled, 2 busy, 3 error. -/
def ringState (s : State) (k : RingKind) (d : Die) (n : Nat) : Nat :=
  if rfb s (ringErr k) d n then 3 else if rfb s (ringBusy k) d n then 2 else rf s (ringEn k) d n

/-- The die that a query of a ring finds it on: the one where it is enabled or busy, else the ring's own. -/
def queryDie (s : State) (k : RingKind) (d : Die) (n : Nat) : Die :=
  ((diesPresent s).find? (fun x => rfb s (ringEn k) x n || rfb s (ringBusy k) x n)).getD d

/-- RING_QUERY: the pointers and state of a ring. -/
def opRingQuery (d : Die) (e : Desc) (s : State) : State :=
  let n := e.num 9 2
  match ringKind (e.num 8 1) with
  | none => finishDesc d e 3 0 0 s
  | some k =>
    if e.arg ≠ 0 ∨ e.zero 11 53 = false ∨ (if k = .eq then 4 else 256) ≤ n then finishDesc d e 3 0 0 s
    else
      let o := queryDie s k d n
      let flight := if k = .sq then (sqOf s o n).inFlight else 0
      finishDesc d e 0 (rdReg s (ringPtr k) o n) (ringState s k o n + 8 * dieNum o + 65536 * flight) s

/-! ### MEM_COPY and MEM_FILL (R303) -/

/-- The source and destination of a MEM_COPY, and its length. -/
def copySrc (e : Desc) : Place := ⟨bitn (e.num 28 1) 0, e.num 8 8⟩
def copyDst (e : Desc) : Place := ⟨bitn (e.num 28 1) 1, e.num 16 8⟩
def copyLen (e : Desc) : Nat := e.num 24 4

/-- The field checks of MEM_COPY that name no region. -/
def copyFieldsOk (e : Desc) : Bool :=
  e.arg == 0 && copyLen e % 64 == 0 && decide (64 ≤ copyLen e) && decide (copyLen e ≤ 2 ^ 24) && decide (fld (e.num 28 1) 2 6 = 0)
    && e.zero 29 35 && ((copySrc e).loc || (copyDst e).loc)

/-- The status of the range checks of a place: none for a host address. -/
def placeStatus (s : State) (pl : Place) (len : Nat) (write : Bool) : Nat := if pl.loc then rangeStatus s pl.addr len write else 0

/-- The domain check of a place: none for a host address. -/
def placeDomain (d : Die) (sq : Nat) (pl : Place) (s : State) : Bool × State :=
  if pl.loc then domainCheck d sq pl.addr .cpr s else (true, s)

/-- The first of a list of statuses that is not OK. -/
def firstBad (l : List Nat) : Nat := (l.find? (fun x => x != 0)).getD 0

/-- The index of the first poisoned piece. -/
def firstPoison (ls : List LineData) : Option Nat := ls.findIdx? (·.poison)

/-- Write the pieces of a copy to its destination, and end it. -/
def copyOut (d : Die) (e : Desc) (ls : List LineData) (s : State) : State :=
  let dst := copyDst e
  let pieces := ls.zipIdx
  let res1 := match firstPoison ls with
    | some i => 64 * i
    | none => 2 ^ 64 - 1
  let status := if (firstPoison ls).isSome then 5 else 0
  if dst.loc ∧ (rangeRegion s dst.addr (copyLen e)).isNone then
    finishDesc d e 7 0 0 (unmapped d .cpr dst.addr (rrmCount d .cpr none s))
  else
    let s1 := if dst.loc then issueWrites d d e .cpr (pieces.flatMap (fun q => byteWrites (dst.addr + 64 * q.2) (lineBytes q.1.line) q.1.poison)) s
      else each pieces (fun q => hostPut d (dst.addr + 64 * q.2) (lineBytes q.1.line) q.1.poison) s
    finishDesc d e status (copyLen e) res1 s1

/-- MEM_COPY: its checks, then the reads of a local source, and when they have come the writes. `host` is what host memory
returned for a host source, in pieces of 64 bytes. -/
def opMemCopy (d : Die) (e : Desc) (host : List LineData) (s : State) : State :=
  let src := copySrc e
  let dst := copyDst e
  let n := copyLen e / 64
  if e.phase = 1 then copyOut d e (rangePieces e 0 src.addr n) s
  else
    let (ok, s1) := placeDomain d e.sq src s
    let (ok2, s2) := if ok then placeDomain d e.sq dst s1 else (false, s1)
    if ok2 = false then finishDesc d e 6 0 0 s2
    else if copyFieldsOk e = false then finishDesc d e 3 0 0 s2
    else
      let st := firstBad [placeStatus s2 src (copyLen e) false, placeStatus s2 dst (copyLen e) true]
      if st ≠ 0 then finishDesc d e st 0 0 s2
      else if src.loc = false then copyOut d e (hostPieces host n) s2
      else
        s2 |> onDesc d e.sq e.seq (fun x => { x with phase := 1 }) |> issueReads d d e .cpr 0 (rangeLines src.addr (copyLen e))

/-- The field checks of MEM_FILL that name no region. -/
def fillFieldsOk (e : Desc) : Bool :=
  e.arg == 0 && e.num 24 4 % 64 == 0 && decide (64 ≤ e.num 24 4) && e.zero 28 36

/-- MEM_FILL: the value in every 8-byte word of the range. -/
def opMemFill (d : Die) (e : Desc) (s : State) : State :=
  let a := e.num 8 8
  let len := e.num 24 4
  let (ok, s1) := domainCheck d e.sq a .cpr s
  if ok = false then finishDesc d e 6 0 0 s1
  else if fillFieldsOk e = false then finishDesc d e 3 0 0 s1
  else if rangeStatus s1 a len true ≠ 0 then finishDesc d e (rangeStatus s1 a len true) 0 0 s1
  else
    let l := patternLine (BitVec.ofNat 64 (e.num 16 8))
    let ws := (List.range (len / 64)).flatMap (fun k => byteWrites (a + 64 * k) (lineBytes l) false)
    finishDesc d e 0 len 0 (issueWrites d d e .cpr ws s1)

end Sys2Proof.Machine
end

