-- ==== Sys2Proof/Machine/Lke.lean ====
section
/-!
DEFINITION. Sys2Proof/Machine/Lke.lean: the tables of the Lookup Engine (R305 to R312, R315 to R317): where they lie, exact-match
buckets and lookups, longest-prefix nodes and lookups.
-/

namespace Sys2Proof.Machine

/-! ### Tables -/

/-- A table, where its number is in use. -/
def tblOf (s : State) (k : Nat) : Option TblSt := nget s.tables k

/-- A table that is valid. -/
def tblValid (s : State) (k : Nat) : Option TblSt := (tblOf s k).filter (fun (t : TblSt) => t.valid)

/-- Change a table, in both dies' copies. -/
def onTbl (k : Nat) (f : TblSt → TblSt) (s : State) : State := { s with tables := nupd s.tables k f }

/-- The die whose LKE carries out a table's updates (R306). -/
def tblHome (s : State) (t : TblSt) : Die := atHome (rgAttr s t.region)

/-- The die whose LKE carries out a lookup of a ring's die (R306). -/
def lookupDie (s : State) (t : TblSt) (d : Die) : Die := homeDie (rgAttr s t.region) d

/-- The parity of a publish count, and that of the stage that follows it (R312, R318). -/
def TblSt.parity (t : TblSt) : Nat := t.pub % 2
def TblSt.stage (t : TblSt) : Nat := (t.pub + 1) % 2

/-- The lines of a table. -/
def TblSt.lines (t : TblSt) : Nat := t.size / 64

/-- The address of line k of a table. -/
def TblSt.at_ (t : TblSt) (k : Nat) : Nat := t.base + 64 * k

/-- The entries that a table holds in the stage log (R318). -/
def StageLog.entries (l : StageLog) : Nat := l.lines.length + l.pairs.length + l.recs.length

/-- The stage log entries in use on a die: those of every table homed there. -/
def logUsed (s : State) (d : Die) : Nat :=
  ((s.tables.filter (fun p => tblHome s p.2 == d)).map (fun p => p.2.log.entries)).foldl (· + ·) 0

/-! ### Exact match: hashing and buckets (R310, R311) -/

/-- Whether keys lie in records. -/
def TblSt.long (t : TblSt) : Bool := decide (12 < t.keyLen)

/-- The buckets of an EM table. -/
def TblSt.nb (t : TblSt) : Nat := 2 ^ t.log2nb

/-- A hash of a key. -/
def emHash (t : TblSt) (j key : Nat) : Nat := (crc32c (BitVec.ofNat 32 (t.seeds.getD j 0)) (leBytes t.keyLen key)).toNat

/-- The two buckets of a key. -/
def emBuckets (t : TblSt) (key : Nat) : Nat × Nat :=
  let b1 := emHash t 0 key % t.nb
  let b2 := emHash t 1 key % t.nb
  (b1, if b2 = b1 then Nat.xor b1 1 else b2)

/-- A slot: bytes 0 to 11, RESULT and STATE (Table 13.3). -/
structure EmSlot where
  k : Nat
  res : Nat
  st : Nat
  deriving DecidableEq, Repr

/-- Slot i of a bucket's line. -/
def slotAt (l : Line) (i : Nat) : EmSlot := ⟨lineNum l (16 * i) 12, fld (lineNum l (16 * i + 12) 4) 0 24, fld (lineNum l (16 * i + 12) 4) 24 3⟩

/-- A bucket's line with slot i set. -/
def setSlot (l : Line) (i : Nat) (x : EmSlot) : Line :=
  lineSet (lineSet l (16 * i) 12 x.k) (16 * i + 12) 4 (x.res % 2 ^ 24 + (x.st % 8) * 2 ^ 24)

/-- An empty slot. -/
def EmSlot.empty : EmSlot := ⟨0, 0, 0⟩

/-- The record line that a slot names. -/
def EmSlot.record (x : EmSlot) : Nat := fld x.k 32 31

/-- Whether a slot is visible to a lookup of a parity (R312). -/
def emVisible (p : Nat) (x : EmSlot) : Bool := x.st == 1 || x.st == 2 + p || x.st == 5 - p

/-- Whether a slot is in the staged view of a stage's parity. -/
def emStaged (q : Nat) (x : EmSlot) : Bool := x.st == 1 || x.st == 2 + q

/-- Read slot i of a bucket; a STATE of 6 or 7 is malformed (R324). -/
def emSlot (t : TblSt) (b i : Nat) (v : Eng) : EmSlot × Eng :=
  let (l, v1) := v.read (t.at_ b)
  let x := slotAt l i
  (x, if 6 ≤ x.st then v1.broken b 0 else v1)

/-- Write slot i of a bucket. -/
def emPut (t : TblSt) (b i : Nat) (x : EmSlot) (v : Eng) : Eng :=
  let (l, v1) := v.read (t.at_ b)
  v1.write (t.at_ b) (setSlot l i x)

/-- The first record line of a table of long keys. -/
def recFirst (t : TblSt) : Nat := t.nb + t.nb / 128

/-- The key of a slot, out of its record where keys are long; a record outside the table is malformed. -/
def emKey (t : TblSt) (b : Nat) (x : EmSlot) (v : Eng) : Nat × Eng :=
  if t.long = false then (x.k % 2 ^ (8 * t.keyLen), v)
  else if x.record < recFirst t ∨ t.lines ≤ x.record then (0, v.broken b 1)
  else
    let (l, v1) := v.read (t.at_ x.record)
    (lineNum l 0 t.keyLen, v1)

/-- Whether a slot holds a key: by its bytes, or by its fingerprint and then its record. -/
def emHolds (t : TblSt) (key b : Nat) (x : EmSlot) (v : Eng) : Bool × Eng :=
  if t.long && x.k % 2 ^ 32 != emHash t 2 key then (false, v)
  else
    let (k, v1) := emKey t b x v
    (k == key, v1)

/-- The first slot of a bucket, of a kind, that holds a key. -/
def emIn (t : TblSt) (seen : EmSlot → Bool) (key b : Nat) : List Nat → Eng → Option (Nat × Nat × EmSlot) × Eng
  | [], v => (none, v)
  | i :: is, v =>
    let (x, v1) := emSlot t b i v
    if seen x then
      let (y, v2) := emHolds t key b x v1
      if y then (some (b, i, x), v2) else emIn t seen key b is v2
    else emIn t seen key b is v1

/-- The slot, of a kind, that holds a key: in its first bucket, then in its second (R312). Both are read together. -/
def emFind (t : TblSt) (seen : EmSlot → Bool) (key : Nat) (v : Eng) : Option (Nat × Nat × EmSlot) × Eng :=
  let (b1, b2) := emBuckets t key
  match emIn t seen key b1 [0, 1, 2, 3] (v.fetch [t.at_ b1, t.at_ b2]) with
  | (some r, v2) => (some r, v2)
  | (none, v2) => emIn t seen key b2 [0, 1, 2, 3] v2

/-! ### Longest prefix: entries and nodes (R315, R316) -/

/-- An entry. -/
structure LpmEnt where
  res : Nat
  child : Nat
  hit : Bool
  deriving DecidableEq, Repr

/-- An entry out of its 8 bytes, and back. -/
def lpmEnt (x : Nat) : LpmEnt := ⟨fld x 0 32, fld x 32 31, bitn x 63⟩
def entNum (x : LpmEnt) : Nat := x.res % 2 ^ 32 + (x.child % 2 ^ 31) * 2 ^ 32 + b2n x.hit * 2 ^ 63

/-- The address width of a table. -/
def lpmWidth (t : TblSt) : Nat := if t.type = 1 then 32 else 128

/-- Byte k of an address given as bytes in network order. -/
def addrByte (a : List Byte) (k : Nat) : Nat := (a.getD k 0).toNat

/-- The direct entry index of an address. -/
def directIx (a : List Byte) : Nat := addrByte a 0 * 256 + addrByte a 1

/-- The offset of copy p of direct entry x, and of the direct shadow's entry k. -/
def directOff (x p : Nat) : Nat := 16 * x + 8 * p
def shadowOff (k : Nat) : Nat := 0x100000 + 8 * k

/-- The runs of a RUNMAP up to index v. -/
def runsUpTo (l : Line) (v : Nat) : Nat := ((List.range (v + 1)).filter (fun i => l.getLsbD i)).length

/-- A CHILD that lies outside its table is malformed (R324). -/
def childOk (t : TblSt) (line : Nat) (x : LpmEnt) (v : Eng) : LpmEnt × Eng :=
  if t.lines ≤ x.child then ({ x with child := 0 }, v.broken line 2) else (x, v)

/-- Copy p of direct entry x. -/
def directEnt (t : TblSt) (x p : Nat) (v : Eng) : LpmEnt × Eng :=
  let (n, v1) := v.num (t.base + directOff x p) 8
  childOk t (directOff x p / 64) (lpmEnt n) v1

/-- The entry of a node for index i of a byte: inline, or in the external array; an array line outside the table is malformed. -/
def nodeEnt (t : TblSt) (node i : Nat) (v : Eng) : LpmEnt × Eng :=
  let (l, v1) := v.read (t.at_ node)
  let k := runsUpTo l i - 1
  let base := fld (lineNum l 32 4) 0 31
  if runsUpTo l 255 ≤ 3 then childOk t node (lpmEnt (lineNum l (40 + 8 * k) 8)) v1
  else if t.lines ≤ base then (⟨0, 0, false⟩, v1.broken node 3)
  else if t.lines ≤ base + k / 8 then (⟨0, 0, false⟩, v1.broken node 4)
  else
    let (n, v2) := v1.num (t.at_ (base + k / 8) + 8 * (k % 8)) 8
    childOk t (base + k / 8) (lpmEnt n) v2

/-- The walk of R317 below an entry, `fuel` levels deep. -/
def lpmWalk (t : TblSt) (a : List Byte) : Nat → Nat → LpmEnt → Option Nat → Eng → Option Nat × Eng
  | 0, _, _, best, v => (best, v)
  | fuel + 1, d, e, best, v =>
    if e.child = 0 ∨ lpmWidth t ≤ d then (best, v)
    else
      let (x, v1) := nodeEnt t e.child (addrByte a (d / 8)) v
      lpmWalk t a fuel (d + 8) x (if x.hit then some x.res else best) v1

/-- The longest prefix that covers an address, under a parity (R317). -/
def lpmFind (t : TblSt) (p : Nat) (a : List Byte) (v : Eng) : Option Nat × Eng :=
  let (e, v1) := directEnt t (directIx a) p v
  lpmWalk t a 14 16 e (if e.hit then some e.res else none) v1

/-! ### One lookup -/

/-- What a lookup of one key answers. -/
structure Hit where
  res : Nat
  hit : Bool
  poison : Bool
  deriving DecidableEq, Repr

/-- An answer out of what was found: a line that was poison or malformed makes it poison (R324). -/
def hitOf (r : Option Nat) (v : Eng) : Hit :=
  if v.bad.isSome || v.mal.isSome then ⟨0, false, true⟩ else ⟨r.getD 0, r.isSome, false⟩

/-- Look up one key, given as its bytes, in a table of either kind. Every lookup begins with no line found bad. -/
def lookupKey (t : TblSt) (key : List Byte) (v0 : Eng) : Hit × Eng :=
  let v := { v0 with bad := none, mal := none }
  if t.type = 0 then
    let (r, v1) := emFind t (emVisible t.parity) (fromLe (key.take t.keyLen)) v
    (hitOf (r.map (fun x => x.2.2.res)) v1, v1)
  else
    let (r, v1) := lpmFind t t.parity key v
    (hitOf r v1, v1)

/-- The counts of a lookup (LKE_COUNT 0, 1, 2, 8) and its signal. -/
def countLookup (o : Die) (t : TblSt) (h : Hit) (s : State) : State :=
  s |> addCount o .LKE (if t.type = 0 then 0 else 1) 1 |> addCount o .LKE 2 (b2n h.hit) |> addCount o .LKE 8 (b2n h.poison) |> signalDie o 0x0D80 1

/-- A malformed line of a table is reported (R324). -/
def formatFault (o : Die) (k : Nat) (m : Option (Nat × Nat)) (s : State) : State :=
  match m with
  | none => s
  | some (line, rule) =>
    s |> setFlag F.LKE_STATUS.FORMAT o 0
      |> post o ⟨0x0D01, sevUncorrected, locDie o, [it1 k, it4 line, it1 (Config.detailCode 0x0D01 rule)], none, none⟩

/-! ### Descriptors of tables -/

/-- The table that a descriptor names. -/
def Desc.table (e : Desc) : Nat := e.arg % 64

/-- The table of a descriptor that may be worked on, or the status of the check that it fails: its ring's domain, UNIT_ARG, that it
is valid, and its type. -/
def tableCheck (d : Die) (e : Desc) (typeOk : TblSt → Bool) (s : State) : Except Nat TblSt × State :=
  match tblValid s e.table with
  | none => (.error (if 64 ≤ e.arg then 3 else 0x0A), s)
  | some t =>
    let (ok, s1) := domainCheck d e.sq t.base .lke s
    if ok = false then (.error 6, s1)
    else if 64 ≤ e.arg ∨ typeOk t = false then (.error 3, s1) else (.ok t, s1)

/-- Whether a descriptor has begun: it has asked for lines, or come past the first part of its work. -/
def Desc.begun (e : Desc) : Bool := !e.got.isEmpty || decide (0 < e.left) || e.phase != 0

/-- The opcodes that look up, and those that change a table. -/
def lookupOps : List Nat := [0x10, 0x11, 0x12, 0x13]
def updateOps : List Nat := [0x18, 0x19, 0x22]

/-- Whether a descriptor of a table other than the one given, with one of some opcodes, has begun, and a property. -/
def tableOps (s : State) (k : Nat) (ops : List Nat) (d : Die) (e : Desc) (f : Desc → Bool) : Bool :=
  (diesPresent s).any (fun o => (die s o).cpr.sqs.any (fun p => p.2.started.any (fun (x : Desc) =>
    ops.contains x.op && x.table == k && !(o == d && x.sq == e.sq && x.seq == e.seq) && x.begun && f x)))

/-- Whether a lookup or an update of a table has begun and not ended (R309, R320). -/
def tableBusy (s : State) (k : Nat) (ops : List Nat) (d : Die) (e : Desc) : Bool := tableOps s k ops d e (fun _ => true)

/-- The descriptor of no ring. -/
def Desc.noOne : Desc := ⟨256, 0, 0, 0, 0, [], [], []⟩

/-- The place among a descriptor's values of the PUB that it sampled. -/
def pubKey : Nat := 20

/-- Whether a lookup that sampled a PUB before the present one is in flight (R320). -/
def oldLookups (s : State) (k : Nat) (t : TblSt) : Bool :=
  tableOps s k lookupOps .east Desc.noOne (fun x => ngetD x.vals pubKey t.pub != t.pub)

/-- The table that a descriptor works on: checked by one that begins; one that has begun goes on with the table as it sampled it, though it
be destroyed or its region disabled meanwhile (R309, R312, Table 13.7). -/
def tableFor (d : Die) (e : Desc) (typeOk : TblSt → Bool) (s : State) : Except Nat TblSt × State :=
  if e.begun then
    match tblOf s e.table with
    | some t => (.ok { t with pub := ngetD e.vals pubKey t.pub }, s)
    | none => (.error 0x0A, s)
  else tableCheck d e typeOk s

/-- A lookup of a descriptor samples the PUB (R312). -/
def samplePub (d : Die) (e : Desc) (t : TblSt) : State → State :=
  onDesc d e.sq e.seq (fun x => { x with vals := nset x.vals pubKey t.pub })

/-- Whether it is the turn of an update or a publish: no other of its table has begun, and none before it in its ring is left (R318). A
publish waits for the writes of the updates before it too. -/
def tableTurn (s : State) (d : Die) (e : Desc) (publish : Bool) : Bool :=
  let open_ := fun (x : Desc) => publish || x.phase != 9
  !(tableOps s e.table updateOps d e open_) &&
    !(((sqOf s d e.sq).started.takeWhile (fun (x : Desc) => x.seq != e.seq)).any (fun (x : Desc) =>
        updateOps.contains x.op && x.table == e.table && open_ x))

end Sys2Proof.Machine
end

