-- ==== Sys2Proof/Machine/LkeUpd.lean ====
section
/-!
DEFINITION. Sys2Proof/Machine/LkeUpd.lean: changes of a table in its open stage (R313, R318): insertion with displacements, deletion,
and the update of longest-prefix nodes with copies of what lookups can reach.
-/

namespace Sys2Proof.Machine

/-! ### Allocation in bitmaps -/

/-- Read and write bit i of a bitmap at an address. -/
def bitGet (a i : Nat) (v : Eng) : Bool × Eng :=
  let (l, v1) := v.read (a + 64 * (i / 512))
  (l.getLsbD (i % 512), v1)
def bitSet (a i : Nat) (x : Bool) (v : Eng) : Eng :=
  let (l, v1) := v.read (a + 64 * (i / 512))
  v1.write ((a + 64 * (i / 512)) / 64 * 64) (BitVec.ofNat 512 (setFld l.toNat (i % 512) 1 (b2n x)))

/-- Set or clear a run of bits. -/
def bitRun (a i n : Nat) (x : Bool) (v : Eng) : Eng := (List.range n).foldl (fun w k => bitSet a (i + k) x w) v

/-- Whether a run of bits is clear. -/
def runClear (a i : Nat) : Nat → Eng → Bool × Eng
  | 0, v => (true, v)
  | n + 1, v =>
    let (b, v1) := bitGet a (i + n) v
    if b then (false, v1) else runClear a i n v1

/-- Take the lowest clear run of n bits at or above i, at a multiple of `step` from `i`, below a limit (log entry 24). -/
def takeRun (a n step lim : Nat) : Nat → Nat → Eng → Option Nat × Eng
  | 0, _, v => (none, v)
  | fuel + 1, i, v =>
    if lim < i + n then (none, v)
    else
      let (ok, v1) := runClear a i n v
      if ok then (some i, bitRun a i n true v1) else takeRun a n step lim fuel (i + step) v1

/-! ### Exact match -/

/-- The bitmap of key records. -/
def recMap (t : TblSt) : Nat := t.base + 64 * t.nb

/-- Free the record of a slot (R320). -/
def freeRecord (t : TblSt) (x : EmSlot) (v : Eng) : Eng := if t.long then bitSet (recMap t) (x.record - recFirst t) false v else v

/-- The slot that will hold a new key: its bytes, or its fingerprint and a new record. -/
def newSlot (t : TblSt) (key res st : Nat) (v : Eng) : Option EmSlot × Eng :=
  if t.long = false then (some ⟨key, res, st⟩, v)
  else
    match takeRun (recMap t) 1 1 (4 * t.nb) (4 * t.nb) 0 v with
    | (none, v1) => (none, v1)
    | (some r, v1) =>
      let line := recFirst t + r
      (some ⟨emHash t 2 key + line * 2 ^ 32, res, st⟩, v1.write (t.at_ line) (BitVec.ofNat 512 key))

/-- A chain of displacements: the bucket at its end, and the slots that move, the last first. -/
structure Chain where
  bucket : Nat
  moves : List (Nat × Nat)
  deriving DecidableEq, Repr

/-- The first EMPTY slot of a bucket. -/
def emptyIn (t : TblSt) (b : Nat) : List Nat → Eng → Option Nat × Eng
  | [], v => (none, v)
  | i :: is, v =>
    let (x, v1) := emSlot t b i v
    if x.st = 0 then (some i, v1) else emptyIn t b is v1

/-- The first chain whose end has an EMPTY slot, with that slot. -/
def endsEmpty (t : TblSt) : List Chain → Eng → Option (Chain × Nat) × Eng
  | [], v => (none, v)
  | c :: cs, v =>
    match emptyIn t c.bucket [0, 1, 2, 3] v with
    | (some i, v1) => (some (c, i), v1)
    | (none, v1) => endsEmpty t cs v1

/-- The chains that go one slot further from a chain's end, to buckets not reached before. -/
def chainsFrom (t : TblSt) (c : Chain) : List Nat → List Nat → Eng → List Chain × List Nat × Eng
  | [], seen, v => ([], seen, v)
  | i :: is, seen, v =>
    let (x, v1) := emSlot t c.bucket i v
    let (k, v2) := emKey t c.bucket x v1
    let (b1, b2) := emBuckets t k
    let other := if b1 = c.bucket then b2 else b1
    if seen.contains other then chainsFrom t c is seen v2
    else
      let (cs, seen2, v3) := chainsFrom t c is (seen ++ [other]) v2
      (⟨other, (c.bucket, i) :: c.moves⟩ :: cs, seen2, v3)

/-- Every chain one slot further. -/
def chainsNext (t : TblSt) : List Chain → List Nat → Eng → List Chain × List Nat × Eng
  | [], seen, v => ([], seen, v)
  | c :: cs, seen, v =>
    let (xs, seen1, v1) := chainsFrom t c [0, 1, 2, 3] seen v
    let (ys, seen2, v2) := chainsNext t cs seen1 v1
    (xs ++ ys, seen2, v2)

/-- The breadth-first search of R313, to a depth. -/
def findChain (t : TblSt) : Nat → List Chain → List Nat → Eng → Option (Chain × Nat) × Eng
  | depth, cs, seen, v =>
    match endsEmpty t cs (v.fetch (cs.map (fun c => t.at_ c.bucket))) with
    | (some r, v1) => (some r, v1)
    | (none, v1) =>
      match depth with
      | 0 => (none, v1)
      | n + 1 =>
        let (xs, seen1, v2) := chainsNext t cs seen v1
        findChain t n xs seen1 v2

/-- Move the slots of a chain from its empty end back: the place left free for the new key (R313). -/
def moveChain (t : TblSt) : List (Nat × Nat) → Nat × Nat → Eng → (Nat × Nat) × Eng
  | [], free, v => (free, v)
  | (b, i) :: ms, free, v =>
    let (x, v1) := emSlot t b i v
    moveChain t ms (b, i) (emPut t b i EmSlot.empty (emPut t free.1 free.2 x v1))

/-- What a change of a table comes to: a unit status, whether a key or prefix was replaced, the displacements made, how the staged
view grows, and what the change releases. -/
structure Change where
  status : Nat
  replaced : Bool
  moves : Nat
  grow : Int
  log : StageLog
  deriving DecidableEq, Repr

/-- A change that is refused with a status. -/
def Change.refuse (st : Nat) (l : StageLog) : Change := ⟨st, false, 0, 0, l⟩

/-- Insert a key that the staged view does not hold: its displacements, or NO_RESOURCE (R313). -/
def emInsert (t : TblSt) (depth key res : Nat) (v : Eng) : Option Nat × Eng :=
  let (b1, b2) := emBuckets t key
  match findChain t depth [⟨b1, []⟩, ⟨b2, []⟩] [b1, b2] v with
  | (none, v1) => (none, v1)
  | (some (c, i), v1) =>
    let (place, v2) := moveChain t c.moves (c.bucket, i) v1
    match newSlot t key res (2 + t.stage) v2 with
    | (none, v3) => (none, v3)
    | (some x, v3) => (some c.moves.length, emPut t place.1 place.2 x v3)

/-- EM_UPDATE of an open stage (R318): `op` 0 INSERT, 1 REPLACE, 2 DELETE. -/
def emChange (t : TblSt) (depth op key res : Nat) (v : Eng) : Change × Eng :=
  let q := t.stage
  match emFind t (emStaged q) key v with
  | (some (b, i, x), v1) =>
    if op = 0 then (Change.refuse 0x41 t.log, v1)
    else if op = 1 then
      if x.st = 1 then
        (match emInsert t depth key res (emPut t b i { x with st := 4 + q } v1) with
         | (none, v2) => (Change.refuse 4 t.log, v2)
         | (some n, v2) => (⟨0, true, n, 0, { t.log with recs := if t.long then t.log.recs ++ [x.record] else t.log.recs }⟩, v2))
      else (⟨0, true, 0, 0, t.log⟩, emPut t b i { x with res := res } v1)
    else if x.st = 1 then
      (⟨0, false, 0, -1, { t.log with recs := if t.long then t.log.recs ++ [x.record] else t.log.recs }⟩, emPut t b i { x with st := 4 + q } v1)
    else (⟨0, false, 0, -1, t.log⟩, freeRecord t x (emPut t b i EmSlot.empty v1))
  | (none, v1) =>
    if op = 2 then (Change.refuse 0x0A t.log, v1)
    else
      match emInsert t depth key res v1 with
      | (none, v2) => (Change.refuse 4 t.log, v2)
      | (some n, v2) => (⟨0, false, n, 1, t.log⟩, v2)

/-! ### Longest prefix -/

/-- The first line of the node pool, its bitmap, its first line that can be given out, and its lines. -/
def poolLine : Nat := 0x200000 / 64
def poolMap (t : TblSt) : Nat := t.base + 0x200000
def poolLines (t : TblSt) : Nat := t.lines - poolLine
def poolFirst (t : TblSt) : Nat := (poolLines t + 511) / 512

/-- Take n lines of the pool: the first of them, counted from the table base. Node pairs begin at an even line. -/
def takeLines (t : TblSt) (n : Nat) (pair : Bool) (v : Eng) : Option Nat × Eng :=
  let i0 := if pair then (poolFirst t + 1) / 2 * 2 else poolFirst t
  let (r, v1) := takeRun (poolMap t) n (if pair then 2 else 1) (poolLines t) (poolLines t) i0 v
  (r.map (fun i => poolLine + i), v1)

/-- Give lines back to the pool. -/
def freeLines (t : TblSt) (line n : Nat) (v : Eng) : Eng := bitRun (poolMap t) (line - poolLine) n false v

/-- A node as an update works on it: the prefixes that it stores by bit of its internal bitmap, its children by index, and the arrays
that it uses. -/
structure LNode where
  pres : NMap Nat
  kids : NMap Nat
  arrays : List (Nat × Nat)
  deriving DecidableEq, Repr

/-- A node with nothing in it. -/
def LNode.empty : LNode := ⟨[], [], []⟩

/-- The bit of the internal bitmap of relative length l and value p. -/
def preBit (l p : Nat) : Nat := 2 ^ l - 2 + p

/-- Read the prefixes of a node: its shadow's bits, and their results in bit order. -/
def readPres (t : TblSt) (base : Nat) : List Nat → Nat → Eng → NMap Nat × Eng
  | [], _, v => ([], v)
  | b :: bs, k, v =>
    let (x, v1) := v.num (t.at_ (base + k / 16) + 4 * (k % 16)) 4
    let (rest, v2) := readPres t base bs (k + 1) v1
    ((b, x) :: rest, v2)

/-- Read the children of a node. -/
def readKids (t : TblSt) (node : Nat) : List Nat → Eng → NMap Nat × Eng
  | [], v => ([], v)
  | i :: is, v =>
    let (x, v1) := nodeEnt t node i v
    let (rest, v2) := readKids t node is v1
    (if x.child = 0 then rest else (i, x.child) :: rest, v2)

/-- Read a node and its shadow; an array outside the table is malformed. -/
def readNode (t : TblSt) (node : Nat) (v : Eng) : LNode × Eng :=
  if node = 0 then (LNode.empty, v)
  else
    let (l, v1) := (v.fetch [t.at_ node, t.at_ (node + 1)]).read (t.at_ node)
    let (sh, v2) := v1.read (t.at_ (node + 1))
    let bits := (List.range 510).filter (fun i => sh.getLsbD i)
    let pb := fld (lineNum l 36 4) 0 31
    let eb := fld (lineNum l 32 4) 0 31
    let runs := runsUpTo l 255
    if bits ≠ [] ∧ t.lines ≤ pb + (bits.length - 1) / 16 then (LNode.empty, v2.broken node 5)
    else
      let arrays := (List.range ((bits.length + 15) / 16)).map (fun k => t.at_ (pb + k)) ++
        (if 3 < runs ∧ eb + (runs - 1) / 8 < t.lines then (List.range ((runs + 7) / 8)).map (fun k => t.at_ (eb + k)) else [])
      let (ps, v3) := readPres t pb bits 0 (v2.fetch arrays)
      let (ks, v4) := readKids t node (List.range 256) v3
      (⟨ps, ks, (if 3 < runs then [(eb, (runs + 7) / 8)] else []) ++ (if bits = [] then [] else [(pb, (bits.length + 15) / 16)])⟩, v4)

/-- The result of the longest prefix of a node that covers an index. -/
def nodeBest (pres : NMap Nat) (i : Nat) : Option Nat := [8, 7, 6, 5, 4, 3, 2, 1].findSome? (fun l => nget pres (preBit l (i / 2 ^ (8 - l))))

/-- The entry of a node for an index. -/
def nodeEntry (n : LNode) (i : Nat) : LpmEnt := ⟨(nodeBest n.pres i).getD 0, ngetD n.kids i 0, (nodeBest n.pres i).isSome⟩

/-- The indices at which a node's entries change, 0 among them. -/
def runStarts (n : LNode) : List Nat := (List.range 256).filter (fun i => i == 0 || nodeEntry n i != nodeEntry n (i - 1))

/-- Write numbers of a size one after another from a line on. -/
def putNums (t : TblSt) (line size : Nat) (xs : List Nat) (v : Eng) : Eng :=
  xs.zipIdx.foldl (fun w p => w.setNum (t.at_ line + size * p.2) size p.1) v

/-- Write a node at a pair, with the arrays that it needs (Table 13.4); none where the pool has no room. -/
def writeNode (t : TblSt) (node : Nat) (n : LNode) (v : Eng) : Option Unit × Eng :=
  let starts := runStarts n
  let ents := starts.map (fun i => entNum (nodeEntry n i))
  let map := starts.foldl (fun x i => x + 2 ^ i) 0
  let (eb, v1) := if 3 < ents.length then takeLines t ((ents.length + 7) / 8) false v else (some 0, v)
  let (pb, v2) := if n.pres = [] then (some 0, v1) else takeLines t ((n.pres.length + 15) / 16) false v1
  match eb, pb with
  | some e, some p =>
    let inline_ := if 3 < ents.length then 0 else ents.zipIdx.foldl (fun x q => x + q.1 * 2 ^ (320 + 64 * q.2)) 0
    let line := BitVec.ofNat 512 (map + e * 2 ^ 256 + p * 2 ^ 288 + inline_)
    let shadow := BitVec.ofNat 512 (n.pres.foldl (fun x q => x + 2 ^ q.1) 0)
    let v3 := (v2.write (t.at_ node) line).write (t.at_ (node + 1)) shadow
    let v4 := if 3 < ents.length then putNums t e 8 ents v3 else v3
    (some (), putNums t p 4 (n.pres.map (·.2)) v4)
  | _, _ => (none, v2)

/-- A node's new contents take its place: in place where the open stage allocated it, else as a copy, the old pair and its arrays being
released; a node that holds nothing goes (R318). Answers the line that the parent points at, or none where the pool has no room. -/
def placeNode (t : TblSt) (node : Nat) (old n : LNode) (g : StageLog) (v : Eng) : Option (Nat × StageLog) × Eng :=
  let fresh := g.fresh.contains node
  let dropArrays := fun (w : Eng) => old.arrays.foldl (fun u a => freeLines t a.1 a.2 u) w
  let released : StageLog := if node = 0 then g else { g with pairs := g.pairs ++ [node], runs := g.runs ++ old.arrays }
  if n.pres = [] ∧ n.kids = [] then
    if node = 0 then (some (0, g), v)
    else if fresh then (some (0, { g with fresh := g.fresh.filter (· != node) }), freeLines t node 2 (dropArrays v))
    else (some (0, released), v)
  else if fresh then
    (match writeNode t node n (dropArrays v) with
     | (some _, v1) => (some (node, g), v1)
     | (none, v1) => (none, v1))
  else
    match takeLines t 2 true v with
    | (none, v1) => (none, v1)
    | (some m, v1) =>
      match writeNode t m n v1 with
      | (some _, v2) => (some (m, { released with fresh := released.fresh ++ [m] }), v2)
      | (none, v2) => (none, v2)

/-- The bits of an address below a depth of a multiple of 8, at a relative length up to 8. -/
def relBits (a : List Byte) (d l : Nat) : Nat := addrByte a (d / 8) / 2 ^ (8 - l)

/-- Whether a table stores a prefix below a node, `fuel` levels deep. -/
def hasPrefix (t : TblSt) (a : List Byte) (len : Nat) : Nat → Nat → Nat → Eng → Bool × Eng
  | 0, _, _, v => (false, v)
  | fuel + 1, d, node, v =>
    let (n, v1) := readNode t node v
    if len ≤ d + 8 then ((nget n.pres (preBit (len - d) (relBits a d (len - d)))).isSome, v1)
    else
      match nget n.kids (addrByte a (d / 8)) with
      | some c => hasPrefix t a len fuel (d + 8) c v1
      | none => (false, v1)

/-- Change a prefix below a node: the line that takes the node's place. -/
def changeBelow (t : TblSt) (a : List Byte) (len : Nat) (r : Option Nat) : Nat → Nat → Nat → StageLog → Eng → Option (Nat × StageLog) × Eng
  | 0, _, node, g, v => (some (node, g), v)
  | fuel + 1, d, node, g, v =>
    let (n, v1) := readNode t node v
    if len ≤ d + 8 then
      let b := preBit (len - d) (relBits a d (len - d))
      placeNode t node n { n with pres := match r with
        | some x => nset n.pres b x
        | none => nerase n.pres b } g v1
    else
      let i := addrByte a (d / 8)
      let c := ngetD n.kids i 0
      match changeBelow t a len r fuel (d + 8) c g v1 with
      | (none, v2) => (none, v2)
      | (some (c2, g2), v2) =>
        if c2 = c then (some (node, g2), v2)
        else placeNode t node n { n with kids := if c2 = 0 then nerase n.kids i else nset n.kids i c2 } g2 v2

/-- The prefix of relative length l of the direct table that covers direct entry x, if stored. -/
def directPre (t : TblSt) (x : Nat) : List Nat → Eng → Option Nat × Eng
  | [], v => (none, v)
  | l :: ls, v =>
    let (n, v1) := v.num (t.base + shadowOff (2 ^ l - 1 + x / 2 ^ (16 - l))) 8
    if bitn n 32 then (some (fld n 0 32), v1) else directPre t x ls v1

/-- The lengths of the direct table's span, the longest first. -/
def directLens : List Nat := (List.range 17).map (fun k => 16 - k)

/-- Recompute a direct entry of the stage's copy from the stored prefixes, keeping its child. -/
def putDirect (t : TblSt) (x : Nat) (v : Eng) : Eng :=
  let (e, v1) := directEnt t x t.stage v
  let (r, v2) := directPre t x directLens v1
  v2.setNum (t.base + directOff x t.stage) 8 (entNum ⟨r.getD 0, e.child, r.isSome⟩)

/-- The lines that a change of a prefix of up to 16 bits reads: those of the direct entries that it covers, and of the shadow entries of every
length of their span. -/
def directLines (t : TblSt) (x len : Nat) : List Nat :=
  let lo := x / 2 ^ (16 - len) * 2 ^ (16 - len)
  let n := 2 ^ (16 - len)
  let shadow := fun l =>
    let a := 2 ^ l - 1 + lo / 2 ^ (16 - l)
    let b := 2 ^ l - 1 + (lo + n - 1) / 2 ^ (16 - l)
    (List.range (b / 8 - a / 8 + 1)).map (fun k => t.base + shadowOff ((a / 8 + k) * 8))
  (List.range ((n + 3) / 4)).map (fun k => t.base + directOff (lo + 4 * k) 0) ++ directLens.flatMap shadow

/-- LPM_UPDATE of an open stage (R318): `r` is the result to store, or none to delete. -/
def lpmChange (t : TblSt) (a : List Byte) (len : Nat) (r : Option Nat) (v : Eng) : Change × Eng :=
  let x := directIx a
  if len ≤ 16 then
    let ix := 2 ^ len - 1 + x / 2 ^ (16 - len)
    let (n, v1) := (v.fetch (directLines t x len)).num (t.base + shadowOff ix) 8
    let was := bitn n 32
    if r = none ∧ was = false then (Change.refuse 0x0A t.log, v1)
    else
      let v2 := v1.setNum (t.base + shadowOff ix) 8 (match r with
        | some y => y % 2 ^ 32 + 2 ^ 32
        | none => 0)
      let lo := x / 2 ^ (16 - len) * 2 ^ (16 - len)
      (⟨0, was && r.isSome, 0, (if r = none then -1 else if was then 0 else 1), t.log⟩,
        (List.range (2 ^ (16 - len))).foldl (fun w k => putDirect t (lo + k) w) v2)
  else
    let (e, v1) := directEnt t x t.stage v
    let (was, v2) := hasPrefix t a len 15 16 e.child v1
    if r = none ∧ was = false then (Change.refuse 0x0A t.log, v2)
    else
      match changeBelow t a len r 15 16 e.child t.log v2 with
      | (none, v3) => (Change.refuse 4 t.log, v3)
      | (some (c, g), v3) =>
        (⟨0, was && r.isSome, 0, (if r = none then -1 else if was then 0 else 1), g⟩,
          if c = e.child then v3 else v3.setNum (t.base + directOff x t.stage) 8 (entNum { e with child := c }))

/-! ### The stage log -/

/-- The lines that a view has written, counted from a table's base, added to those of its log. -/
def logLines (t : TblSt) (v : Eng) (g : StageLog) : StageLog :=
  { g with lines := v.put.foldl (fun ls q => let k := q.1 - t.base / 64; if ls.contains k then ls else ls ++ [k]) g.lines }

/-! ### Publishing and cleanup (R319, R320) -/

/-- Raise a table's PUB: what was staged is visible, and its cleanup is due where a stage was open. -/
def publish (k : Nat) (s : State) : State :=
  match tblOf s k with
  | none => s
  | some t => addCount (tblHome s t) .LKE 5 1 (onTbl k (fun t => { t with pub := t.pub + 1, cleanup := t.stageOpen, stageOpen := false, keys := t.staged }) s)

/-- Settle the slots of a bucket: those added by the stage are LIVE and those deleted are EMPTY, their records freed. -/
def settleBucket (t : TblSt) (b : Nat) (v : Eng) : Eng :=
  [0, 1, 2, 3].foldl (fun w i =>
    let (x, w1) := emSlot t b i w
    if x.st = 2 ∨ x.st = 3 then emPut t b i { x with st := 1 } w1
    else if x.st = 4 ∨ x.st = 5 then freeRecord t x (emPut t b i EmSlot.empty w1) else w1) v

/-- Copy the published copy of the four direct entries of a line into the other copy. -/
def settleDirect (t : TblSt) (line : Nat) (v : Eng) : Eng :=
  [0, 1, 2, 3].foldl (fun w i =>
    let x := line * 4 + i
    let (n, w1) := w.num (t.base + directOff x t.parity) 8
    w1.setNum (t.base + directOff x (1 - t.parity)) 8 n) v

/-- The cleanup of a published stage, from its log. -/
def settleStage (t : TblSt) (v0 : Eng) : Eng :=
  let ls := t.log.lines.filter (fun b => decide (b < if t.type = 0 then t.nb else 16384))
  let v := v0.fetch (ls.map t.at_)
  if t.type = 0 then ls.foldl (fun w b => settleBucket t b w) v
  else
    let v1 := ls.foldl (fun w b => settleDirect t b w) v
    let v2 := t.log.pairs.foldl (fun w p => freeLines t p 2 w) v1
    t.log.runs.foldl (fun w r => freeLines t r.1 r.2 w) v2

end Sys2Proof.Machine
end

