-- ==== Sys2Proof/Machine/LkeOps.lean ====
section
/-!
DEFINITION. Sys2Proof/Machine/LkeOps.lean: the opcodes of the Lookup Engine (Table 13.6): lookups alone and in batches (R321), updates
(R318), and the making, publishing, query and destruction of tables (R308, R309, R319).
-/

namespace Sys2Proof.Machine

/-- Bytes o to o + n − 1 of a descriptor. -/
def Desc.slice (e : Desc) (o n : Nat) : List Byte := ((lineBytes e.bytes).drop o).take n

/-! ### Lookups (R312, R317, R321) -/

/-- The bytes of a descriptor from 16 on hold a key or an address and are zero beyond it; an LPM4 address uses four. -/
def keyBytes (t : TblSt) : Nat := if t.type = 0 then t.keyLen else lpmWidth t / 8

/-- The first key byte of a descriptor. -/
def keyAt : Nat := 16

/-- One lookup of a descriptor: EM_LOOKUP or LPM_LOOKUP. -/
def opLookup (d : Die) (e : Desc) (typeOk : TblSt → Bool) (s : State) : State :=
  match tableFor d e typeOk s with
  | (.error st, s1) => finishDesc d e st 0 0 s1
  | (.ok t, s1) =>
    let n := keyBytes t
    if e.zero 8 8 = false ∨ e.zero (keyAt + n) (48 - n) = false then finishDesc d e 3 0 0 s1
    else
      let o := lookupDie s1 t d
      let (h, v) := lookupKey t (e.slice keyAt n) (Eng.start o t.region e.got)
      if v.whole = false then v.ask d e .lke .LKE 3 (samplePub d e t s1)
      else
        s1 |> countLookup o t h |> formatFault o e.table v.mal
           |> finishDesc d e (if h.poison then 5 else 0) h.res (b2n h.hit + 2 * b2n h.poison)

/-- The stride of a table's keys in a batch. -/
def batchStride (t : TblSt) : Nat := if t.type = 0 then (t.keyLen + 7) / 8 * 8 else if t.type = 1 then 4 else 16

/-- The number from which a descriptor counts the lines of an array that it reads: above every line of memory. -/
def arrayKey : Nat := 2 ^ 41

/-- The lines of an array read from a local range. -/
def readArray (o d : Die) (e : Desc) (p : Port) (a len : Nat) : State → State := issueReads o d e p arrayKey (rangeLines a len)

/-- Part of an array that has been read: out of local lines, or out of what the host returned, with whether any of it is poison. -/
def arrayPart (e : Desc) (pl : Place) (host : List LineData) (off len : Nat) : List Byte × Bool :=
  if pl.loc then rangeBytes e (arrayKey + (pl.addr + off) / 64 - pl.addr / 64) (pl.addr + off) len
  else
    let k0 := off / 64
    let ls := (List.range ((off + len - 1) / 64 - k0 + 1)).map (fun k => host.getD (k0 + k) poisoned)
    (((ls.flatMap (fun l => lineBytes l.line)).drop (off % 64)).take len, ls.any (·.poison))

/-- The bytes of a result record (R321). -/
def hitRecord (h : Hit) : List Byte := leBytes 8 (h.res % 2 ^ 32 + b2n h.hit * 2 ^ 32 + b2n h.poison * 2 ^ 33)

/-- Look up the keys of a batch, each on its own, with the first malformed line. -/
def batchHits (t : TblSt) : List (List Byte × Bool) → Option (Nat × Nat) → Eng → List Hit × Option (Nat × Nat) × Eng
  | [], m, v => ([], m, v)
  | (k, bad) :: ks, m, v =>
    if bad then
      let (hs, m2, v2) := batchHits t ks m v
      (⟨0, false, true⟩ :: hs, m2, v2)
    else
      let (h, v1) := v.par (lookupKey t k)
      let (hs, m2, v2) := batchHits t ks (match m with
        | some x => some x
        | none => v1.mal) v1
      (h :: hs, m2, v2)

/-- A mask of the elements of a list that have a property. -/
def maskOf {α : Type} (f : α → Bool) (l : List α) : Nat := l.zipIdx.foldl (fun x p => if f p.1 then x + 2 ^ p.2 else x) 0

/-- The batch proper, once its keys have come. -/
def batchRun (d : Die) (e : Desc) (t : TblSt) (keys results : Place) (host : List LineData) (s : State) : State :=
  let o := lookupDie s t d
  let n := e.num 8 1
  let ks := (List.range n).map (fun i => let b := arrayPart e keys host (batchStride t * i) (batchStride t); (b.1.take (keyBytes t), b.2))
  let (hs, mal, v) := batchHits t ks none (Eng.start o t.region e.got)
  if v.whole = false then v.ask d e .lke .LKE 3 (samplePub d e t s)
  else
    let hits := hs.filter (·.hit)
    s |> each hs (countLookup o t) |> formatFault o e.table mal
      |> putAt d e .lke results (hs.flatMap hitRecord)
      |> finishDesc d e (if hs.any (·.poison) then 5 else 0) (maskOf (·.hit) hs + 65536 * maskOf (·.poison) hs) hits.length

/-- EM_LOOKUP_BATCH and LPM_LOOKUP_BATCH: the keys are read, looked up and answered (R321). `host` is what the host returned of a
host key array. -/
def opBatch (d : Die) (e : Desc) (typeOk : TblSt → Bool) (host : List LineData) (s : State) : State :=
  match tableFor d e typeOk s with
  | (.error st, s1) => finishDesc d e st 0 0 s1
  | (.ok t, s1) =>
    let keys : Place := ⟨bitn (e.num 9 1) 0, e.num 16 8⟩
    let results : Place := ⟨bitn (e.num 9 1) 1, e.num 24 8⟩
    let n := e.num 8 1
    if e.begun then batchRun d e t keys results host s1
    else
      let (ok1, s2) := placeDomain d e.sq keys s1
      let (ok2, s3) := if ok1 then placeDomain d e.sq results s2 else (false, s2)
      if ok2 = false then finishDesc d e 6 0 0 s3
      else if n = 0 ∨ 16 < n ∨ 4 ≤ e.num 9 1 ∨ e.zero 10 6 = false ∨ e.zero 32 32 = false then finishDesc d e 3 0 0 s3
      else
        let st := firstBad [placeStatus s3 keys (n * batchStride t) false, placeStatus s3 results (8 * n) true]
        if st ≠ 0 then finishDesc d e st 0 0 s3
        else if keys.loc then
          s3 |> samplePub d e t |> onDesc d e.sq e.seq (fun x => { x with phase := 1 }) |> readArray d d e .lke keys.addr (n * batchStride t)
        else batchRun d e t keys results host s3

/-! ### Updates (R313, R318, R319) -/

/-- LKE_CFG.MAX_DEPTH as it acts. -/
def maxDepth (s : State) (d : Die) : Nat := clamp 1 5 (rf s F.LKE_CFG.MAX_DEPTH d 0)

/-- The events and counts of an update that is refused (R313, R318). -/
def updateRefused (o : Die) (k st : Nat) (s : State) : State :=
  if st = 4 then
    s |> setFlag F.LKE_STATUS.TABLE_FULL o 0 |> addCount o .LKE 7 1 |> postLim o k ⟨0x0D02, sevInfo, locDie o, [it1 k], none, none⟩ []
  else if st = 0x40 then
    s |> setFlag F.LKE_STATUS.STAGE_FULL o 0 |> post o ⟨0x0D03, sevInfo, locDie o, [it1 k, it4 (logUsed s o)], none, none⟩
  else s

/-- The number from which a descriptor counts the writes that wait for their turn. -/
def turnKey : Nat := 2 ^ 42

/-- The writes of an update that displaces keys go one by one, in their order, each once the one before it has been accepted (R313, R314): they
wait with the descriptor. -/
def holdTurns (d : Die) (e : Desc) (ws : List (Nat × Line)) : State → State :=
  onDesc d e.sq e.seq (fun x =>
    { x with got := (ws.zipIdx.map (fun q => (turnKey + q.2, (⟨q.1.2, false⟩ : LineData)))).foldl (fun m q => nset m q.1 q.2) x.got,
             vals := (ws.zipIdx.map (fun q => (turnKey + q.2, q.1.1))).foldl (fun m q => nset m q.1 q.2) x.vals })

/-- What is left of an update once its change has been worked out: the next write that waits for its turn, and after the last of them its publish
and its end (R319). The values 22 to 25 hold the turn, the replaced flag, the displacements and the PUBLISH flag. -/
def updateNext (d : Die) (e : Desc) (s : State) : State :=
  let k := ngetD e.vals 22 0
  match tblOf s e.table, nget e.vals (turnKey + k) with
  | some t, some ln =>
    let w : PartWrite := wholeWrite (ln, (ngetD e.got (turnKey + k) poisoned).line)
    s |> onDesc d e.sq e.seq (fun x => { x with vals := nset x.vals 22 (k + 1) }) |> (Eng.start (tblHome s t) t.region []).issue d e .lke [w]
  | _, _ => s |> onlyIf (ngetD e.vals 25 0 == 1) (publish e.table) |> finishDesc d e 0 (ngetD e.vals 23 0) (ngetD e.vals 24 0)

/-- An access of an update that has its change worked out is done (R318). -/
def updateEvent (d : Die) (sq seq : Nat) (s : State) : State :=
  match startedDesc s d sq seq with
  | none => s
  | some e => if (e.op = 0x18 ∨ e.op = 0x19) ∧ e.phase = 3 ∧ e.left = 0 ∧ s.dev.mode ≠ .hold then updateNext d e s else s

/-- Carry out a change of a table that has been worked out: nothing changes where it is refused, where a line was bad (R324), or where
the stage log has no room. One that publishes does so once its writes have been accepted (R319). -/
def updateRun (d : Die) (e : Desc) (t : TblSt) (pub full : Bool) (c : Change) (v : Eng) (s : State) : State :=
  let o := tblHome s t
  if v.whole = false then v.ask d e .lke .LKE 3 s
  else if v.bad.isSome ∨ v.mal.isSome then finishDesc d e 5 0 0 (formatFault o e.table v.mal s)
  else if c.status ≠ 0 then finishDesc d e c.status 0 0 (onlyIf (full && c.status == 4) (updateRefused o e.table 4) s)
  else
    let g := logLines t v c.log
    if 32768 < logUsed s o - t.log.entries + g.entries then finishDesc d e 0x40 0 0 (updateRefused o e.table 0x40 s)
    else
      let s1 := s
        |> onTbl e.table (fun t => { t with stageOpen := true, staged := ((t.staged : Int) + c.grow).toNat, log := g })
        |> addCount o .LKE 4 1 |> addCount o .LKE 6 c.moves
      if c.moves = 0 ∧ pub = false then finishDesc d e 0 (b2n c.replaced) 0 (v.commit d e .lke s1)
      else
        let s2 := s1 |> onDesc d e.sq e.seq (fun x =>
          { x with phase := 3, vals := [(22, 0), (23, b2n c.replaced), (24, c.moves), (25, b2n pub)] })
        later (.desc d e.sq e.seq) (if c.moves = 0 then v.commit d e .lke s2 else holdTurns d e v.turns.reverse s2)

/-- EM_UPDATE. -/
def opEmUpdate (d : Die) (e : Desc) (s : State) : State :=
  if e.phase = 3 then updateNext d e s
  else match tableFor d e (fun t => t.type == 0) s with
  | (.error st, s1) => finishDesc d e st 0 0 s1
  | (.ok t, s1) =>
    let pub := e.num 9 1 == 1
    if 2 < e.num 8 1 ∨ 1 < e.num 9 1 ∨ e.zero 10 2 = false ∨ e.num 15 1 ≠ 0 ∨ e.zero (keyAt + t.keyLen) (48 - t.keyLen) = false then
      finishDesc d e 3 0 0 s1
    else if t.cleanup ∨ tableTurn s1 d e pub = false then s1
    else
      let o := tblHome s1 t
      let (c, v) := emChange t (maxDepth s1 o) (e.num 8 1) (e.num keyAt t.keyLen) (e.num 12 3) (Eng.start o t.region e.got)
      updateRun d e t pub true c v s1

/-- Whether a prefix has no bit set below its length, nor beyond the address width (R317). -/
def prefixOk (t : TblSt) (a : List Byte) (len : Nat) : Bool :=
  decide (len ≤ lpmWidth t) && decide (fromLe a.reverse % 2 ^ (128 - len) = 0)

/-- LPM_UPDATE. -/
def opLpmUpdate (d : Die) (e : Desc) (s : State) : State :=
  if e.phase = 3 then updateNext d e s
  else match tableFor d e (fun t => t.type != 0) s with
  | (.error st, s1) => finishDesc d e st 0 0 s1
  | (.ok t, s1) =>
    let op := e.num 8 1
    let a := e.slice keyAt 16
    let len := e.num 10 1
    let pub := e.num 9 1 == 1
    if (op ≠ 1 ∧ op ≠ 2) ∨ 1 < e.num 9 1 ∨ e.num 11 1 ≠ 0 ∨ e.zero 32 32 = false ∨ prefixOk t a len = false then finishDesc d e 3 0 0 s1
    else if t.cleanup ∨ tableTurn s1 d e pub = false then s1
    else
      let o := tblHome s1 t
      let (c, v) := lpmChange t a len (if op = 1 then some (e.num 12 4) else none) (Eng.start o t.region e.got)
      updateRun d e t pub false c v s1

/-! ### Making, publishing and destroying tables -/

/-- The least size of a table, rounded up to 2 MiB (Table 13.2). -/
def leastSize (type keyLen log2nb : Nat) : Nat :=
  let nb := 2 ^ log2nb
  let n := if type ≠ 0 then 2 ^ 22 else if keyLen ≤ 12 then 64 * nb else 320 * nb + nb / 2
  (n + 2 ^ 21 - 1) / 2 ^ 21 * 2 ^ 21

/-- Whether a range overlaps a table's. -/
def overlapsTable (s : State) (base size : Nat) : Bool := s.tables.any (fun p => decide (base < p.2.base + p.2.size) && decide (p.2.base < base + size))

/-- The checks of Table 13.1: the status and RESULT0 of the first that fails. -/
def createCheck (s : State) (e : Desc) : Option (Nat × Nat) :=
  let type := e.num 8 1
  let keyLen := e.num 9 1
  let lg := e.num 10 1
  let base := e.num 16 8
  let size := e.num 24 8
  if (tblOf s e.table).isSome then some (0x42, 0)
  else if 2 < type ∨ (type = 0 ∧ (keyLen < 4 ∨ 48 < keyLen ∨ lg < 8 ∨ 31 < lg)) ∨ (type ≠ 0 ∧ (keyLen ≠ 0 ∨ lg ≠ 0)) ∨ 4 ≤ e.num 11 1
      ∨ e.zero 12 4 = false ∨ e.zero 44 20 = false ∨ 64 ≤ e.arg then some (3, 0)
  else if base % 2 ^ 21 ≠ 0 ∨ size % 2 ^ 21 ≠ 0 ∨ size = 0 ∨ 2 ^ 37 < size then some (3, 0)
  else
    match rangeRegion s base size with
    | none => some (3, 0)
    | some n =>
      if atOwner (rgAttr s n) ≠ 1 ∨ overlapsTable s base size then some (3, 0)
      else if size < leastSize type keyLen lg then some (4, leastSize type keyLen lg) else none

/-- The seeds of a new EM table: the descriptor's, or drawn from the DRBG of the home die, or none where that has stopped (R310). An LPM table has
none. -/
def newSeeds (e : Desc) (o : Die) (s : State) : Option (List Nat) × State :=
  if e.num 8 1 ≠ 0 then (some [], s)
  else if bitn (e.num 11 1) 1 then (some [e.num 32 4, e.num 36 4, e.num 40 4], s)
  else if (die s o).drbgStopped then (none, s)
  else
    let (v, s1) := drbgDraw o s
    (some [fld v.toNat 0 32, fld v.toNat 32 32, fld v.toNat 64 32], s1)

/-- TABLE_CREATE: the checks, and the start of the zero fill; the table is valid once TABLE_FILL_DONE finds the fill done (R308). -/
def opCreate (d : Die) (e : Desc) (s : State) : State :=
  if e.phase ≠ 0 then s
  else
    let base := e.num 16 8
    let size := e.num 24 8
    let (ok, s1) := domainCheck d e.sq base .lke s
    if ok = false then finishDesc d e 6 0 0 s1
    else
      match createCheck s1 e, regionOf s1 base with
      | some (st, r0), _ => finishDesc d e st r0 0 s1
      | none, none => finishDesc d e 3 0 0 s1
      | none, some n =>
        let o := atHome (rgAttr s1 n)
        match newSeeds e o s1 with
        | (none, s2) => finishDesc d e 4 0 0 s2
        | (some seeds, s2) =>
          let t : TblSt := ⟨false, some (d, e.sq, e.seq), e.num 8 1, e.num 11 1 % 2, n, e.num 9 1, e.num 10 1, base, size, 0,
            seeds, bitn (e.num 11 1) 1, false, false, 0, 0, StageLog.empty⟩
          { s2 with tables := nset s2.tables e.table t }
            |> onDesc d e.sq e.seq (fun x => { x with phase := 1 })
            |> issueWrites o d e .lke ((List.range (size / 64)).map (fun k => ⟨base + 64 * k, 0, BitVec.allOnes 64, false⟩))

/-- The zero fill of a table has been accepted: it is valid on both dies (R308). -/
def tableFilled (k : Nat) (s : State) : State :=
  match tblOf s k with
  | none => s
  | some t =>
    match t.maker with
    | none => s
    | some (d, sq, seq) =>
      match startedDesc s d sq seq with
      | none => onTbl k (fun t => { t with valid := true, maker := none }) s
      | some e => if e.left = 0 then finishDesc d e 0 0 0 (onTbl k (fun t => { t with valid := true, maker := none }) s) else s

/-- A table is gone: its stage is discarded, and its cleanup ends (R309, Table 13.7). -/
def dropTable (k : Nat) (s : State) : State :=
  each (diesPresent s) (fun o => onDie o (fun x => { x with work := x.work.filter (fun p => p.2.kind != .cleanup k) }))
    { s with tables := nerase s.tables k }

/-- TABLE_DESTROY: the table is invalid at once, and gone once its lookups and updates have ended (R309). -/
def opDestroy (d : Die) (e : Desc) (s : State) : State :=
  if e.phase = 1 then
    (if tableBusy s e.table (lookupOps ++ updateOps) d e then s else finishDesc d e 0 0 0 (dropTable e.table s))
  else
    match tableCheck d e (fun _ => true) s with
    | (.error st, s1) => finishDesc d e st 0 0 s1
    | (.ok _, s1) =>
      if e.zero 8 56 = false then finishDesc d e 3 0 0 s1
      else if tableBusy s1 e.table (lookupOps ++ updateOps) d e then
        s1 |> onTbl e.table (fun t => { t with valid := false }) |> onDesc d e.sq e.seq (fun x => { x with phase := 1 })
      else finishDesc d e 0 0 0 (dropTable e.table s1)

/-- The tables of a region. -/
def tablesIn (s : State) (n : Nat) : NMap TblSt := s.tables.filter (fun p => p.2.region == n)

/-- Whether a table of a region has lookups or updates in flight. -/
def tablesBusy (s : State) (n : Nat) : Bool := (tablesIn s n).any (fun p => tableBusy s p.1 (lookupOps ++ updateOps) .east Desc.noOne)

/-- A table of a disabled region is destroyed (R309): it is invalid, and gone once its lookups and updates have ended. -/
def loseTable (k : Nat) (t : TblSt) (s : State) : State :=
  let o := tblHome s t
  let s1 := match t.maker with
    | some (d, sq, seq) => (match startedDesc s d sq seq with
      | some e => finishDesc d e 7 0 0 (onTbl k (fun t => { t with maker := none }) s)
      | none => s)
    | none => s
  if tableBusy s1 k (lookupOps ++ updateOps) .east Desc.noOne then onTbl k (fun t => { t with valid := false }) s1
  else post o ⟨0x0D04, sevInfo, locDie o, [it1 k, it1 t.region], none, none⟩ (dropTable k s1)

/-- Disabling a region destroys the tables that it holds (R309). -/
def dropTables (n : Nat) (s : State) : State := each (tablesIn s n) (fun p => loseTable p.1 p.2) s

/-- TABLE_PUBLISH: it waits for the cleanup of the publish before it (R319). -/
def opPublish (d : Die) (e : Desc) (s : State) : State :=
  match tableCheck d e (fun _ => true) s with
  | (.error st, s1) => finishDesc d e st 0 0 s1
  | (.ok t, s1) =>
    if e.zero 8 56 = false then finishDesc d e 3 0 0 s1
    else if t.cleanup ∨ tableTurn s1 d e true = false then s1
    else finishDesc d e 0 ((t.pub + 1) % 65536) 0 (publish e.table s1)

/-- LKE_TBL_INFO of a table. -/
def tblInfo (t : TblSt) : Nat :=
  b2n t.valid + 2 * t.type + 8 * t.hint + 16 * t.region + 2 ^ 10 * t.keyLen + 2 ^ 16 * t.log2nb + 2 ^ 21 * b2n t.stageOpen
    + 2 ^ 22 * b2n t.cleanup + 2 ^ 23 * b2n t.seeded

/-- TABLE_QUERY. -/
def opTableQuery (d : Die) (e : Desc) (s : State) : State :=
  match tableCheck d e (fun _ => true) s with
  | (.error st, s1) => finishDesc d e st 0 0 s1
  | (.ok t, s1) =>
    if e.zero 8 56 = false then finishDesc d e 3 0 0 s1
    else finishDesc d e 0 (tblInfo t) (t.keys % 2 ^ 32 + t.pub % 65536 * 2 ^ 32 + min t.log.entries 65535 * 2 ^ 48) s1

/-- The cleanup of a table ends. -/
def cleanupEnd (k : Nat) (o : Die) (id : Nat) (s : State) : State :=
  dropWork o id (onTbl k (fun t => { t with cleanup := false, log := StageLog.empty }) s)

/-- The cleanup of a publish: once no lookup that sampled the PUB before it runs, what the stage staged is settled, and its log is
empty (R320). It asks for the lines that it needs, then writes those that change, and ends once the writes have been accepted; where one cannot be
read the table stays as it is (R324). -/
def cleanupRun (k : Nat) (s : State) : State :=
  match tblOf s k with
  | none => s
  | some t =>
    if t.cleanup = false ∨ oldLookups s k t ∨ s.dev.mode = .hold then s
    else
      let o := tblHome s t
      let ((id, w), s1) := takeWork o (.cleanup k) s
      let v := settleStage t (Eng.start o t.region w.got)
      if 0 < w.left then s
      else if w.written then cleanupEnd k o id s1
      else if v.whole = false then v.askWork id .lke .LKE 3 s1
      else if v.bad.isSome ∨ v.mal.isSome then cleanupEnd k o id (formatFault o k v.mal s1)
      else if v.put.isEmpty then cleanupEnd k o id s1
      else s1 |> onWork o id (fun w => { w with written := true }) |> workWrites o id .lke t.region v.writes

end Sys2Proof.Machine
end

