-- ==== Sys2Proof/Machine/Que.lean ====
section
/-!
DEFINITION. Sys2Proof/Machine/Que.lean: the Queue Engine's pools, free stacks, packets and queues (R326 to R333, R335 to R338, R343,
R345, R346).
-/

namespace Sys2Proof.Machine

/-! ### Pools (R326, R328) -/

/-- A pool of a die. -/
def poolOf (s : State) (o : Die) (k : Nat) : Option PoolSt := nget (die s o).pools k

/-- Change a pool. -/
def onPool (o : Die) (k : Nat) (f : PoolSt → PoolSt) : State → State := onDie o (fun x => { x with pools := nupd x.pools k f })

/-- The address of a cell, of a link entry and of a free stack entry of a pool (Table 14.1). -/
def PoolSt.cell (p : PoolSt) (c : Nat) : Nat := p.base + 256 * c
def PoolSt.link (p : PoolSt) (c : Nat) : Nat := p.base + 256 * p.cells + 4 * c
def PoolSt.stack (p : PoolSt) (i : Nat) : Nat := p.base + 260 * p.cells + 4 * i

/-- The free indices that lie in DRAM: those not held on die. -/
def PoolSt.deep (p : PoolSt) : Nat := p.free - p.held.length

/-- The number by which events name a pool: its identifier. -/
def poolId (o : Die) (k : Nat) : Nat := 8 * dieNum o + k

/-- Read a line without marking the view where it is poison. -/
def Eng.tryRead (v : Eng) (dla : Nat) : Option Line × Eng :=
  let (l, v1) := { v with bad := none }.read dla
  (if v1.bad.isSome then none else some l, { v1 with bad := v.bad })

/-- Read the n entries of a line of the free stack, or nothing where it is poison. -/
def stackLine (p : PoolSt) (i : Nat) (v : Eng) : Option (List Nat) × Eng :=
  let (l, v1) := v.tryRead (p.stack i)
  (l.map (fun x => (List.range 16).map (fun k => lineNum x (4 * k) 4)), v1)

/-- The 16 lines of the free stack from entry m on. -/
def stackLines (p : PoolSt) (m : Nat) : List Nat := (List.range 16).map (fun k => p.stack (m + 16 * k))

/-- A stack fill (R328): the 256 indices at the top of what lies in DRAM come on die; those of poisoned lines are leaked (R345). Answers
the cells leaked. -/
def stackFill (p : PoolSt) (v : Eng) : PoolSt × Nat × Eng :=
  if p.deep < 256 then (p, 0, v)
  else
    let m := p.deep - 256
    let (got, lost, v1) := (List.range 16).foldl (fun (acc : List Nat × Nat × Eng) k =>
      let (xs, w) := stackLine p (m + 16 * k) acc.2.2
      match xs with
      | some ys => (ys.reverse ++ acc.1, acc.2.1, w)
      | none => (acc.1, acc.2.1 + 16, w)) ([], 0, v.fetch (stackLines p m))
    ({ p with held := p.held ++ got, free := p.free - lost }, lost, v1)

/-- A stack spill (R328): the 256 indices at the bottom of those held are written back, as 16 whole lines. -/
def stackSpill (p : PoolSt) (v : Eng) : PoolSt × Eng :=
  let go := (p.held.drop (p.held.length - 256)).reverse
  let line := fun k => BitVec.ofNat 512 ((List.range 16).foldl (fun x j => x + go.getD (16 * k + j) 0 * 2 ^ (32 * j)) 0)
  ({ p with held := p.held.take (p.held.length - 256) },
    (stackLines p p.deep).zipIdx.foldl (fun w q => w.write q.1 (line q.2)) v)

/-- Spill until no more than 1,024 indices are held. -/
def spillAll : Nat → PoolSt → Eng → PoolSt × Eng
  | 0, p, v => (p, v)
  | fuel + 1, p, v =>
    if p.held.length ≤ 1024 then (p, v)
    else
      let (p1, v1) := stackSpill p v
      spillAll fuel p1 v1

/-- Fill until k indices are held, or nothing is left in DRAM. -/
def fillFor (k : Nat) : Nat → PoolSt → Nat → Eng → PoolSt × Nat × Eng
  | 0, p, lost, v => (p, lost, v)
  | fuel + 1, p, lost, v =>
    if k ≤ p.held.length ∨ p.deep < 256 then (p, lost, v)
    else
      let (p1, n, v1) := stackFill p v
      fillFor k fuel p1 (lost + n) v1

/-- Take k cells from the top of a free stack (R335): none where fewer are free. -/
def popCells (k : Nat) (p : PoolSt) (v : Eng) : Option (List Nat) × PoolSt × Nat × Eng :=
  if p.free < k then (none, p, 0, v)
  else
    let (p1, lost, v1) := fillFor k (p.free / 256 + 1) p 0 v
    if p1.held.length < k then (none, p1, lost, v1)
    else (some (p1.held.take k), { p1 with held := p1.held.drop k, free := p1.free - k }, lost, v1)

/-- Push cells onto a free stack, the last of them on top; what does not fit on die is spilled. -/
def pushCells (cs : List Nat) (p : PoolSt) (v : Eng) : PoolSt × Eng :=
  let p1 := { p with held := cs.reverse ++ p.held, free := p.free + cs.length }
  spillAll p1.held.length p1 v

/-- The writes that chain cells in order (R335). -/
def chainWrites (p : PoolSt) (cs : List Nat) : List PartWrite :=
  (cs.zip (cs.drop 1)).flatMap (fun q => byteWrites (p.link q.1) (leBytes 4 q.2) false)

/-- What a walk along links finds: the cells, and whether it stopped at poison or at an index that is no cell. -/
structure Walk where
  cells : List Nat
  poison : Bool
  outside : Bool
  deriving DecidableEq, Repr

/-- Follow n links from a cell (R338, R340). -/
def walkChain (p : PoolSt) : Nat → Nat → Eng → Walk × Eng
  | 0, c, v => (⟨[c], false, decide (p.cells ≤ c)⟩, v)
  | n + 1, c, v =>
    if p.cells ≤ c then (⟨[], false, true⟩, v)
    else
      match v.tryRead (p.link c) with
      | (none, v1) => (⟨[c], true, false⟩, v1)
      | (some l, v1) =>
        let (w, v2) := walkChain p n (lineNum l (p.link c % 64) 4) v1
        ({ w with cells := c :: w.cells }, v2)

/-! ### Headers (R329, R345) -/

/-- A packet header as 16 bytes (Table 14.3). -/
def header (len src last user : Nat) : Nat := len % 2 ^ 16 + src % 2 ^ 16 * 2 ^ 16 + last % 2 ^ 32 * 2 ^ 32 + user % 2 ^ 32 * 2 ^ 64
def hdrLen (h : Nat) : Nat := fld h 0 16
def hdrSrc (h : Nat) : Nat := fld h 16 16
def hdrLast (h : Nat) : Nat := fld h 32 32
def hdrUser (h : Nat) : Nat := fld h 64 32

/-- The cells of a packet of a length (R329). -/
def cellsFor (len : Nat) : Nat := (len + 16 + 255) / 256

/-- The first check of R345 that a header at a head cell fails. -/
def hdrBad (p : PoolSt) (head h : Nat) : Option Nat :=
  if hdrLen h = 0 ∨ 65520 < hdrLen h then some 0
  else if p.cells ≤ hdrLast h then some 1
  else if (hdrLast h = head) ≠ (cellsFor (hdrLen h) = 1) then some 2
  else if fld h 28 3 ≠ 0 ∨ fld h 96 32 ≠ 0 then some 3 else none

/-- RESULT1 of a header (Table 14.5). -/
def hdrResult (h : Nat) : Nat :=
  hdrLen h + fld (hdrSrc h) 0 12 * 2 ^ 16 + fld (hdrSrc h) 15 1 * 2 ^ 31 + hdrUser h * 2 ^ 32

/-! ### Queues -/

/-- A queue of a die. -/
def queueOf (s : State) (o : Die) (q : Nat) : QueueSt := ngetD (die s o).queues q QueueSt.reset

/-- Change a queue. -/
def onQueue (o : Die) (q : Nat) (f : QueueSt → QueueSt) : State → State :=
  onDie o (fun x => { x with queues := nmod x.queues q QueueSt.reset f })

/-- The die and the local number of a queue number. -/
def queueDie (q : Nat) : Die := dieOf (q / 2 ^ 17)
def queueLocal (q : Nat) : Nat := q % 2 ^ 17

/-- An empty queue: nothing of a packet is known. -/
def QueueSt.emptied (q : QueueSt) : QueueSt :=
  { q with head := 0, tailLast := 0, pkts := 0, cells := 0, bytes := 0, hdr := none, next := none, nextHdr := none }

/-- Cells are leaked (R345). -/
def leak (o : Die) (k n : Nat) (s : State) : State :=
  if n = 0 then s
  else
    s |> setFlag F.QUE_STATUS.LEAK o 0 |> addCount o .QUE 9 n
      |> post o ⟨0x0E05, sevUncorrected, locDie o, [it1 (poolId o k), it4 n], none, none⟩

/-- What comes of a change of a pool's free count: POOL_LOW below LOW, and not again until twice LOW has been exceeded (R346). -/
def poolLow (o : Die) (k : Nat) (s : State) : State :=
  match poolOf s o k with
  | none => s
  | some p =>
    if p.free < p.low ∧ p.below = false then
      s |> onPool o k (fun p => { p with below := true }) |> setFlag F.QUE_STATUS.POOL_LOW o 0
        |> post o ⟨0x0E03, sevInfo, locDie o, [it1 (poolId o k), it4 p.free], none, none⟩
    else if 2 * p.low < p.free then onPool o k (fun p => { p with below := false }) s else s

/-- A queue enters FAULT (R345): `cause` 0 a poisoned link, 1 a poisoned header, 2 a failing header with its cell and check. -/
def queueFault (o : Die) (q cause : Nat) (bad : Option (Nat × Nat)) (s : State) : State :=
  let x := queueOf s o q
  let onDie_ := b2n x.hdr.isSome + b2n x.nextHdr.isSome
  let s1 := s |> onQueue o q (fun x => { x with st := .fault }) |> setFlag F.QUE_STATUS.QFAULT o 0
  let s2 := match bad with
    | some (c, k) => post o ⟨0x0E01, sevUncorrected, locDie o, [it4 (q + 2 ^ 17 * dieNum o), it4 c, it1 (Config.detailCode 0x0E01 k)], none, none⟩ s1
    | none => s1
  post o ⟨0x0E02, sevUncorrected, locDie o, [it4 (q + 2 ^ 17 * dieNum o), it1 (Config.detailCode 0x0E02 cause), it1 onDie_], none, none⟩ s2

/-- What a read for a queue finds. -/
inductive Found where
  | got (n : Nat) | poison | bad (cell check : Nat)
  deriving DecidableEq, Repr

/-- Read a header from its head cell, with its checks. -/
def readHdr (p : PoolSt) (head : Nat) (v : Eng) : Found × Eng :=
  match v.tryRead (p.cell head) with
  | (none, v1) => (.poison, v1)
  | (some l, v1) =>
    let h := lineNum l 0 16
    match hdrBad p head h with
    | some k => (.bad head k, v1)
    | none => (.got h, v1)

/-- Read a link entry; one that is no cell of the pool is malformed as a LAST that is not (check 1). -/
def readLink (p : PoolSt) (c : Nat) (v : Eng) : Found × Eng :=
  match v.tryRead (p.link c) with
  | (none, v1) => (.poison, v1)
  | (some l, v1) =>
    let n := lineNum l (p.link c % 64) 4
    (if p.cells ≤ n then .bad c 1 else .got n, v1)

/-- Bring the first packet's header, the second's head and its header on die (R333), up to a step: 1 the header, 2 the next head too,
3 all. Answers the queue, and what went wrong. -/
def readAhead (p : PoolSt) (upTo : Nat) (x : QueueSt) (v : Eng) : QueueSt × Option Found × Eng :=
  let (x1, f1, v1) := match x.hdr with
    | some _ => (x, none, v)
    | none =>
      if x.pkts = 0 then (x, none, v)
      else match readHdr p x.head v with
        | (.got h, w) => ({ x with hdr := some h }, none, w)
        | (f, w) => (x, some f, w)
  if f1.isSome ∨ upTo < 2 ∨ x1.pkts < 2 then (x1, f1, v1)
  else
    let (x2, f2, v2) := match x1.next, x1.hdr with
      | none, some h => (match readLink p (hdrLast h) v1 with
        | (.got n, w) => ({ x1 with next := some n }, none, w)
        | (f, w) => (x1, some f, w))
      | _, _ => (x1, none, v1)
    if f2.isSome ∨ upTo < 3 then (x2, f2, v2)
    else
      match x2.nextHdr, x2.next with
      | none, some n => (match readHdr p n v2 with
        | (.got h, w) => ({ x2 with nextHdr := some h }, none, w)
        | (f, w) => (x2, some f, w))
      | _, _ => (x2, none, v2)

/-- The FAULT that a read for a queue leads to. -/
def faultFrom (o : Die) (q : Nat) (f : Found) (s : State) : State :=
  match f with
  | .got _ => s
  | .poison => queueFault o q 0 none s
  | .bad c k => queueFault o q 2 (some (c, k)) s

/-- The first packet leaves a queue (R337): the second's head and header, where they are on die, take its place. -/
def QueueSt.removed (x : QueueSt) : QueueSt :=
  let h := x.hdr.getD 0
  if x.pkts ≤ 1 then x.emptied
  else
    { x with head := x.next.getD 0, pkts := x.pkts - 1, cells := x.cells - cellsFor (hdrLen h), bytes := x.bytes - hdrLen h,
             hdr := x.nextHdr, next := none, nextHdr := none }

/-- A packet joins the end of a queue (R336). -/
def QueueSt.joined (x : QueueSt) (head last h : Nat) : QueueSt :=
  { x with head := if x.pkts = 0 then head else x.head, tailLast := last, pkts := x.pkts + 1, cells := x.cells + cellsFor (hdrLen h),
           bytes := x.bytes + hdrLen h, hdr := if x.pkts = 0 then some h else x.hdr }

/-- Whether the threshold drops a packet of k cells (R336). -/
def tailDrops (x : QueueSt) (k : Nat) : Bool := x.thresh != 0 && decide (x.thresh < x.cells + k)

/-- A packet is dropped. -/
def dropPacket (o : Die) (q : Nat) (s : State) : State :=
  s |> onQueue o q (fun x => { x with drops := satAdd 32 x.drops 1 }) |> addCount o .QUE 6 1

/-- The counts of an enqueue or a dequeue of k cells. -/
def countPacket (o : Die) (enq : Bool) (k : Nat) (s : State) : State :=
  s |> addCount o .QUE (if enq then 0 else 1) 1 |> addCount o .QUE (if enq then 2 else 3) k |> signalDie o 0x0E80 k

/-- Whether a FLUSH walks over cells of a pool. -/
def poolWalked (s : State) (o : Die) (k : Nat) : Bool :=
  (diesPresent s).any (fun d => (die s d).cpr.sqs.any (fun p => p.2.started.any (fun (x : Desc) =>
    x.op == 0x3D && x.phase == 1 && queueDie x.arg == o && ngetD x.vals 3 0 == k)))

/-- Whether an operation on a pool is in flight. -/
def poolBusy (s : State) (o : Die) (p : Nat × PoolSt) : Bool := p.2.lock.isSome || poolWalked s o p.1

/-- Whether operations on pools of a region are in flight. -/
def poolsBusy (s : State) (n : Nat) : Bool :=
  (diesPresent s).any (fun o => (die s o).pools.any (fun p => p.2.region == n && poolBusy s o p))

/-- A pool that a disabled region held is destroyed, its queues DISABLED and their packets discarded (R346); operations on it that are in flight
end first (Table 14.9). -/
def dropPools (n : Nat) (s : State) : State :=
  each (diesPresent s) (fun o t =>
    each ((die t o).pools.filter (fun p => p.2.region == n && !(poolBusy t o p))) (fun p u =>
      let mine := fun (x : QueueSt) => x.st != .disabled && x.pool == p.1
      let qs := ((die u o).queues.filter (fun q => mine q.2)).length
      u |> onDie o (fun x => { x with pools := nerase x.pools p.1,
                                      queues := x.queues.map (fun q => if mine q.2 then (q.1, { q.2.emptied with st := .disabled }) else q) })
        |> post o ⟨0x0E04, sevInfo, locDie o, [it1 (poolId o p.1), it1 n, it4 qs], none, none⟩) t) s

end Sys2Proof.Machine
end

