-- ==== Sys2Proof/Machine/QueOps.lean ====
section
/-!
DEFINITION. Sys2Proof/Machine/QueOps.lean: the opcodes of the Queue Engine (Table 14.5), a peer's enqueue (R343) and REMOTE_ENQUEUE
(R342).
-/

namespace Sys2Proof.Machine

/-! ### Finding pools and queues (R330, R334) -/

/-- A pool with its die and number. -/
structure PoolAt where
  die : Die
  num : Nat
  pool : PoolSt
  deriving DecidableEq, Repr

/-- A queue with its die and local number, and its pool. -/
structure QueueAt where
  at_ : PoolAt
  num : Nat
  queue : QueueSt
  deriving DecidableEq, Repr

/-- The pool that an identifier names. -/
def poolAt (s : State) (id : Nat) : Option PoolAt :=
  let o := dieOf (id / 8)
  if diePresent s o then (poolOf s o (id % 8)).map (fun p => ⟨o, id % 8, p⟩) else none

/-- Whether an operation may work on a pool: one that begins finds it valid while its region is enabled; one that has begun goes on (R20, Table
14.9). -/
def poolOpen (s : State) (e : Desc) (p : PoolAt) : Bool := e.begun || rgOn s p.pool.region

/-- The check of a pool's region as a descriptor access, made when an operation begins (Table 1.6, R186). -/
def poolDomain (d : Die) (e : Desc) (p : PoolAt) (s : State) : Bool × State :=
  if e.begun then (true, s) else domainCheck d e.sq p.pool.base .que s

/-- The pool of a descriptor, or the status of the check that it fails. -/
def poolCheck (d : Die) (e : Desc) (s : State) : Except Nat PoolAt × State :=
  if 16 ≤ e.arg ∨ diePresent s (dieOf (e.arg / 8)) = false then (.error 3, s)
  else
    match (poolAt s e.arg).filter (poolOpen s e) with
    | none => (.error 0x0A, s)
    | some p =>
      let (ok, s1) := poolDomain d e p s
      (if ok then .ok p else .error 6, s1)

/-- The queue that a number names where it is not DISABLED. -/
def queueAt (s : State) (q : Nat) : Option QueueAt :=
  let o := queueDie q
  let x := queueOf s o (queueLocal q)
  if x.st = .disabled then none
  else (poolOf s o x.pool).map (fun p => ⟨⟨o, x.pool, p⟩, queueLocal q, x⟩)

/-- The queue of a descriptor, or the status of the check that it fails. -/
def queueCheck (d : Die) (e : Desc) (s : State) : Except Nat QueueAt × State :=
  if 2 ^ 18 ≤ e.arg ∨ diePresent s (queueDie e.arg) = false then (.error 3, s)
  else
    match (queueAt s e.arg).filter (fun q => poolOpen s e q.at_) with
    | none => (.error 0x0A, s)
    | some q =>
      let (ok, s1) := poolDomain d e q.at_ s
      (if ok then .ok q else .error 6, s1)

/-- What an operation's view has read and written takes effect: its pool, its counts, its writes, and other writes of it. -/
def queCommit (d : Die) (e : Desc) (p : PoolAt) (new : PoolSt) (lost : Nat) (v : Eng) (ws : List PartWrite) (s : State) : State :=
  s |> onPool p.die p.num (fun _ => new) |> addCount p.die .QUE 8 (v.put.length + 2 * ws.length)
    |> v.commit d e .que |> v.issue d e .que ws |> leak p.die p.num lost |> poolLow p.die p.num

/-- The view of a pool's lines. -/
def PoolAt.view (p : PoolAt) (e : Desc) : Eng := Eng.start p.die p.pool.region e.got

/-! ### One operation on a pool at a time (R332) -/

/-- The opcodes that work on a pool, and those that work on a queue. -/
def poolOps : List Nat := [0x30, 0x31, 0x32, 0x38, 0x39]
def queueOps : List Nat := [0x33, 0x34, 0x3A, 0x3B, 0x3C, 0x3D]

/-- The pool of a queue. -/
def queuePool (s : State) (q : Nat) : Option (Die × Nat) :=
  let x := queueOf s (queueDie q) (queueLocal q)
  if x.st = .disabled then none else some (queueDie q, x.pool)

/-- The pool that a descriptor works on, or over which its FLUSH walks. -/
def descPool (s : State) (e : Desc) : Option (Die × Nat) :=
  if poolOps.contains e.op then some (dieOf (e.arg / 8), e.arg % 8)
  else if e.op = 0x3D ∧ e.phase ≠ 0 then some (queueDie e.arg, ngetD e.vals 3 0)
  else if queueOps.contains e.op then
    (match queuePool s e.arg with
     | some p => some p
     | none => if e.op = 0x33 then some (queueDie e.arg, fld (e.num 8 1) 1 3) else none)
  else if e.op = 0x3E ∧ e.num 10 1 = 2 then some (dieOf (e.num 20 1 / 8), e.num 20 1 % 8)
  else none

/-- Whether a descriptor stands in nobody's way: it has ended, its FLUSH walks over a chain that is detached (R340), or its packet has been
read and its peer answers (R342). -/
def Desc.resting (e : Desc) : Bool := e.phase == 9 || (e.op == 0x3D && e.phase == 1) || (e.op == 0x3E && decide (2 ≤ e.phase))

/-- Whether two descriptors work on one pool or one queue. -/
def samePlace (s : State) (x e : Desc) : Bool :=
  ((descPool s x).isSome && descPool s x == descPool s e) || (queueOps.contains x.op && queueOps.contains e.op && x.arg == e.arg)

/-- Whether a descriptor before it in its ring has first to work on its pool or queue. -/
def clashBefore (s : State) (d : Die) (e : Desc) : Bool :=
  ((sqOf s d e.sq).started.takeWhile (fun (x : Desc) => x.seq != e.seq)).any (fun (x : Desc) => !x.resting && samePlace s x e)

/-- Who waits first for a pool that is free again: a peer's packet. -/
def wakePool (o : Die) (k : Nat) (s : State) : State :=
  let mine := fun (w : EngWork) => match w.kind with
    | .packet p => !w.written && queuePool s p.queue == some (o, k)
    | _ => false
  match (die s o).work.find? (fun q => mine q.2) with
  | some (id, _) => later (.work o id) s
  | none => s

/-- The operation that a pool was at is done. -/
def unlockPool (o : Die) (k : Nat) (s : State) : State := wakePool o k (onPool o k (fun p => { p with lock := none }) s)

/-- A pool is at an operation. -/
def lockPool (o : Die) (k : Nat) (h : Holder) : State → State := onPool o k (fun p => { p with lock := some h })

/-- Whether a pool is free for somebody. -/
def PoolSt.freeFor (p : PoolSt) (h : Holder) : Bool := p.lock.isNone || p.lock == some h

/-- A descriptor works on its pool when it is its turn; the pool is at that operation until it has ended or rests. -/
def inTurn (d : Die) (e : Desc) (f : State → State) (s : State) : State :=
  if e.resting = false ∧ clashBefore s d e then s
  else
    match descPool s e with
    | none => f s
    | some (o, k) =>
      match poolOf s o k with
      | none => f s
      | some p =>
        let me : Holder := .desc d e.sq e.seq
        if p.freeFor me = false then s
        else
          let s1 := f s
          match (startedDesc s1 d e.sq e.seq).filter (fun x => !x.resting) with
          | some _ => lockPool o k me s1
          | none => unlockPool o k s1

/-! ### Pools -/

/-- The checks of Table 14.2: the status of the first that fails. -/
def poolCreateCheck (s : State) (e : Desc) : Option Nat :=
  let o := dieOf (e.arg / 8)
  let b := e.num 8 8
  let n := e.num 16 4 * 8192
  if 16 ≤ e.arg ∨ diePresent s o = false then some 3
  else if (poolAt s e.arg).isSome then some 0x42
  else if n = 0 ∨ 2 ^ 32 < n ∨ e.zero 28 36 = false then some 3
  else if b % 2 ^ 21 ≠ 0 then some 3
  else
    match rangeRegion s b (264 * n) with
    | none => some 3
    | some r =>
      let a := rgAttr s r
      if atOwner a ≠ 2 ∨ atMirror a ∨ atHome a ≠ o then some 3
      else if (diesPresent s).any (fun x => (die s x).pools.any (fun p =>
          decide (b < p.2.base + 264 * p.2.cells) && decide (p.2.base < b + 264 * n))) then some 3
      else none

/-- The lines of a new free stack: cells leave it in increasing order (R327). -/
def newStack (p : PoolSt) : List PartWrite :=
  (List.range (p.cells / 16)).map (fun k =>
    ⟨p.stack (16 * k), BitVec.ofNat 512 ((List.range 16).foldl (fun x j => x + (p.cells - 1 - (16 * k + j)) * 2 ^ (32 * j)) 0),
     BitVec.allOnes 64, false⟩)

/-- POOL_CREATE (R327). -/
def opPoolCreate (d : Die) (e : Desc) (s : State) : State :=
  let (ok, s1) := domainCheck d e.sq (e.num 8 8) .que s
  if ok = false then finishDesc d e 6 0 0 s1
  else
    match poolCreateCheck s1 e, regionOf s1 (e.num 8 8) with
    | some st, _ => finishDesc d e st 0 0 s1
    | none, none => finishDesc d e 3 0 0 s1
    | none, some r =>
      let o := dieOf (e.arg / 8)
      let n := e.num 16 4 * 8192
      let p : PoolSt := ⟨r, e.num 8 8, n, e.num 20 4, e.num 24 4, n, [], false, none⟩
      s1 |> onDie o (fun x => { x with pools := nset x.pools (e.arg % 8) p }) |> issueWrites o d e .que (newStack p)
         |> addCount o .QUE 8 (newStack p).length |> finishDesc d e 0 0 0

/-- Whether a queue is bound to a pool, or a FLUSH still walks over it (R334, Table 14.9). -/
def poolBound (s : State) (o : Die) (k : Nat) : Bool :=
  (die s o).queues.any (fun q => q.2.st != .disabled && q.2.pool == k) || poolWalked s o k

/-- POOL_DESTROY. -/
def opPoolDestroy (d : Die) (e : Desc) (s : State) : State :=
  match poolCheck d e s with
  | (.error st, s1) => finishDesc d e st 0 0 s1
  | (.ok p, s1) =>
    if e.zero 8 56 = false then finishDesc d e 3 0 0 s1
    else if poolBound s1 p.die p.num then finishDesc d e 0x42 0 0 s1
    else finishDesc d e 0 0 0 (onDie p.die (fun x => { x with pools := nerase x.pools p.num }) s1)

/-- POOL_QUERY. -/
def opPoolQuery (d : Die) (e : Desc) (s : State) : State :=
  match poolCheck d e s with
  | (.error st, s1) => finishDesc d e st 0 0 s1
  | (.ok p, s1) =>
    if e.zero 8 56 = false then finishDesc d e 3 0 0 s1
    else finishDesc d e 0 (p.pool.region + 256 * b2n (decide (p.pool.free < p.pool.low))) p.pool.free s1

/-- The status of the checks of a list's place: a host address has none. -/
def listStatus (s : State) (pl : Place) (n : Nat) (write : Bool) : Nat := placeStatus s pl (4 * n) write

/-- ALLOCATE (R335). -/
def opAllocate (d : Die) (e : Desc) (s : State) : State :=
  match poolCheck d e s with
  | (.error st, s1) => finishDesc d e st 0 0 s1
  | (.ok p, s1) =>
    let k := e.num 8 2
    let list := bitn (e.num 10 1) 0
    let pl : Place := ⟨bitn (e.num 10 1) 1, e.num 16 8⟩
    let (ok, s2) := if list && !e.begun then placeDomain d e.sq pl s1 else (true, s1)
    if ok = false then finishDesc d e 6 0 0 s2
    else if k = 0 ∨ 256 < k ∨ 4 ≤ e.num 10 1 ∨ e.zero 11 5 = false ∨ e.zero 24 40 = false then finishDesc d e 3 0 0 s2
    else if list ∧ e.begun = false ∧ listStatus s2 pl k true ≠ 0 then finishDesc d e (listStatus s2 pl k true) 0 0 s2
    else
      match popCells k p.pool (p.view e) with
      | (none, q, lost, v) => if v.whole then finishDesc d e 4 0 0 (queCommit d e p q lost v [] s2) else v.ask d e .que .QUE 8 s2
      | (some cs, q, lost, v) =>
        if v.whole = false then v.ask d e .que .QUE 8 s2
        else
          s2 |> queCommit d e p q lost v (chainWrites p.pool cs) |> addCount p.die .QUE 4 k
             |> onlyIf list (putAt d e .que pl (cs.flatMap (fun c => leBytes 4 c)))
             |> finishDesc d e 0 (cs.headD 0) (cs.getLastD 0)

/-- Cells go back to a pool (R338). -/
def freeCells (d : Die) (e : Desc) (p : PoolAt) (cs : List Nat) (lost : Nat) (v : Eng) (s : State) : State :=
  let (q, v1) := pushCells cs p.pool v
  s |> queCommit d e p q lost v1 [] |> addCount p.die .QUE 5 cs.length

/-- The indices of a list that has been read, and whether it could be. -/
def listIndices (e : Desc) (pl : Place) (host : List LineData) (n : Nat) : List Nat × Bool :=
  let (bs, bad) := arrayPart e pl host 0 (4 * n)
  ((List.range n).map (fun i => fromLe ((bs.drop (4 * i)).take 4)), bad)

/-- FREE in list mode, once the list has come: poison in it frees nothing. -/
def freeList (d : Die) (e : Desc) (p : PoolAt) (pl : Place) (host : List LineData) (k : Nat) (s : State) : State :=
  let (cs, bad) := listIndices e pl host k
  if bad then finishDesc d e 5 0 0 s
  else if cs.any (fun c => decide (p.pool.cells ≤ c)) then finishDesc d e 3 0 0 s
  else finishDesc d e 0 k 0 (freeCells d e p cs 0 (p.view e) s)

/-- FREE (R338): `host` is what the host returned of a host list. -/
def opFree (d : Die) (e : Desc) (host : List LineData) (s : State) : State :=
  match poolCheck d e s with
  | (.error st, s1) => finishDesc d e st 0 0 s1
  | (.ok p, s1) =>
    let k := e.num 8 2
    let list := bitn (e.num 10 1) 0
    let pl : Place := ⟨bitn (e.num 10 1) 1, e.num 16 8⟩
    if e.phase = 1 then freeList d e p pl host k s1
    else
      let (ok, s2) := if list && !e.begun then placeDomain d e.sq pl s1 else (true, s1)
      if ok = false then finishDesc d e 6 0 0 s2
      else if k = 0 ∨ 256 < k ∨ 4 ≤ e.num 10 1 ∨ e.zero 11 5 = false ∨ e.zero 28 36 = false then finishDesc d e 3 0 0 s2
      else if list then
        (if listStatus s2 pl k false ≠ 0 then finishDesc d e (listStatus s2 pl k false) 0 0 s2
         else if pl.loc then s2 |> onDesc d e.sq e.seq (fun x => { x with phase := 1 }) |> readArray p.die d e .que pl.addr (4 * k)
         else freeList d e p pl host k s2)
      else
        let (w, v) := walkChain p.pool (k - 1) (e.num 24 4) (p.view e)
        if v.whole = false then v.ask d e .que .QUE 8 s2
        else if w.outside then finishDesc d e 3 0 0 s2
        else finishDesc d e (if w.poison then 5 else 0) w.cells.length 0 (freeCells d e p w.cells (k - w.cells.length) v s2)

/-! ### Queues -/

/-- QUEUE_SET (R339). -/
def opQueueSet (d : Die) (e : Desc) (s : State) : State :=
  let o := queueDie e.arg
  let q := queueLocal e.arg
  if 2 ^ 18 ≤ e.arg ∨ diePresent s o = false then finishDesc d e 3 0 0 s
  else
    let x := queueOf s o q
    let en := bitn (e.num 8 1) 0
    let k := if x.st = .disabled then fld (e.num 8 1) 1 3 else x.pool
    match poolOf s o k with
    | none => finishDesc d e 0x0A 0 0 s
    | some p =>
      let (ok, s1) := domainCheck d e.sq p.base .que s
      if ok = false then finishDesc d e 6 0 0 s1
      else if 16 ≤ e.num 8 1 ∨ e.zero 9 3 = false ∨ e.zero 16 48 = false then finishDesc d e 3 0 0 s1
      else
        match x.st, en with
        | .disabled, true =>
          finishDesc d e 0 0 0 (onQueue o q (fun x => { x.emptied with st := .enabled, pool := k, thresh := e.num 12 4 }) s1)
        | .disabled, false => finishDesc d e 0x0A 0 0 s1
        | .enabled, true =>
          if fld (e.num 8 1) 1 3 ≠ x.pool then finishDesc d e 3 0 0 s1
          else finishDesc d e 0 0 0 (onQueue o q (fun x => { x with thresh := e.num 12 4 }) s1)
        | .enabled, false =>
          if x.pkts ≠ 0 then finishDesc d e 0x42 0 0 s1 else finishDesc d e 0 0 0 (onQueue o q (fun x => { x with st := .disabled }) s1)
        | .fault, true => finishDesc d e 0x43 0 0 s1
        | .fault, false =>
          finishDesc d e 0 0 0 (leak o x.pool x.cells (onQueue o q (fun x => { x.emptied with st := .disabled }) s1))

/-- The number of a queue state. -/
def queueStateNum : QueState → Nat
  | .disabled => 0 | .enabled => 1 | .fault => 2

/-- QUEUE_QUERY. -/
def opQueueQuery (d : Die) (e : Desc) (s : State) : State :=
  match queueCheck d e s with
  | (.error st, s1) => finishDesc d e st 0 0 s1
  | (.ok q, s1) =>
    if q.queue.st = .fault then finishDesc d e 0x43 0 0 s1
    else if e.zero 8 56 = false then finishDesc d e 3 0 0 s1
    else finishDesc d e 0 q.queue.cells (q.queue.bytes % 2 ^ 48 + queueStateNum q.queue.st * 2 ^ 48 + q.queue.pool * 2 ^ 50) s1

/-- The link entry of the final packet is set to a new packet's head, where the queue holds one: what went wrong, if anything. -/
def linkOn (p : PoolSt) (x : QueueSt) (head : Nat) (v : Eng) : Bool × Eng :=
  if x.pkts = 0 then (true, v)
  else
    match v.tryRead (p.link x.tailLast) with
    | (none, v1) => (false, v1)
    | (some _, v1) => (true, v1.setNum (p.link x.tailLast) 4 head)

/-- ENQUEUE (R336, R345). -/
def opEnqueue (d : Die) (e : Desc) (s : State) : State :=
  match queueCheck d e s with
  | (.error st, s1) => finishDesc d e st 0 0 s1
  | (.ok q, s1) =>
    let p := q.at_
    let x := q.queue
    let head := e.num 8 4
    let last := e.num 12 4
    let len := e.num 16 2
    let k := cellsFor len
    if x.st = .fault then finishDesc d e 0x43 0 0 s1
    else if p.pool.cells ≤ head ∨ p.pool.cells ≤ last ∨ len = 0 ∨ 65520 < len ∨ (head = last) ≠ (k = 1) ∨ e.zero 18 2 = false ∨ e.zero 24 40 = false then
      finishDesc d e 3 0 0 s1
    else if tailDrops x k then finishDesc d e 0x0B 0 0 (dropPacket p.die q.num s1)
    else
      let h := header len 0 last (e.num 20 4)
      let heads := p.pool.cell head :: if x.pkts = 0 then [] else [p.pool.link x.tailLast]
      match ((p.view e).fetch heads).tryRead (p.pool.cell head) with
      | (none, v) => if v.whole then finishDesc d e 0x0B 0 0 (dropPacket p.die q.num s1) else v.ask d e .que .QUE 8 s1
      | (some l, v) =>
        let (ok, v1) := linkOn p.pool x head (v.write (p.pool.cell head) (lineSet l 0 16 h))
        if v1.whole = false then v1.ask d e .que .QUE 8 s1
        else if ok = false then
          finishDesc d e 0x43 0 0 (queueFault p.die q.num 0 none (queCommit d e p p.pool 0 v1 [] s1))
        else
          s1 |> queCommit d e p p.pool 0 v1 [] |> onQueue p.die q.num (fun x => x.joined head last h) |> countPacket p.die true k
             |> finishDesc d e 0 (x.cells + k) 0

/-- DEQUEUE and PEEK (R337, R345): `take` is whether the packet is removed. In FAULT only a packet whose header is on die can be
dequeued. -/
def opDequeue (d : Die) (e : Desc) (take : Bool) (s : State) : State :=
  match queueCheck d e s with
  | (.error st, s1) => finishDesc d e st 0 0 s1
  | (.ok q, s1) =>
    let p := q.at_
    let x := q.queue
    let flags := e.num 8 1
    let list := take && bitn flags 0
    let pl : Place := ⟨bitn flags 1, e.num 16 8⟩
    let (okd, s2) := if list && !e.begun then placeDomain d e.sq pl s1 else (true, s1)
    if okd = false then finishDesc d e 6 0 0 s2
    else if (if take then decide (4 ≤ flags) || !(e.zero 9 7) || !(e.zero 24 40) else !(e.zero 8 56)) then finishDesc d e 3 0 0 s2
    else if x.pkts = 0 then finishDesc d e (if x.st = .fault then 0x43 else 0x41) 0 0 s2
    else if x.st = .fault ∧ (take = false ∨ x.hdr.isNone) then finishDesc d e 0x43 0 0 s2
    else
      let (x1, f, v) := if x.st = .fault then (x, none, p.view e) else readAhead p.pool (if take then 2 else 1) x (p.view e)
      if v.whole = false then v.ask d e .que .QUE 8 s2
      else
        match f with
        | some y => finishDesc d e 0x43 0 0 (faultFrom p.die q.num y (onQueue p.die q.num (fun _ => x1) s2))
        | none =>
          let h := x1.hdr.getD 0
          let k := cellsFor (hdrLen h)
          let (w, v1) := if list then walkChain p.pool (k - 1) x1.head v else (⟨[], false, false⟩, v)
          if v1.whole = false then v1.ask d e .que .QUE 8 s2
          else if w.poison ∨ w.outside then
            finishDesc d e 0x43 0 0 (onlyIf (x.st != .fault) (queueFault p.die q.num 0 none) (onQueue p.die q.num (fun _ => x1) s2))
          else if list ∧ e.begun = false ∧ listStatus s2 pl k true ≠ 0 then finishDesc d e (listStatus s2 pl k true) 0 0 s2
          else
            s2 |> onQueue p.die q.num (fun _ => if take then x1.removed else x1)
               |> onlyIf take (countPacket p.die false k)
               |> onlyIf list (putAt d e .que pl (w.cells.flatMap (fun c => leBytes 4 c)))
               |> finishDesc d e 0 x1.head (hdrResult h)

/-- FLUSH (R340): the chain is detached at once; its cells go back when the walk has been made. -/
def opFlush (d : Die) (e : Desc) (s : State) : State :=
  if e.phase ≠ 0 then s
  else
    match queueCheck d e s with
    | (.error st, s1) => finishDesc d e st 0 0 s1
    | (.ok q, s1) =>
      let x := q.queue
      if x.st = .fault then finishDesc d e 0x43 0 0 s1
      else if e.zero 8 56 = false then finishDesc d e 3 0 0 s1
      else if x.pkts = 0 then finishDesc d e 0 0 0 s1
      else
        s1 |> onQueue q.at_.die q.num QueueSt.emptied
           |> onDesc d e.sq e.seq (fun y => { y with phase := 1, vals := [(0, x.head), (1, x.cells), (2, x.pkts), (3, q.at_.num)] })

/-- The walk of a FLUSH is made: what it could not reach is leaked (R340, R345). -/
def flushDone (d : Die) (e : Desc) (s : State) : State :=
  let n := ngetD e.vals 1 0
  let pkts := ngetD e.vals 2 0
  match poolOf s (queueDie e.arg) (ngetD e.vals 3 0) with
  | none => finishDesc d e 0 pkts 0 s
  | some q =>
    let p : PoolAt := ⟨queueDie e.arg, ngetD e.vals 3 0, q⟩
    let (w, v) := walkChain p.pool (n - 1) (ngetD e.vals 0 0) (p.view e)
    if v.whole = false then v.ask d e .que .QUE 8 s
    else
      let cs := w.cells.filter (fun c => decide (c < p.pool.cells))
      finishDesc d e (if w.poison ∨ w.outside then 5 else 0) pkts cs.length (freeCells d e p cs (n - cs.length) v s)

/-! ### A peer's enqueue (R343) -/

/-- The 64-byte lines of a packet in its cells: the header, the bytes and zeros after the last (R329, R343). -/
def packetLines (p : PoolSt) (cs : List Nat) (h : Nat) (bytes : List Byte) : List PartWrite :=
  let all := padTo (256 * cs.length) (leBytes 16 h ++ bytes)
  cs.zipIdx.flatMap (fun q => (List.range 4).map (fun j =>
    ⟨p.cell q.1 + 64 * j, lineOf ((all.drop (256 * q.2 + 64 * j)).take 64), BitVec.allOnes 64, false⟩))

/-- What becomes of a peer's packet in its turn: a status at once, or the view of the lines that it needs, with the cells taken. -/
inductive Admit where
  | refused (st : Nat) (s : State)
  | asks (v : Eng)
  | takes (cs : List Nat) (linked : Bool) (pool : PoolSt) (lost : Nat) (v : Eng)
  deriving DecidableEq, Repr

/-- The check of the fabric port before R343: FABRIC_WRITE of the region that holds the named free pool, and FABRIC in its slot (R275, Table 1.6). -/
def packetMayEnter (o : Die) (p : Packet) (s : State) : Bool × State :=
  match (poolOf s o p.pool).filter (fun x => rgOn s x.region) with
  | none => (true, s)
  | some x =>
    let a := rgAttr s x.region
    if at_ a F.RGN_ATTR.FABRIC_WRITE ≠ 1 ∨ bitn (bindOf s a) 2 = false then
      (false, rrmDenied p.port (fabPort p.port) 3 x.region x.base (rrmCount p.port (fabPort p.port) none s))
    else (true, s)

/-- The checks of R343 of a packet that begins. -/
def packetCheck (p : Packet) (q : QueueAt) (s : State) : Nat × State :=
  if rgOn s q.at_.pool.region = false then (0x0A, s)
  else if p.pool ≠ q.at_.num ∨ p.len = 0 ∨ 65520 < p.len then (3, s)
  else if q.queue.st = .fault then (0x43, s)
  else if p.poison ∨ tailDrops q.queue (cellsFor p.len) then (0x0B, dropPacket q.at_.die q.num s)
  else if q.at_.pool.free < cellsFor p.len + q.at_.pool.reserve then (4, s)
  else (0, s)

/-- The packet's work: its cells and the link of the queue's final packet, out of the lines that have come. -/
def packetAdmit (p : Packet) (q : QueueAt) (w : EngWork) (s : State) : Admit :=
  let (st, s1) := if w.got.isEmpty then packetCheck p q s else (0, s)
  if st ≠ 0 then .refused st s1
  else
    match popCells (cellsFor p.len) q.at_.pool (Eng.start q.at_.die q.at_.pool.region w.got) with
    | (none, np, lost, v) =>
      if v.whole = false then .asks v
      else .refused 4 (s |> onPool q.at_.die q.at_.num (fun _ => np) |> leak q.at_.die q.at_.num lost |> poolLow q.at_.die q.at_.num)
    | (some cs, np, lost, v) =>
      let (ok, v1) := linkOn q.at_.pool q.queue (cs.headD 0) v
      if v1.whole = false then .asks v1 else .takes cs ok np lost v1

/-- The answer to a peer's packet. -/
def packetEnd (o : Die) (id : Nat) (p : Packet) (st : Nat) (s : State) : State := respond p.port p.node p.session 5 p.tag st 0 [] (dropWork o id s)

/-- An admitted packet enters its cells and its queue; its answer follows when its writes have been accepted. -/
def packetPut (o : Die) (id : Nat) (p : Packet) (q : QueueAt) (cs : List Nat) (np : PoolSt) (lost : Nat) (v : Eng) (s : State) : State :=
  let k := cs.length
  let n := q.at_.pool.region
  let h := header p.len (p.node % 4096 + 2 ^ 15) (cs.getLastD 0) 0
  let ws := v.writes ++ packetLines q.at_.pool cs h (p.bytes.take p.len)
  let links := chainWrites q.at_.pool cs
  s |> onPool o q.at_.num (fun _ => { np with lock := none }) |> leak o q.at_.num lost |> poolLow o q.at_.num
    |> addCount o .QUE 4 k |> addCount o .QUE 8 (ws.length + 2 * links.length)
    |> onWork o id (fun w => { w with written := true }) |> workWrites o id .que n (ws ++ links)
    |> onQueue o q.num (fun x => x.joined (cs.headD 0) (cs.getLastD 0) h) |> countPacket o true k |> addCount o .QUE 7 1
    |> wakePool o q.at_.num

/-- A peer's packet goes on (R343): in its turn on its pool it is checked, given cells and queued. -/
def packetRun (o : Die) (id : Nat) (p : Packet) (s : State) : State :=
  match nget (die s o).work id with
  | none => s
  | some w =>
    if 0 < w.left then s
    else if w.written then packetEnd o id p 0 s
    else
      match queueAt s p.queue with
      | none => packetEnd o id p 0x0A s
      | some q =>
        let k := q.at_.num
        if q.at_.pool.freeFor (.work id) = false then s
        else
          match packetAdmit p q w s with
          | .refused st s1 => unlockPool o k (packetEnd o id p st s1)
          | .asks v => v.askWork id .que .QUE 8 (lockPool o k (.work id) s)
          | .takes cs true np lost v => packetPut o id p q cs np lost v s
          | .takes cs false np lost _ =>
            s |> onPool o k (fun _ => np) |> leak o k lost |> poolLow o k |> addCount o .QUE 4 cs.length |> queueFault o q.num 0 none
              |> leak o k cs.length |> packetEnd o id p 0x43 |> unlockPool o k

/-- A peer's packet reaches the Queue Engine of its queue's die (R330, R343). -/
def packetArrive (p : Packet) (s : State) : State :=
  let o := queueDie p.queue
  if unitAbsent s.dev.part 0x30 then respond p.port p.node p.session 5 p.tag 1 0 [] s
  else if diePresent s o = false then respond p.port p.node p.session 5 p.tag 3 0 [] s
  else
    let (ok, s) := packetMayEnter o p s
    let id := s.seq + 1
    if ok = false then respond p.port p.node p.session 5 p.tag 6 0 [] s
    else packetRun o id p (onDie o (fun x => { x with work := nset x.work id ⟨.packet p, 0, [], false⟩ }) { s with seq := id })

/-! ### REMOTE_ENQUEUE (R342) -/

/-- The frames of an ENQ_REQ: MORE on all but the last, the poisoned lines of each in its mask. -/
def enqFrames (arg size : Nat) : Nat → List Byte → List Bool → List Frame
  | 0, _, _ => []
  | fuel + 1, bs, ps =>
    let here := bs.take size
    let bad := ps.take (size / 64)
    let f := { frame0 5 0 arg with payload := here, len := here.length, more := decide (size < bs.length),
                                   mask := if bad.any (fun b => b) then some (BitVec.ofNat 64 (maskOf (fun b => b) bad)) else none }
    if bs.length ≤ size then [f] else f :: enqFrames arg size fuel (bs.drop size) (ps.drop (size / 64))

/-- Send the packet: PEER_DOWN where no context is UP for the peer (R281). -/
def enqSend (d : Die) (e : Desc) (bytes : List Byte) (bad : List Bool) (s : State) : State :=
  let node := e.num 8 2 % 4096
  let arg := e.arg % 2 ^ 21 + bytes.length * 2 ^ 32
  let s0 := onDesc d e.sq e.seq (fun x => { x with phase := 2, left := x.left + 1, vals := nset x.vals 3 bytes.length }) s
  let (ok, s1) := peerIssue d node ⟨0, 5, .enq d e.sq e.seq, 0, bytes.length, []⟩ (fun c => enqFrames arg (64 * ctxLines c) 1024 bytes bad) s0
  if ok then s1 else finishDesc d e 0x40 0 0 s

/-- The poison of each 64 bytes of a packet, out of the poison of the lines that it was read from. -/
def pieceBad (lines : List Bool) (off len : Nat) : List Bool :=
  (List.range ((len + 63) / 64)).map (fun i =>
    let lo := off + 64 * i
    let hi := off + min (64 * i + 63) (len - 1)
    (List.range (hi / 64 - lo / 64 + 1)).any (fun j => lines.getD (lo / 64 + j) true))

/-- The bytes and poison of a local packet (R329): its cells' lines after the header. -/
def cellBytes (p : PoolSt) : List Nat → Eng → List (Option Line) × Eng
  | [], v => ([], v)
  | c :: cs, v =>
    let (ls, v1) := (List.range 4).foldl (fun (acc : List (Option Line) × Eng) j =>
      let (l, w) := acc.2.tryRead (p.cell c + 64 * j)
      (acc.1 ++ [l], w)) ([], v)
    let (rest, v2) := cellBytes p cs v1
    (ls ++ rest, v2)

/-- The local packet of a REMOTE_ENQUEUE is read and sent. -/
def sendPacket (d : Die) (e : Desc) (s : State) : State :=
  match poolAt s (e.num 20 1 % 16) with
  | none => finishDesc d e 0x0A 0 0 s
  | some p =>
    let head := e.num 16 4
    if p.pool.cells ≤ head then finishDesc d e 3 0 0 s
    else
      match readHdr p.pool head (p.view e) with
      | (.got h, v) =>
        let k := cellsFor (hdrLen h)
        let (w, v1) := walkChain p.pool (k - 1) head v
        if v1.whole = false then v1.ask d e .que .QUE 8 s
        else if w.poison ∨ w.outside then finishDesc d e 5 0 0 s
        else
          let (ls, v2) := cellBytes p.pool w.cells (v1.fetch (w.cells.flatMap (fun c => (List.range 4).map (fun j => p.pool.cell c + 64 * j))))
          if v2.whole = false then v2.ask d e .que .QUE 8 s
          else
            let bytes := ((ls.flatMap (fun l => lineBytes (l.getD 0))).drop 16).take (hdrLen h)
            enqSend d e bytes (pieceBad (ls.map (fun l => l.isNone)) 16 (hdrLen h)) s
      | (_, v) => if v.whole then finishDesc d e 5 0 0 s else v.ask d e .que .QUE 8 s

/-- The cells of a packet that a peer has taken go back to their pool (R342). -/
def sentBack (d : Die) (e : Desc) (s : State) : State :=
  let sent := ngetD e.vals 3 0
  match poolAt s (e.num 20 1 % 16) with
  | none => finishDesc d e 0 sent 0 s
  | some p =>
    let (w, v) := walkChain p.pool (cellsFor sent - 1) (e.num 16 4) (p.view e)
    if v.whole = false then v.ask d e .que .QUE 8 s
    else
      let cs := w.cells.filter (fun c => decide (c < p.pool.cells))
      finishDesc d e 0 sent 0 (freeCells d e p cs (cellsFor sent - cs.length) v s)

/-- REMOTE_ENQUEUE (Table 14.7): `host` is what the host returned of a host source. -/
def opRemoteEnqueue (d : Die) (e : Desc) (host : List LineData) (s : State) : State :=
  let kind := e.num 10 1
  let len := e.num 12 2
  let src : Place := ⟨kind == 1, e.num 16 8⟩
  let flatBad := fun (x : Desc) => (rangeLines src.addr len).zipIdx.map (fun p => (ngetD x.got (arrayKey + p.2) poisoned).poison)
  if e.phase = 2 then s
  else if e.phase = 3 then sentBack d e s
  else if e.phase = 1 then enqSend d e (arrayPart e src host 0 len).1 (pieceBad (flatBad e) (src.addr % 64) len) s
  else
    let (ok, s1) := if e.begun then (true, s) else if kind = 1 then domainCheck d e.sq src.addr .que s
      else if kind = 2 then (match poolAt s (e.num 20 1 % 16) with
        | some p => domainCheck d e.sq p.pool.base .que s
        | none => (true, s))
      else (true, s)
    let lenBad := kind ≠ 2 ∧ (len = 0 ∨ 65520 < len)
    let twoBad := kind = 2 ∧ (e.zero 12 2 = false ∨ 16 ≤ e.num 20 1 ∨ e.zero 21 3 = false)
    if ok = false then finishDesc d e 6 0 0 s1
    else if 2 < kind ∨ lenBad ∨ twoBad ∨ 2 ^ 21 ≤ e.arg ∨ 4096 ≤ e.num 8 2 ∨ (if kind = 2 then 2 else 1) ≤ e.num 11 1 ∨ e.zero 14 2 = false
        ∨ e.zero 24 40 = false then finishDesc d e 3 0 0 s1
    else if kind = 2 then sendPacket d e s1
    else if kind = 1 then
      (if (rangeRegion s1 src.addr len).isNone then finishDesc d e 3 0 0 s1
       else s1 |> onDesc d e.sq e.seq (fun x => { x with phase := 1 }) |> readArray d d e .que src.addr len)
    else enqSend d e (arrayPart e src host 0 len).1 (pieceBad ((List.range ((len + 63) / 64)).map (fun k => (host.getD k poisoned).poison)) 0 len) s1

/-- The peer has answered a REMOTE_ENQUEUE: where its cells go back (FREE_SRC, the answer OK), the descriptor goes on with that, else it ends with
the answer (R342). -/
def enqAnswered (d : Die) (sq seq status : Nat) (s : State) : State :=
  match startedDesc s d sq seq with
  | none => s
  | some e =>
    let s1 := onDesc d sq seq (fun x => { x with left := x.left - 1 }) s
    let sent := if status = 0 then ngetD e.vals 3 0 else 0
    if e.num 10 1 == 2 && bitn (e.num 11 1) 0 && status == 0 && (poolAt s1 (e.num 20 1 % 16)).isSome then onDesc d sq seq (fun x => { x with phase := 3 }) s1
    else finishDesc d e status sent 0 s1

/-! ### The engine's own work (R328, R333) -/

/-- STACK_FILL of a pool that holds fewer than 256 indices on die: its lines are asked for, and come on die once they have come. -/
def poolFill (o : Die) (k : Nat) (s : State) : State :=
  match poolOf s o k with
  | none => s
  | some p =>
    let ((id, w), s1) := takeWork o (.fill k) s
    if 256 ≤ p.held.length ∨ p.deep < 256 ∨ s.dev.mode = .hold ∨ p.freeFor (.work id) = false ∨ 0 < w.left then s
    else
      let (np, lost, v) := stackFill p (Eng.start o p.region w.got)
      if v.whole = false then v.askWork id .que .QUE 8 (lockPool o k (.work id) s1)
      else s1 |> onPool o k (fun _ => np) |> leak o k lost |> poolLow o k |> dropWork o id |> unlockPool o k

/-- STACK_SPILL of a pool that holds more than 768. -/
def poolSpill (o : Die) (k : Nat) (s : State) : State :=
  match poolOf s o k with
  | none => s
  | some p =>
    if p.held.length ≤ 768 ∨ s.dev.mode = .hold ∨ p.lock.isSome then s
    else
      let (np, v) := stackSpill p (Eng.start o p.region [])
      s |> onPool o k (fun _ => np) |> addCount o .QUE 8 v.put.length |> freeWrites o .que p.region v.writes

/-- READ_AHEAD of a queue: everything of R333 that is not on die. -/
def queueAhead (o : Die) (q : Nat) (s : State) : State :=
  let x := queueOf s o q
  match poolOf s o x.pool with
  | none => s
  | some p =>
    let ((id, w), s1) := takeWork o (.ahead q) s
    if x.st ≠ .enabled ∨ s.dev.mode = .hold ∨ p.freeFor (.work id) = false ∨ 0 < w.left then s
    else
      let (x1, f, v) := readAhead p 3 x (Eng.start o p.region w.got)
      if v.whole = false then v.askWork id .que .QUE 8 (lockPool o x.pool (.work id) s1)
      else
        let s2 := dropWork o id (onQueue o q (fun _ => x1) s1)
        unlockPool o x.pool (match f with
          | some y => faultFrom o q y s2
          | none => s2)

/-- An access of an engine's own work is done: the work goes on. -/
def workEvent (o : Die) (id : Nat) (s : State) : State :=
  match nget (die s o).work id with
  | none => s
  | some w =>
    match w.kind with
    | .cleanup k => cleanupRun k s
    | .fill k => poolFill o k s
    | .ahead q => queueAhead o q s
    | .packet p => packetRun o id p s

end Sys2Proof.Machine
end

