-- ==== Sys2Proof/Machine/FpcOps.lean ====
section
/-!
DEFINITION. Sys2Proof/Machine/FpcOps.lean: the opcodes of the fabric ports (Table 11.5, R277), and what software and time do to peer
contexts (R272 to R274, R278 to R283).
-/

namespace Sys2Proof.Machine

/-! ### REMOTE_READ and REMOTE_WRITE (R277) -/

/-- The parts of a range that end at 4 KiB boundaries: offset and length of each. -/
def pageParts (a : Nat) : Nat → Nat → Nat → List (Nat × Nat)
  | 0, _, _ => []
  | fuel + 1, off, len =>
    if len ≤ off then []
    else
      let n := min (len - off) (4096 - (a + off) % 4096)
      (off, n) :: pageParts a fuel (off + n) len

/-- The global fabric address and the length of a remote descriptor. -/
def remNode (e : Desc) : Nat := fld (e.num 8 8) 43 12
def remDla (e : Desc) : Nat := fld (e.num 8 8) 0 43
def remLen (e : Desc) : Nat := e.num 24 4
def remParts (e : Desc) : List (Nat × Nat) := pageParts (remDla e) 4098 0 (remLen e)

/-- The local end of a remote descriptor. -/
def remLocal (e : Desc) : Place := ⟨bitn (e.num 28 1) 0, e.num 16 8⟩

/-- The field checks of a remote descriptor that name no region. -/
def remFieldsOk (s : State) (e : Desc) : Bool :=
  e.arg == 0 && decide (e.num 8 8 < 2 ^ 55) && remNode e != nodeId s && remDla e % 64 == 0 && remLen e % 64 == 0 && decide (64 ≤ remLen e)
    && decide (remLen e ≤ 2 ^ 24) && decide (remDla e + remLen e ≤ 2 ^ 43) && decide (e.num 28 1 ≤ 1) && e.zero 29 35

/-- The first status other than OK, in address order: what requests failed with, and POISON from the offset of the first poisoned line. -/
def remStatus (e : Desc) (poison : Option Nat) : Nat :=
  match e.fails, poison with
  | p :: _, some a => if a < p.1 then 5 else p.2
  | p :: _, none => p.2
  | [], some _ => 5
  | [], none => 0

/-- The key under which a descriptor records that the part at an offset has been answered. -/
def partKey (off : Nat) : Nat := 16 + off / 64

/-- The bytes done: those of the parts, in address order, before the first that failed or has not been answered. -/
def remDone (e : Desc) : Nat := (((remParts e).takeWhile (fun p => (nget e.vals (partKey p.1)).isSome)).map (·.2)).foldl (· + ·) 0

/-- The lines that have come for a remote read, as far as it was done. -/
def remLines (e : Desc) : List LineData := (List.range (remDone e / 64)).map (fun k => ngetD e.got k poisoned)

/-- The offset of the first poisoned line of a remote write's source, which is kept plus one; none where there is none. -/
def remPoison (e : Desc) : Option Nat := (nget e.vals 4).map (fun v => v - 1)

/-- The end of a remote operation: a read's lines go to their place (R277). -/
def remEnd (d : Die) (e : Desc) (s : State) : State :=
  let s1 := onDesc d e.sq e.seq (fun x => { x with left := 0, phase := 2 }) s
  if e.op = 0x90 then
    let ls := remLines e
    let dst := remLocal e
    let res1 := match firstPoison ls with
      | some i => 64 * i
      | none => 2 ^ 64 - 1
    let s2 := if dst.loc then issueWrites d d e .cpr (ls.zipIdx.flatMap (fun q => byteWrites (dst.addr + 64 * q.2) (lineBytes q.1.line) q.1.poison)) s1
      else each ls.zipIdx (fun q => hostPut d (dst.addr + 64 * q.2) (lineBytes q.1.line) q.1.poison) s1
    finishDesc d e (remStatus e ((firstPoison ls).map (64 * ·))) (remDone e) res1 s2
  else finishDesc d e (remStatus e (remPoison e)) (remDone e) 0 s1

/-- A part of a remote operation has been answered: with the last, or with one that failed, it ends. -/
def remAnswered (d : Die) (sq seq off status : Nat) (ls : List LineData) (s : State) : State :=
  match startedDesc s d sq seq with
  | none => s
  | some e =>
    if e.phase ≠ 1 then s
    else
      let ok := status = 0 ∨ status = 5
      let s1 := onDesc d sq seq (fun x =>
        { x with left := x.left - 1,
                 got := if ok then ls.zipIdx.foldl (fun m p => nset m (off / 64 + p.2) p.1) x.got else x.got,
                 vals := if ok then nset x.vals (partKey off) 1 else x.vals,
                 fails := if ok then x.fails else nset x.fails off status }) s
      match startedDesc s1 d sq seq with
      | none => s1
      | some e1 => if e1.left = 0 ∨ e1.fails ≠ [] then remEnd d e1 s1 else s1

/-- The requests of a remote operation go out; PEER_DOWN where no context is UP (R281). -/
def remSend (d : Die) (e : Desc) (one : Nat × Nat → State → Bool × State) (s : State) : State :=
  if (outPort s d (remNode e)).isNone then finishDesc d e 0x40 0 0 s
  else
    let s1 := onDesc d e.sq e.seq (fun x => { x with phase := 1, left := x.left + (remParts e).length }) s
    each (remParts e) (fun p t => (one p t).2) s1

/-- REMOTE_READ. -/
def opRemoteRead (d : Die) (e : Desc) (s : State) : State :=
  if e.phase ≠ 0 then s
  else
    let (ok, s1) := placeDomain d e.sq (remLocal e) s
    let st := placeStatus s1 (remLocal e) (remLen e) true
    if ok = false then finishDesc d e 6 0 0 s1
    else if remFieldsOk s1 e = false then finishDesc d e 3 0 0 s1
    else if st ≠ 0 then finishDesc d e st 0 0 s1
    else remSend d e (fun p => peerRead d (remNode e) 1 (remDla e + p.1) (p.2 / 64) (.desc d e.sq e.seq p.1)) s1

/-- The lines of a remote write are sent. -/
def remWriteOut (d : Die) (e : Desc) (ls : List LineData) (s : State) : State :=
  remSend d e (fun p => peerWrite d (remNode e) 3 (remDla e + p.1) ((ls.drop (p.1 / 64)).take (p.2 / 64)) (.desc d e.sq e.seq p.1))
    (onDesc d e.sq e.seq (fun x => { x with vals := match firstPoison ls with
      | some i => nset x.vals 4 (64 * i + 1)
      | none => x.vals }) s)

/-- REMOTE_WRITE: `host` is what the host returned of a host source. -/
def opRemoteWrite (d : Die) (e : Desc) (host : List LineData) (s : State) : State :=
  if e.phase = 3 then remWriteOut d e (rangePieces e arrayKey (remLocal e).addr (remLen e / 64)) s
  else if e.phase ≠ 0 then s
  else
    let src := remLocal e
    let (ok, s1) := placeDomain d e.sq src s
    let st := placeStatus s1 src (remLen e) false
    if ok = false then finishDesc d e 6 0 0 s1
    else if remFieldsOk s1 e = false then finishDesc d e 3 0 0 s1
    else if st ≠ 0 then finishDesc d e st 0 0 s1
    else if src.loc then s1 |> onDesc d e.sq e.seq (fun x => { x with phase := 3 }) |> readArray d d e .cpr src.addr (remLen e)
    else remWriteOut d e (hostPieces host (remLen e / 64)) s1

/-! ### Contexts by software (R269, R273, R280) -/

/-- The number of a context's state. -/
def ctxStateNum : CtxState → Nat
  | .down => 0 | .connecting => 1 | .up => 2 | .unreachable => 3

/-- Send the HELLO of an enabled context that is to connect. -/
def connect (d : Die) (node : Nat) (s : State) : State :=
  sendHello d node (onCtx d node (fun c => { c with st := .connecting }) s)

/-- Enable a context: it connects (R273); the context of the device's own node cannot be enabled (R269). -/
def peerEnable (d : Die) (node mac port : Nat) (big : Bool) (s : State) : State :=
  if node = nodeId s ∨ (ctx s d node).en ∨ fabPresent s d = false then s
  else
    connect d node (onCtx d node (fun c => { CtxSt.reset with en := true, mac := mac, port := port, big := big, session := c.session }) s)

/-- Clear a context's EN: its requests fail with ABORTED and it is DOWN (R280, Table 11.6). -/
def peerDisable (d : Die) (node : Nat) (s : State) : State :=
  if (ctx s d node).en then onCtx d node (fun c => { c with en := false }) (endSession d node 7 .down s).2 else s

/-- PEER_RESET: the context ends its session, its requests fail with ABORTED, and it reconnects (R280). -/
def peerReset (d : Die) (node : Nat) (s : State) : State :=
  if (ctx s d node).en then connect d node (endSession d node 7 .connecting s).2 else s

/-- Whether a descriptor that names a peer context is well formed: the node, and a port that the part has. -/
def peerFieldsOk (s : State) (e : Desc) : Bool :=
  e.arg == 0 && decide (e.num 8 8 < 4096) && e.zero 16 12 && decide (e.num 28 1 ≤ 1) && e.zero 29 35 && fabPresent s (dieOf (e.num 28 1))

/-- PEER_QUERY. -/
def opPeerQuery (d : Die) (e : Desc) (s : State) : State :=
  if peerFieldsOk s e = false then finishDesc d e 3 0 0 s
  else
    let c := ctx s (dieOf (e.num 28 1)) (e.num 8 8)
    finishDesc d e 0 (ctxStateNum c.st + 16 * c.session + 256 * min c.reqs.length 65535) c.retx s

/-- PEER_RESET: NOT_FOUND for a context that is not enabled. -/
def opPeerReset (d : Die) (e : Desc) (s : State) : State :=
  if peerFieldsOk s e = false then finishDesc d e 3 0 0 s
  else if (ctx s (dieOf (e.num 28 1)) (e.num 8 8)).en = false then finishDesc d e 0x0A 0 0 s
  else finishDesc d e 0 0 0 (peerReset (dieOf (e.num 28 1)) (e.num 8 8) s)

/-! ### Timers (R272 to R274, R278, R280) -/

/-- The retransmit timer of a context reaches RTO_US: one timeout, and with the UNREACH_N-th in a row the peer is lost. -/
def retransmitTimeout (d : Die) (node : Nat) (s : State) : State :=
  let c := ctx s d node
  if c.st ≠ .up ∨ c.unacked = [] ∨ s.dev.mode = .hold ∨ coreBypass s d then s
  else
    let s1 := s |> onCtx d node (fun c => { c with timeouts := c.timeouts + 1 }) |> addCount d .FPC 3 1
    if clamp 2 63 (rf s F.FPC_TIMER_CFG.UNREACH_N d 0) ≤ c.timeouts + 1 then unreach d node 0 s1 else resend d node s1

/-- ACK_DELAY_US after the first arrival not reported. -/
def ackDelay (d : Die) (node : Nat) (s : State) : State :=
  let c := ctx s d node
  if c.st = .up ∧ 0 < c.unreported ∧ coreBypass s d = false then sendAck d node s else s

/-- A CONNECTING context sends a new HELLO every 100 µs. -/
def helloTimer (d : Die) (node : Nat) (s : State) : State := if (ctx s d node).st = .connecting ∧ s.dev.mode ≠ .hold then sendHello d node s else s

/-- An UP context that has sent nothing for HB_MS sends a HEARTBEAT. -/
def heartbeatSend (d : Die) (node : Nat) (s : State) : State := if ctxUp s d node then transmit d node (frame0 0x0E 0 0) s else s

/-- No frame has come from a peer for HB_MISS × HB_MS. -/
def peerSilence (d : Die) (node : Nat) (s : State) : State := if s.dev.mode = .hold then s else unreach d node 1 s

/-- An UNREACHABLE context sends HELLO. -/
def probeTimer (d : Die) (node : Nat) (s : State) : State := if (ctx s d node).st = .unreachable ∧ s.dev.mode ≠ .hold then sendHello d node s else s

/-- The contexts of a port that are enabled. -/
def portCtxs (s : State) (d : Die) : List Nat := ((die s d).fpc.ctxs.filter (fun p => p.2.en)).map (·.1)

/-- A port's Ethernet link goes down: every context of it is lost, and DEG_FPORT stands while the port is enabled (R278, R371). -/
def ethDown (d : Die) (s : State) : State :=
  if fabPresent s d = false ∨ rfb s F.FPC_LINK_STATUS.UP d 0 = false then s
  else
    let lost := ((portCtxs s d).filter (fun n => (ctx s d n).st == .up || (ctx s d n).st == .connecting)).length
    s |> each (portCtxs s d) (fun n => unreach d n 2) |> wf F.FPC_LINK_STATUS.UP d 0 0 |> wf F.FPC_LINK_STATUS.SECURE d 0 0
      |> setFlag F.FPC_STATUS.LINK_DOWN d 0
      |> post d ⟨0x0201, sevUncorrected, locDie d, [it2 lost], none, none⟩
      |> onlyIf (rfb s F.FPC_PORT_CFG.EN d 0) (degrade F.DEV_STATUS.DEG_FPORT)

/-- Whether some enabled fabric port has no Ethernet link. -/
def anyFabDown (s : State) : Bool := (diesPresent s).any (fun d => fabPresent s d && rfb s F.FPC_PORT_CFG.EN d 0 && !(rfb s F.FPC_LINK_STATUS.UP d 0))

/-- A port's Ethernet link comes up. -/
def ethUp (d : Die) (s : State) : State :=
  if fabPresent s d = false ∨ rfb s F.FPC_PORT_CFG.EN d 0 = false ∨ rfb s F.FPC_LINK_STATUS.UP d 0 ∨ fenced s d ∨ s.dev.mode = .boot ∨ s.dev.mode = .hold then s
  else
    let s1 := s |> setFlag F.FPC_LINK_STATUS.UP d 0 |> post d ⟨0x0202, sevInfo, locDie d, [], none, none⟩
    if anyFabDown s1 then s1 else undegrade F.DEV_STATUS.DEG_FPORT s1

/-- The fabric ports stop sending and their contexts become CONNECTING, for HOLD (R282): requests in flight have completed. -/
def fabHold (d : Die) (s : State) : State :=
  each (portCtxs s d) (fun n t => (endSession d n 8 .connecting t).2) s |> wf F.FPC_LINK_STATUS.UP d 0 0 |> wf F.FPC_LINK_STATUS.SECURE d 0 0

/-! ### Injection (R283) -/

/-- A frame that an injection has held is sent, or taken, where the port still can (R283). -/
def releaseFrame (d : Die) (h : HeldFrame) (s : State) : State :=
  if h.rx then (if canReceive s d h.node then accept d h.frame h.sciOk s else s)
  else if canSend s d h.node then emit d h.node false h.frame s else s

/-- A frame held by a reorder that saw no later frame is sent, or taken, alone. -/
def reorderExpire (d : Die) (s : State) : State :=
  match (die s d).fpc.swapped with
  | none => s
  | some h =>
    let s1 := onFpc d (fun x => { x with swapped := none }) s
    releaseFrame d h s1

/-- The oldest frame held by a delay is released. -/
def delayExpire (d : Die) (s : State) : State :=
  match (die s d).fpc.delayed with
  | [] => s
  | h :: hs =>
    let s1 := onFpc d (fun x => { x with delayed := hs }) s
    releaseFrame d h s1

end Sys2Proof.Machine
end

