-- ==== Sys2Proof/Machine/TmeOps.lean ====
section
/-!
DEFINITION. Sys2Proof/Machine/TmeOps.lean: the heat epoch and the sweep (R147, R148), the end of a promotion's wait (R145), and the
opcodes of the TME (R162): MIGRATE and PIN as jobs, and QUERY_PAGE.
-/

namespace Sys2Proof.Machine

/-! ### The sweep (R148) -/

/-- A field of TME_POLICY. -/
def policy (s : State) (d : Die) (f : Fld) : Nat := rf s f d 0

/-- Whether a promotion of a die waits for a frame. -/
def frameWait (s : State) (d : Die) : Bool :=
  !(tme s d).starved.isEmpty || !(tme s d).stuck.isEmpty || (tme s d).jobs.any (fun p => p.2.stuck)

/-- COLD1, or COLD1_LOW while frames are short (R145). -/
def coldLimit (s : State) (d : Die) : Nat :=
  if (tme s d).pressure || frameWait s d then policy s d F.TME_POLICY.COLD1_LOW else policy s d F.TME_POLICY.COLD1

/-- Whether a page is cold and old enough for T2. -/
def farAge (s : State) (d : Die) (e : PageEnt) : Bool :=
  let ep := heatEpoch s d
  decide (effHeat e ep ≤ policy s d F.TME_POLICY.COLD2) && decide (policy s d F.TME_POLICY.T2_AGE ≤ (ep + 256 - e.hstamp) % 256)

/-- Whether a page was aborted or spared in this heat epoch (R151). -/
def spared (s : State) (d : Die) (key : Nat) : Bool := (tme s d).spared.contains (key, heatEpoch s d)

/-- Whether a page was found incompressible in this heat epoch or the one before. -/
def freshIncomp (s : State) (d : Die) (e : PageEnt) : Bool := e.incomp && decide ((heatEpoch s d + 256 - e.iepoch) % 256 ≤ 1)

/-- A promotion by the sweep that finds no frame waits (R145). -/
def sweepPromote (d : Die) (n dla : Nat) (s : State) : State :=
  match promote d n dla (pageEnt s d (pageKey s n dla)).pin .sweep [] s with
  | (.noFrame, t) => onTme d (fun x => { x with stuck := if x.stuck.contains (n, dla) then x.stuck else x.stuck ++ [(n, dla)] }) t
  | (_, t) => t

/-- A visit of the sweep to the entry of a page of a tiered region (R148). -/
def sweepVisit (d : Die) (n dla0 : Nat) (s : State) : State :=
  let dla := dla0 / 4096 * 4096
  if rfb s F.TME_POLICY.EN d 0 = false ∨ serving s = false ∨ resting s ∨ (tieredOn s d).contains n = false ∨ rgHolds s n dla = false
      ∨ (die s d).sru.salvage.isSome ∨ rfb s F.TME_STATUS.REHOME d 0 then s
  else
    let key := pageKey s n dla
    let e := pageEnt s d key
    let h := effHeat e (heatEpoch s d)
    if cachedEntry s d key = false then askEntry d key n dla (.sweep d n dla) s
    else
    let s1 := if 0 < e.heat ∧ h = 0 then setPage d key { e with heat := 0 } s else s
    if movable s1 d key = false then s1
    else if e.tier = tT0 ∧ e.pin = false ∧ freshIncomp s d e = false ∧ h ≤ coldLimit s d ∧ spared s d key = false then
      (demote d n dla (farAge s d e) .sweep s1).2
    else if e.tier = tT1 ∧ farAge s d e ∧ spared s d key = false then (toT2 d n dla .sweep s1).2
    else if (e.tier = tT1 ∨ e.tier = tT2) ∧ policy s d F.TME_POLICY.HOT ≠ 0 ∧ policy s d F.TME_POLICY.HOT ≤ h then sweepPromote d n dla s1
    else s1

/-- The heat epoch advances (R147). -/
def nextEpoch (d : Die) (s : State) : State :=
  wf F.TME_STATUS.EPOCH d 0 ((heatEpoch s d + 1) % 256) (onTme d (fun t => { t with spared := [] }) s)

/-! ### Jobs (R162) -/

/-- The next page of a job has been dealt with. -/
def jobNext (d : Die) (id : Nat) (f : TmeJob → TmeJob) : State → State :=
  onJob d id (fun j => f { j with next := j.next + 1, stuck := false })

/-- A page of a job is done at once. -/
def jobDone (d : Die) (id : Nat) : State → State := jobNext d id (fun j => { j with done := j.done + 1 })

/-- A page of a job is skipped. -/
def jobSkip (d : Die) (id : Nat) : State → State := jobNext d id (fun j => { j with skipped := j.skipped + 1 })

/-- What an attempt to start a move for a job's page comes to: a job whose abort has been counted already is not counted again. -/
def jobStart (d : Die) (id skipped : Nat) (waits : Bool) (p : Started × State) : State :=
  match p with
  | (.yes, t) => jobNext d id (fun j => j) t
  | (.noFrame, t) =>
    if waits then onJob d id (fun j => { j with stuck := true }) t
    else jobNext d id (fun j => { j with skipped := j.skipped + 1, noFrame := true }) t
  | (.noPool, t) => jobNext d id (fun j => { j with skipped := j.skipped + 1, noPool := true }) t
  | (.busy, t) => jobNext d id (fun j => { j with skipped := max j.skipped (skipped + 1) }) t

/-- MIGRATE of one page (Tables 6.3 and 6.5): a tier change that Table 6.3 does not have is skipped, and so is a page that is not to be demoted
in this heat epoch (R151, Table 7.5). -/
def migratePage (d : Die) (id : Nat) (j : TmeJob) (dla : Nat) (e : PageEnt) (s : State) : State :=
  let n := j.region
  let why := MoveWhy.job id
  let cur := if e.tier = tPattern then 4 else if e.tier = tZero then 3 else if e.tier = tT0 then 0 else if e.tier = tT1 then 1 else if e.tier = tT2 then 2 else 5
  if cur = j.target then jobDone d id s
  else if j.target = 0 then jobStart d id j.skipped true (promote d n dla e.pin why [] s)
  else if e.pin then jobSkip d id s
  else if j.target = 3 then jobStart d id j.skipped false (toZero d n dla why s)
  else if spared s d (pageKey s n dla) then jobSkip d id s
  else if j.target = 1 ∧ e.tier = tT0 then jobStart d id j.skipped false (demote d n dla false why s)
  else if j.target = 2 ∧ (e.tier = tT0 ∨ e.tier = tT1) then jobStart d id j.skipped false (toT2 d n dla why s)
  else jobSkip d id s

/-- PIN of one page: a pinned page is promoted; an unpinned one keeps its tier. -/
def pinPage (d : Die) (id : Nat) (j : TmeJob) (dla key : Nat) (pin : Bool) (e : PageEnt) (s : State) : State :=
  if pin = false ∨ e.tier = tT0 then jobDone d id (setPage d key { e with pin := pin } s)
  else jobStart d id j.skipped true (promote d j.region dla true (.job id) [] s)

/-- The moves of a job that are not committed. -/
def jobMoves (s : State) (d : Die) (id : Nat) : Nat := ((tme s d).moves.filter (fun p => p.2.why == .job id && !p.2.committed)).length

/-- A job ends when every page has been dealt with and no move of it is in flight. -/
def jobEnd (d : Die) (id : Nat) (j : TmeJob) (s : State) : State :=
  if jobMoves s d id = 0 then
    let s1 := onTme d (fun t => { t with jobs := nerase t.jobs id }) s
    let st := if j.done = 0 ∧ j.noFrame then 0x41 else if j.done = 0 ∧ j.noPool then 0x42 else 0
    match startedDesc s j.ring j.sq j.seq with
    | some e => finishDesc j.ring e st j.done j.skipped s1
    | none => s1
  else s

/-- Carry a job on: page by page, until a page's move or drain, or the move slots, make it wait. -/
def jobRun (d : Die) (id : Nat) : Nat → State → State
  | 0, s => s
  | fuel + 1, s =>
    match nget (tme s d).jobs id with
    | none => s
    | some j =>
      if j.count ≤ j.next then jobEnd d id j s
      else
        let dla := j.dla + 4096 * j.next
        if rgLive s j.region = false ∨ rgHolds s j.region dla = false then jobRun d id fuel (jobSkip d id s)
        else
          let key := pageKey s j.region dla
          let e := pageEnt s d key
          if cachedEntry s d key = false then askEntry d key j.region dla (.job d id) s
          else if movable s d key = false then s
          else
            let t := match j.pin with
              | some p => pinPage d id j dla key p e s
              | none => migratePage d id j dla e s
            match nget (tme t d).jobs id with
            | some k => if k.stuck then t else jobRun d id fuel t
            | none => t

/-- Carry a job on as far as it goes. -/
def jobGo (d : Die) (id : Nat) (s : State) : State := jobRun d id (((nget (tme s d).jobs id).map (·.count)).getD 0 + 1) s

/-- The checks of a TME descriptor: status and region. -/
def tmeCheck (d : Die) (e : Desc) (rest : Bool) (pages : Nat) (s : State) : Nat × State :=
  let n := e.arg % 64
  let a := e.num 8 8
  if rgLive s n = false then (3, s)
  else if ringBound s d e.sq n = false then (6, rrmDenied d .cpr 4 n a (rrmCount d .cpr none s))
  else if 64 ≤ e.arg ∨ rest = false then (3, s)
  else if atTiered (rgAttr s n) = false then (0x40, s)
  else if pages = 0 ∨ 65536 < pages ∨ rgHolds s n a = false ∨ rgHolds s n (a / 4096 * 4096 + 4096 * (pages - 1)) = false then (3, s)
  else (0, s)

/-- Begin a job on the home die of its region. -/
def startJob (d : Die) (e : Desc) (target : Nat) (pin : Option Bool) (s : State) : State :=
  let n := e.arg % 64
  let o := atHome (rgAttr s n)
  let id := s.seq + 1
  let j : TmeJob := ⟨d, e.sq, e.seq, n, e.num 8 8 / 4096 * 4096, e.num 16 4, target, pin, 0, 0, 0, false, false, false⟩
  { s with seq := id } |> onDesc d e.sq e.seq (fun x => { x with phase := 1 }) |> onTme o (fun t => { t with jobs := nset t.jobs id j }) |> jobGo o id

/-- MIGRATE. -/
def opMigrate (d : Die) (e : Desc) (s : State) : State :=
  if e.phase ≠ 0 then s
  else
    let (st, s1) := tmeCheck d e (e.zero 21 43 && decide (e.num 20 1 < 4)) (e.num 16 4) s
    if st ≠ 0 then finishDesc d e st 0 0 s1 else startJob d e (e.num 20 1) none s1

/-- PIN. -/
def opPin (d : Die) (e : Desc) (s : State) : State :=
  if e.phase ≠ 0 then s
  else
    let (st, s1) := tmeCheck d e (e.zero 21 43 && decide (e.num 20 1 < 2)) (e.num 16 4) s
    if st ≠ 0 then finishDesc d e st 0 0 s1 else startJob d e 0 (some (e.num 20 1 == 1)) s1

/-- The answer of a QUERY_PAGE (Table 6.5). -/
def queryAnswer (d : Die) (e : Desc) (s : State) : State :=
  let n := e.arg % 64
  let o := atHome (rgAttr s n)
  let p := pageEnt s o (pageKey s n (e.num 8 8))
  let tier := min p.tier tLost
  finishDesc d e 0 (tier + 8 * b2n p.moving + 16 * b2n p.pin + 256 * effHeat p (heatEpoch s o) + 65536 * p.epoch)
    (if p.tier = tT1 then p.cls else if p.tier = tT2 then p.node else 0) s

/-- QUERY_PAGE: the entry is read where the page map cache does not hold it. -/
def opQueryPage (d : Die) (e : Desc) (s : State) : State :=
  let (st, s1) := tmeCheck d e (e.zero 16 48) 1 s
  if st ≠ 0 then finishDesc d e st 0 0 s1
  else
    let n := e.arg % 64
    let o := atHome (rgAttr s n)
    let key := pageKey s1 n (e.num 8 8)
    if cachedEntry s1 o key then queryAnswer d e s1
    else askEntry o key n (e.num 8 8) (.query d e.sq e.seq) (onDesc d e.sq e.seq (fun x => { x with left := x.left + 1 }) s1)

/-- The entry that a QUERY_PAGE has waited for has come. -/
def queryGo (d : Die) (sq seq : Nat) (s : State) : State :=
  match startedDesc s d sq seq with
  | some e => queryAnswer d (Desc.done 0 none e) (onDesc d sq seq (Desc.done 0 none) s)
  | none => s

/-! ### The end of a promotion's wait (R145) -/

/-- A promotion has waited WAIT_US for a frame: where one can still not be had, the writes that needed it are discarded, a job's page
is skipped, and 0x0602 is posted: once for the page, however many writes waited (DESIGN CHOICE, log entry 133). A write whose promotion fails for
another reason is discarded too (DESIGN CHOICE, log entry 25). -/
def promoteExpire (d : Die) (n dla0 : Nat) (s : State) : State :=
  let dla := dla0 / 4096 * 4096
  let key := pageKey s n dla
  let mine := fun (r : MemReq) => r.region == n && r.dla / 4096 * 4096 == dla
  let ws := (tme s d).starved.filter mine
  let js := (tme s d).jobs.filter (fun p => p.2.stuck && p.2.region == n && p.2.dla + 4096 * p.2.next == dla)
  let sw := (tme s d).stuck.contains (n, dla)
  if ws.isEmpty ∧ js.isEmpty ∧ sw = false then s
  else if cachedEntry s d key = false then askEntry d key n dla (.expire d n dla) s
  else
    let s0 := onTme d (fun t => { t with starved := t.starved.filter (fun r => !(mine r)), stuck := t.stuck.filter (· != (n, dla)) }) s
    let e := pageEnt s0 d key
    let full := decide (frameHi s0 d n ≤ lowGap (tme s0 d).frames (frameLo s0 n))
    if e.tier = tT0 ∨ (full = false ∧ movable s0 d key ∧ (e.tier ≠ tT2 ∨ (outPort s0 d e.node).isSome)) then
      s0 |> each ws (fun r => later (.carry r)) |> each js (fun p => later (.job d p.1)) |> onlyIf (sw && ws.isEmpty && e.tier != tT0) (sweepPromote d n dla)
    else
      s0 |> each ws (fun r => finishReq r none)
         |> each js (fun p t => later (.job d p.1) (jobNext d p.1 (fun j => { j with skipped := j.skipped + 1, noFrame := full }) t))
         |> onlyIf full (post d ⟨0x0602, sevUncorrected, locDie d, [it1 n, it6 dla], some dla, some (bindOf s (rgAttr s n))⟩)
         |> wakeFull d

end Sys2Proof.Machine
end

