-- ==== Sys2Proof/Machine/Region.lean ====
section
/-!
DEFINITION. Sys2Proof/Machine/Region.lean: the region descriptors (R136 to R139): writes, the checks of Table 6.1, the enabling fill,
and the disabling of a region.
-/

namespace Sys2Proof.Machine

/-! ### The checks of Table 6.1 -/

/-- Whether two runs of numbers meet. -/
def runsMeet (a n b m : Nat) : Bool := decide (a < b + m) && decide (b < a + n)

/-- The dies that hold a region's data. -/
def rgDies (a : Nat) : List Die := writeDies a

/-- The GiB of DPA that a region takes on its dies: its data, or its backing. -/
def rgDpa (s : State) (n : Nat) : Nat := if atTiered (rgAttr s n) then rg s F.RGN_PLACE.BACK_GIB n else rgGib s n

/-- The other enabled descriptors. -/
def othersOn (s : State) (n : Nat) : List Nat := (List.range 64).filter (fun k => k != n && rgOn s k)

/-- Whether a descriptor's DPA range fits the free DPA of a die and meets no other enabled region's (R18). -/
def dpaFits (s : State) (n : Nat) (d : Die) : Bool :=
  let lo := rg s F.RGN_PLACE.DPA_G n
  decide ((lo + rgDpa s n) * 2 ^ 24 ≤ freeTop s d) &&
    !((othersOn s n).any (fun k => (rgDies (rgAttr s k)).contains d && runsMeet lo (rgDpa s n) (rg s F.RGN_PLACE.DPA_G k) (rgDpa s k)))

/-- The GiB that enabled regions protect on a die with an INTEGRITY of at least a value (R200). -/
def protectedGib (s : State) (d : Die) (least : Nat) (ns : List Nat) : Nat :=
  ((ns.filter (fun k => let a := rgAttr s k; decide (least ≤ atInteg a) && (rgDies a).contains d)).map (rgGib s)).foldl (· + ·) 0

/-- Whether a region's integrity metadata and replay shares fit on its dies (R200). -/
def integFits (s : State) (n : Nat) : Bool :=
  let a := rgAttr s n
  let ns := n :: othersOn s n
  (rgDies a).all (fun d =>
    let c := carved s d (min 6 (rf s F.CIE_INT_CFG.REPLAY d 0))
    decide (protectedGib s d 1 ns ≤ carved s d (rf s F.CIE_INT_CFG.MAC_GIB d 0)) &&
      (atInteg a != 2 || decide (protectedGib s d 2 ns ≤ if c = 0 then 0 else 2 ^ (c - 1))))

/-- Whether a tiered region's map slice meets another's on its die, or reaches beyond the area (R141, R461). -/
def sliceBad (s : State) (n : Nat) : Bool :=
  let a := rgAttr s n
  let d := atHome a
  decide (carved s d (rf s F.TME_MAP_CFG.MAP_GIB d 0) < rg s F.RGN_MAP.MAP_G n + rgGib s n) ||
    (othersOn s n).any (fun k => atTiered (rgAttr s k) && atHome (rgAttr s k) == d &&
      runsMeet (rg s F.RGN_MAP.MAP_G n) (rgGib s n) (rg s F.RGN_MAP.MAP_G k) (rgGib s k))

/-- The REASON of the first row of Table 6.1 that an enable fails, if any. A backing of no GiB is taken as one that lies outside the
free DPA (DEDUCED, log entry 27). -/
def enableFault (s : State) (n : Nat) : Option Nat :=
  let a := rgAttr s n
  let owner := atOwner a
  if rg s F.RGN_CTRL.BUSY n = 1 then some 12
  else if rg s F.RGN_RANGE.LIMIT n < rg s F.RGN_RANGE.BASE n then some 11
  else if !(partDual s.dev.part) && (atMirror a || atHome a == .west) then some 4
  else if (othersOn s n).any (fun k => runsMeet (rg s F.RGN_RANGE.BASE n) (rgGib s n) (rg s F.RGN_RANGE.BASE k) (rgGib s k)) then some 1
  else if (atTiered a && (rgDpa s n == 0 || decide (1536 < rgDpa s n))) || !((rgDies a).all (dpaFits s n)) then some 2
  else if atTiered a && (owner == 1 || owner == 2 || atMirror a) then some 3
  else if owner == 3 || atInteg a == 3 || (atTiered a && atInteg a != 0) then some 5
  else if (slotOf s (atSlot a)).st ≠ .active ∨ s.metaKey.isNone then some 6
  else if atTiered a && sliceBad s n then some 7
  else if s.dev.mode = .hold ∨ s.dev.mode = .frozen ∨ s.dev.mode = .sanitize then some 8
  else if atInteg a != 0 && !(integFits s n) then some 9 else none

/-- A write or an enable of a descriptor is refused (R136, R137). The senior die posts 0x0405, the spec naming none (DESIGN CHOICE, log
entry 124). -/
def rgRefuse (n reason : Nat) (s : State) : State :=
  s |> wfc F.RGN_CTRL.REFUSED 1 n |> wfc F.RGN_CTRL.REASON reason n
    |> post (seniorDie s) ⟨0x0405, sevInfo, locDie (seniorDie s), [it1 n, it1 reason], none, none⟩

/-! ### The CDAT (R255) -/

/-- The CDAT of a port has changed: 1 a region, 2 a rate. -/
def cdatChanged (cause : Nat) (p : Die) (s : State) : State :=
  post p ⟨0x010A, sevInfo, locDie p, [it1 (Config.detailCode 0x010A cause)], none, none⟩ s

/-- A region has been enabled or disabled: the CDAT of every port that its slot binds changes. -/
def cdatRegion (n : Nat) (s : State) : State := each (logPorts s (some (bindOf s (rgAttr s n)))) (cdatChanged 1) s

/-! ### The fill (R138) -/

/-- Whether a home line index lies in a run of lines of a die. -/
def inRun (d : Die) (lo len h : Nat) : Bool := dieOf (fld h 35 1) == d && decide (lo ≤ fld h 0 35) && decide (fld h 0 35 < lo + len)

/-- The home line index whose data a cell of a subchannel holds: that of a valid remap entry on a spare line. -/
def cellHome (s : State) (d : Die) (i loc : Nat) : Nat :=
  match entryAt s d (sub s d i) loc with
  | some (_, e) => e.home
  | none => homeOf s d i loc

/-- A write that waits becomes the blank line of its home where a fill covers it. -/
def blankReq (d : Die) (lo len : Nat) (r : Req) : Req :=
  if r.write ∧ inRun d lo len r.home then { r with line := 0, poison := false, enc := r.enc.map (fun _ => encodeLine r.home 0 false none) } else r

/-- Blank lines over a run of lines of a die, and blank integrity state (R138, R157). -/
def blankRun (d : Die) (lo len : Nat) (s : State) : State :=
  let f := blankReq d lo len
  let s1 := each (List.range 12) (fun i t =>
    onSub d i (fun b => { b with cells := b.cells.filter (fun c => !(inRun d lo len (cellHome s d i c.1))), wrq := b.wrq.map f,
                                 demandHeld := b.demandHeld.map f, replay := b.replay.map (fun x => { x with req := f x.req }) }) t) s
  s1 |> each (List.range 6) (fun c => onChan d c (fun x => { x with mxin := x.mxin.map f }))
     |> onDie d (fun x => { x with lmeta := neraseRange x.lmeta lo len })

/-- The line of a run of lines of a die that takes the armed injection of a channel, if the fill of the run writes it: the line that
CWU_INJ_ADDR names, or the first of the injection's subchannel (R102, R103). -/
def injLine (s : State) (d : Die) (lo len c : Nat) (j : InjSt) : Option (Nat × Nat × Nat) :=
  let hs := if j.matching then [rf s F.CWU_INJ_ADDR_LO.H_LO d c + rf s F.CWU_INJ_ADDR_HI.H_HI d c * 2 ^ 32]
    else (List.range (min len 64)).map (fun k => dieNum d * 2 ^ 35 + lo + k)
  hs.findSome? (fun h => match placeOf s h with
    | some (o, i, loc) => if inRun d lo len h ∧ o = d ∧ i = 2 * c + j.sub ∧ uninit (sub s d i) loc = false then some (h, i, loc) else none
    | none => none)

/-- The fill of a run of lines takes the injections that are armed; no line is encoded while its channel is FROZEN (Table 4.4). -/
def fillInjected (d : Die) (lo len : Nat) (s : State) : State :=
  each (List.range 6) (fun c t => match (chan t d c).inj with
    | none => t
    | some j =>
      (match if (chan t d c).frozen.isSome then none else injLine t d lo len c j with
       | none => t
       | some (h, i, loc) =>
         let e := encodeFor d i h 0 false t
         onSub d i (fun b => { b with cells := nset b.cells (steer e.2 d i loc h) e.1 }) e.2)) s

/-- The first map entry of a region and the number of its entries. -/
def sliceOf (s : State) (n : Nat) : Nat × Nat := (rg s F.RGN_MAP.MAP_G n * 262144, rgGib s n * 262144)

/-- Free what a tiered region's entries hold on its die, and make the entries blank. -/
def clearSlice (n : Nat) (s : State) : State :=
  let d := atHome (rgAttr s n)
  let (lo, len) := sliceOf s n
  let base := rf s F.TME_T2_CFG.BASE_G d 0 * 262144
  let far := ((tme s d).pages.filter (fun p => decide (lo ≤ p.1) && decide (p.1 < lo + len) && p.2.tier == tT2)).map (fun p => p.2.place - base)
  let f0 := rg s F.RGN_PLACE.DPA_G n * 262144
  let fn := rg s F.RGN_PLACE.BACK_GIB n * 262144
  s |> onTme d (fun t => { t with pages := neraseRange t.pages lo len, lostRuns := t.lostRuns.filter (fun p => p.1 != lo), frames := neraseRange t.frames f0 fn, pool := far.foldl nerase t.pool,
                                  cached := neraseRange t.cached lo len, unread := t.unread.filter (fun k => decide (k < lo) || decide (lo + len ≤ k)),
                                  opened := t.opened.filter (fun f => decide (f < f0) || decide (f0 + fn ≤ f)) })
    |> each ((far.map (· / 512)).eraseDups) (fun k => putPoolBit d (512 * k))
    |> frameEase d |> wakeStarved d

/-- The lines of a tiered region's map slice and of its frame bitmap become blank (R138). -/
def blankSlice (n : Nat) (s : State) : State :=
  let d := atHome (rgAttr s n)
  s |> blankRun d (mapBase s d + (sliceOf s n).1 / 4) ((sliceOf s n).2 / 4)
    |> blankRun d (rg s F.RGN_PLACE.DPA_G n * 2 ^ 24) (rg s F.RGN_PLACE.BACK_GIB n * 512)

/-- The fill of an enabling region is done: its lines, or its map slice and frame bitmap, are blank, and it is decoded (R138). -/
def fillDone (n : Nat) (s : State) : State :=
  if rgOn s n = false ∨ rg s F.RGN_CTRL.BUSY n = 0 then s
  else
    let a := rgAttr s n
    let s1 := if atTiered a then blankSlice n (clearSlice n s)
      else each (rgDies a) (fun d t => onSru d (fun u => { u with rebuilt := if u.rebuilt.contains n then u.rebuilt else u.rebuilt ++ [n] })
        (each (shareRuns t d n) (fun q => blankRun d q.1 q.2) (blankShare n d
          (fillInjected d (rg s F.RGN_PLACE.DPA_G n * 2 ^ 24) (rgGib s n * 2 ^ 24) (blankRun d (rg s F.RGN_PLACE.DPA_G n * 2 ^ 24) (rgGib s n * 2 ^ 24) t))))) s
    s1 |> wfc F.RGN_CTRL.BUSY 0 n |> onlyIf (atTiered a) (frameEase (atHome a))

/-- Software writes ENABLE = 1 (R137, R138): a descriptor enabled in TRAIN needs no fill. -/
def regionEnable (n : Nat) (s : State) : State :=
  if rgOn s n then s
  else
    match enableFault s n with
    | some r => rgRefuse n r s
    | none =>
      let a := rgAttr s n
      s |> each (rgDies a) (takeShare n a (rgGib s n)) |> wfc F.RGN_CTRL.ENABLE 1 n |> onlyIf (s.dev.mode != .train) (wfc F.RGN_CTRL.BUSY 1 n) |> cdatRegion n

/-! ### Disabling (R139) -/

/-- Whether the device still has work for a region: requests, lookups and updates of its tables, operations on its pools, moves, and lines that agents may hold. -/
def regionBusy (s : State) (n : Nat) : Bool :=
  s.ops.any (fun p => p.2.region == n) || s.rots.any (fun p => p.2.region == n) || tablesBusy s n || poolsBusy s n || (diesPresent s).any (fun d =>
    (cdr s d).dir.any (fun p => p.2.region == n) || (cdr s d).held.any (fun r => r.region == n) || (cdr s d).retry.any (fun r => r.region == n) ||
      (cdr s d).loose.any (fun p => p.2.any (fun r => r.region == n)) ||
      (tme s d).moves.any (fun p => p.2.region == n) || (tme s d).starved.any (fun r => r.region == n) ||
      (tme s d).full.any (fun p => p.2.req.any (fun r => r.region == n)))

/-- Abort the moves of a region that are not committed. -/
def abortRegion (d : Die) (n : Nat) (s : State) : State :=
  each ((tme s d).moves.filter (fun p => p.2.region == n && !p.2.committed)) (fun p => abortMove d p.1) s

/-- The CDR recalls a COHERENT region's lines (R234). -/
def recallRegion (d : Die) (n : Nat) (s : State) : State :=
  recallAdvance d (onCdr d (fun x => { x with recalls := if x.recalls.contains n then x.recalls else x.recalls ++ [n] }) s)

/-- A rotation leaves the region that is disabled (R203). -/
def rotQuit (n : Nat) (s : State) : State :=
  each (s.rots.filter (fun p => p.2.region == n)) (fun p t =>
    each p.2.waiting (fun q => later (.carry q)) { t with rots := nerase t.rots p.1 }) s

/-- What disabling a region starts: recalls, aborts, the end of tables, pools and failed tree nodes. -/
def unbindRegion (n : Nat) (s : State) : State :=
  let a := rgAttr s n
  let bad := fun (x : DieSt) => { x with badNodes := x.badNodes.filter (fun b => b.region != n) }
  s |> rotQuit n |> dropTables n |> dropPools n |> onDie .east bad |> onDie .west bad
    |> onlyIf (atCoherent a) (recallRegion (atHome a) n)
    |> onlyIf (atTiered a) (fun t => t |> abortRegion (atHome a) n |> onTme (atHome a) (fun x => { x with stuck := x.stuck.filter (fun p => p.1 != n) }) |> wakeJobs (atHome a))

/-- What is bound to a descriptor keeps it as it stands, whatever software writes to its registers from now on (R20). -/
def keepBound (n : Nat) (s : State) : State :=
  { s with bound := nset s.bound n ⟨rgWord s .RGN_RANGE n, rgWord s .RGN_ATTR n, rgWord s .RGN_PLACE n, rgWord s .RGN_MAP n⟩ }

/-- Nothing is bound to a descriptor any more. -/
def dropBound (n : Nat) (s : State) : State := { s with bound := nerase s.bound n }

/-- Software writes ENABLE = 0 (R139): BUSY reads 1 until REGION_DISABLE_DONE. -/
def regionDisable (n : Nat) (s : State) : State :=
  if rgOn s n = false then s
  else s |> keepBound n |> wfc F.RGN_CTRL.ENABLE 0 n |> wfc F.RGN_CTRL.BUSY 1 n |> cdatRegion n |> unbindRegion n

/-- Everything bound to a disabled region has ended (R139). -/
def disableDone (n : Nat) (s : State) : State :=
  if rgOn s n ∨ rg s F.RGN_CTRL.BUSY n = 0 ∨ regionBusy s n then s
  else s |> dropTables n |> dropPools n |> onlyIf (atTiered (rgAttr s n)) (fun t => framePressure (atHome (rgAttr s n)) (clearSlice n t)) |> each [Die.east, Die.west] (dropShare n) |> dropBound n
    |> wfc F.RGN_CTRL.BUSY 0 n

/-! ### Writes (R136) -/

/-- The fields that software may change while ENABLE = 1. -/
def rgFree : List Fld := [F.RGN_ATTR.HINT, F.RGN_ATTR.PRIO, F.RGN_ATTR.FABRIC_READ, F.RGN_ATTR.FABRIC_WRITE]

/-- A word with the fields given taken from another. -/
def takeFields (fs : List Fld) (old new_ : Nat) : Nat := fs.foldl (fun v f => setFld v f.lo f.w (fld new_ f.lo f.w)) old

/-- The register at an offset of a descriptor. -/
def rgReg (off : Nat) : Option RegName :=
  if off = 0 then some .RGN_RANGE else if off = 4 then some .RGN_ATTR else if off = 8 then some .RGN_PLACE else if off = 12 then some .RGN_MAP else none

/-- A write of one of the four registers that hold a descriptor's fields. -/
def rgField (n v : Nat) (r : RegName) (s : State) : State :=
  let old := rdReg s r .east n
  let want := takeFields (regFields r) old v
  if rgOn s n then
    let s1 := wrReg r .east n (takeFields (if r = .RGN_ATTR then rgFree else []) old v) s
    if takeFields (if r = .RGN_ATTR then rgFree else []) old v = want then s1 else rgRefuse n 10 s1
  else wrReg r .east n want s

/-- A write of RGN_CTRL: REFUSED is cleared by 1, and ENABLE is written. -/
def rgCtrl (n v : Nat) (s : State) : State :=
  let s1 := onlyIf (bitn v 2) (wfc F.RGN_CTRL.REFUSED 0 n) s
  if bitn v 0 then regionEnable n s1 else regionDisable n s1

/-- A write to a descriptor (R136 to R139). -/
def rgWrite (n off v : Nat) (s : State) : State :=
  if 64 ≤ n then s
  else if off = 16 then rgCtrl n v s
  else match rgReg off with
    | some r => rgField n v r s
    | none => s

end Sys2Proof.Machine
end

