-- ==== Sys2Proof/Machine/SecOps.lean ====
section
/-!
DEFINITION. Sys2Proof/Machine/SecOps.lean: key slots and their opcodes (R183 to R188, Table 8.3), rotation (R201 to R203), the DRBG
(R181), the fill of R156, and SANITIZE (R211 to R213). A slot that is destroyed and generated again counts its key epoch from 0
(DEDUCED, log entry 26).
-/

namespace Sys2Proof.Machine

/-! ### Slots -/

/-- Change a key slot. -/
def onSlot (k : Nat) (f : SlotSt → SlotSt) (s : State) : State := { s with slots := nmod s.slots k SlotSt.reset f }

/-- A slot's state as SEC_SLOT_INFO gives it. -/
def slotNum : SlotState → Nat
  | .empty => 0 | .active => 1 | .rotating => 2

/-- The enabled regions that name a slot. -/
def slotRegions (s : State) (k : Nat) : List Nat := (List.range 64).filter (fun n => rgOn s n && atSlot (rgAttr s n) == k)

/-- SEC_SLOT_INFO, SEC_SLOT_DOM and SEC_SLOT_ROT of a slot. -/
def slotInfo (s : State) (k : Nat) : Nat :=
  let x := slotOf s k
  slotNum x.st + 4 * (x.bind % 8) + 32 * (slotRegions s k).length + 65536 * (x.epoch % 65536)
def slotDom (s : State) (k : Nat) : Nat := (slotOf s k).domain % 65536
def slotRot (s : State) (k : Nat) : Nat :=
  let x := slotOf s k
  x.curRegion % 64 + 256 * (x.curBlock / 4096 % 2 ^ 24)

/-- Whether the senior die's DRBG has stopped. -/
def noEntropy (s : State) : Bool := (die s (seniorDie s)).drbgStopped

/-- Generate a slot's keys, with its binding; the source is 0 the image, 1 a ring, 2 a session (R183, R184). -/
def generateSlot (k binding source : Nat) (s : State) : State :=
  let (x, m, s1) := newKeys s
  let d := seniorDie s
  s1 |> onSlot k (fun _ => ⟨.active, fld binding 0 3, fld binding 16 16, 0, x, m, 0, 0, 0, 0⟩)
     |> post d ⟨0x0803, sevInfo, locDie d, [it1 k, it1 source], none, none⟩

/-! ### Rotation (R201 to R203) -/

/-- The first used block of a region from a block on: of a tiered region, of its frames and T1 runs. -/
def usedBlock (s : State) (n k : Nat) : Option Nat :=
  let a := rgAttr s n
  if atTiered a then
    let f0 := rg s F.RGN_PLACE.DPA_G n * 262144
    let fn := rg s F.RGN_PLACE.BACK_GIB n * 262144
    ((tme s (atHome a)).frames.filter (fun p => decide (f0 ≤ p.1) && decide (p.1 < f0 + fn))).findSome? (fun p =>
      ((List.range 16).map (fun j => (j, (p.1 - f0) * 16 + j))).findSome? (fun q =>
        if k ≤ q.2 ∧ (p.2 = 65536 ∨ (q.1 < 15 ∧ bitn p.2 q.1)) then some q.2 else none))
  else if k < rgGib s n * 2 ^ 22 then some k else none

/-- The next block of a slot's walk from a place on: the enabled regions in region order. -/
def rotNext (s : State) (slot region block : Nat) : Option (Nat × Nat) :=
  (slotRegions s slot).findSome? (fun n =>
    if n < region then none else (usedBlock s n (if n = region then block else 0)).map (fun k => (n, k)))

/-- The rotation of a slot has passed its last block. -/
def rotDone (slot : Nat) (s : State) : State :=
  let d := seniorDie s
  s |> onSlot slot (fun x => { x with st := .active, pxts := 0, pmac := 0, curRegion := 0, curBlock := 0 })
    |> post d ⟨0x0804, sevInfo, locDie d, [it1 slot, it1 (slotOf s slot).epoch], none, none⟩

/-- The cursor of a slot comes to a place, or the walk ends. -/
def rotTo (slot region block : Nat) (s : State) : State :=
  match rotNext s slot region block with
  | some (n, k) => onSlot slot (fun x => { x with curRegion := n, curBlock := k }) s
  | none => rotDone slot s

/-- Start the rotation of a slot (R201). -/
def rotStart (slot : Nat) (s : State) : State :=
  let (x, m, s1) := newKeys s
  rotTo slot 0 0 (onSlot slot (fun y =>
    { y with st := .rotating, pxts := y.xts, pmac := y.mac, xts := x, mac := m, epoch := y.epoch + 1, curRegion := 0, curBlock := 0 }) s1)

/-- Whether every read of a block that is older than the rotation's has been answered: what it delivers is under the keys of the block's
position (R202). -/
def blockQuiet (s : State) (d : Die) (h0 : Nat) : Bool :=
  match placeOf s h0 with
  | none => true
  | some (_, i, _) =>
    let b := sub s d i
    let c := chan s d (i / 2)
    let hits := fun (r : Req) => !r.write && decide (h0 ≤ r.home) && decide (r.home < h0 + 4)
    let joined := match c.frozen with
      | some z => z.joined
      | none => []
    !((c.mxin ++ b.rdq ++ b.retryq ++ b.returning ++ joined).any hits)

/-- Whether a sector of a tiered region's backing belongs to a T1 run. -/
def isSector (s : State) (d : Die) (n k : Nat) : Bool :=
  match nget (tme s d).frames (rg s F.RGN_PLACE.DPA_G n * 262144 + k / 16) with
  | some m => m != 65536
  | none => false

/-- The DLA of a line of a flat region, by its place in the region. -/
def flatDla (s : State) (n line : Nat) : Nat := rg s F.RGN_RANGE.BASE n * 2 ^ 30 + 64 * line

/-- The rotation reads the block that it is at on a die: four line reads under tag TME with hint CLOSE (R203). -/
def rotRead (slot : Nat) (r : RotSt) (d : Die) (s : State) : State :=
  let n := r.region
  let a := rgAttr s n
  let id := s.seq + 1
  let o : OpSt := { asker := .nobody, job := .rot slot r.id d (atTiered a && isSector s d n r.block), port := .tme, region := n, attr := a, dla := 0,
                    cmp := .plain, track := none, page := none, want := List.range 4, got := [] }
  each (List.range 4) (fun j t =>
    let q : MemReq := { asker := .nobody, kind := .rdNC, issuer := d, port := .tme, agent := none, metaS := false, region := n, attr := a,
                        dla := if atTiered a then 0 else flatDla t n (4 * r.block + j), data := poisoned, mask := 0, track := none }
    readHome q id j (blockHome t d n r.block + j) (rrmCount d .tme (some d) t)) { s with seq := id, ops := nset s.ops id o }

/-- The rotation writes the block back on a die, re-encrypted: `move` is the cursor's step past the block. A line that was read as poison is
written as poison. -/
def rotWrite (d : Die) (r : RotSt) (move : State → State) (s : State) : State :=
  let n := r.region
  let a := rgAttr s n
  let h0 := blockHome s d n r.block
  let ls := (List.range 4).map (fun j => ngetD r.got (4 * dieNum d + j) poisoned)
  let t := move s
  let count := rrmCount d .tme (some d)
  if atTiered a && isSector s d n r.block then
    let ks := lineKeys s n a h0
    let kn := lineKeys t n a h0
    let out := encSector kn.1 kn.2.2 h0 (decSector ks.1 ks.2.2 h0 (ls.map (·.line)))
    each ls.zipIdx (fun p u => (writeCipher d .tme n a (h0 + p.2) 0 (out.getD p.2 0) p.1.poison .post (count u)).2) t
  else
    each ls.zipIdx (fun p u =>
      (writeLine d .tme n a (h0 + p.2) (if atTiered a then 0 else flatDla u n (4 * r.block + p.2)) p.1 true .post (count u)).2) t

/-- The rotation is at no block of a slot any more: the requests that waited go on. -/
def rotLeave (slot : Nat) (s : State) : State :=
  match nget s.rots slot with
  | none => s
  | some r => each r.waiting (fun q => later (.carry q)) { s with rots := nerase s.rots slot }

/-- The lines of the block that a rotation is at have come: it is written back and the cursor moves past it, on both dies together (R201, R202).
What a move has written meanwhile is read again at the next turn. -/
def rotEnd (slot : Nat) (s : State) : State :=
  match nget s.rots slot with
  | none => s
  | some r =>
    let ds := rgDies (rgAttr s r.region)
    if !r.need.isEmpty then s
    else if r.stale then rotLeave slot s
    else if serving s = false ∨ resting s ∨ !(ds.all (fun d => blockQuiet s d (blockHome s d r.region r.block))) then s
    else
      let past := onSlot slot (fun y => { y with curRegion := r.region, curBlock := r.block + 1 })
      let back := onSlot slot (fun y => { y with curRegion := r.region, curBlock := r.block })
      rotTo slot r.region (r.block + 1) (rotLeave slot (each ds (fun d t => rotWrite d r past (back t)) s))

/-- The rotation of a slot comes to its next block and reads it, of a mirrored region on both dies together, or goes on with the one that it is
at (R202). The rotation is the CIE's, under the TME's tag: its lines keep their data, and it does not consult the directory (DEDUCED, log
entry 125). -/
def rotBlock (slot : Nat) (s : State) : State :=
  let x := slotOf s slot
  if x.st ≠ .rotating ∨ serving s = false ∨ resting s then s
  else if (nget s.rots slot).isSome then rotEnd slot s
  else
    match rotNext s slot x.curRegion x.curBlock with
    | none => rotDone slot s
    | some (n, k) =>
      let ds := rgDies (rgAttr s n)
      let r : RotSt := ⟨s.seq + 1, n, k, ds, [], false, []⟩
      let a := rgAttr s n
      let dla := flatDla s n (4 * k)
      let wait := if atTiered a then none else ds.findSome? (fun d =>
        if belowBad s d n dla then none else (metaNext s d n a (4 * k)).map (fun key => (d, key)))
      if let some x := wait then askNode x.1 x.2 .tme n dla (.rotGo slot) s
      else each ds (rotRead slot r)
        (onSlot slot (fun y => { y with curRegion := n, curBlock := k }) { s with seq := s.seq + 1, rots := nset s.rots slot r })

/-! ### The key opcodes (Table 8.3) -/

/-- The field checks of a key opcode: bytes 9 to 11 and 16 on are zero, and bytes 12 to 15 where the opcode has no binding. -/
def keyFieldsOk (e : Desc) (binds : Bool) : Bool :=
  e.arg == 0 && e.zero 9 3 && e.zero 16 48 && (if binds then fld (e.num 12 4) 3 13 == 0 else e.zero 12 4)

/-- A key opcode but SANITIZE: status, RESULT0, RESULT1 and the state; `source` is 1 a ring, 2 a session. -/
def keyRun (e : Desc) (source : Nat) (s : State) : Nat × Nat × Nat × State :=
  let k := e.num 8 1
  let x := slotOf s k
  let b := e.num 12 4
  let refuse := fun (st : Nat) => (st, 0, 0, s)
  let d := seniorDie s
  if keyFieldsOk e (e.op == 0x60 || e.op == 0x63) = false then refuse 3
  else if e.op = 0x60 then
    if x.st ≠ .empty then refuse 0x40 else if noEntropy s then refuse 0x42 else (0, 0, 0, generateSlot k b source s)
  else if e.op = 0x61 then
    if x.st ≠ .active ∨ 65535 ≤ x.epoch then refuse 0x40
    else if 4 ≤ (s.slots.filter (fun p => p.2.st == .rotating)).length then refuse 0x43
    else if noEntropy s then refuse 0x42 else (0, 0, 0, rotStart k s)
  else if e.op = 0x62 then
    if !(slotRegions s k).isEmpty then refuse 0x41
    else if x.st ≠ .active then refuse 0x40
    else (0, 0, 0, post d ⟨0x0805, sevInfo, locDie d, [it1 k], none, none⟩ { s with slots := nerase s.slots k })
  else if e.op = 0x63 then
    if x.st = .empty then refuse 0x40 else (0, 0, 0, onSlot k (fun y => { y with bind := fld b 0 3, domain := fld b 16 16 }) s)
  else (0, slotInfo s k, slotDom s k + 2 ^ 32 * slotRot s k, s)

/-- A key opcode of a ring. -/
def opKey (d : Die) (e : Desc) (s : State) : State :=
  let (st, r0, r1, t) := keyRun e 1 s
  finishDesc d e st r0 r1 t

/-! ### The fill of R156 -/

/-- The fill's blank writes of block W − 1 enter the write queue, unless the demand table has the block, and W is lowered (R156, R159,
R160). -/
def initFill (d : Die) (i : Nat) (s : State) : State :=
  let b := sub s d i
  let q := b.initW - 1
  if b.initW = 0 ∨ fillRuns s d i = false then s
  else if b.demand.contains q then
    initEnded d s (onSub d i (fun b => { b with initW := q, demand := b.demand.filter (· != q) }) s)
  else if queueRoom s d i (4 * q) 4 = false then s
  else initEnded d s (onSub d i (fun b => { b with initW := q }) (fillBlock d i q s))

/-! ### DRBG (R181) -/

/-- A health test of a die's entropy source fails. -/
def entropyFail (d : Die) (test : Nat) (s : State) : State :=
  if diePresent s d = false ∨ (die s d).drbgStopped then s
  else
    s |> onDie d (fun x => { x with drbgStopped := true }) |> setFlag F.SEC_STATUS.ENTROPY_FAIL .east 0
      |> post d ⟨0x0806, sevUncorrected, locDie d, [it1 (dieNum d), it1 test], none, none⟩

/-! ### SANITIZE (R211 to R213) -/

/-- The enabled regions, or those still being disabled. -/
def boundRegions (s : State) : List Nat := (List.range 64).filter (fun n => rgOn s n || rg s F.RGN_CTRL.BUSY n == 1)

/-- No write-back is awaited any more: host-cached lines are invalidated without it (R212, R238). -/
def noAwait (d : Die) (s : State) : State :=
  each (cdr s d).dir (fun q t =>
    if q.2.tr.any (fun x => x.await != []) then recallAdvance d (advance d q.1 (onTr d q.1 (fun x => { x with await := [] }) t)) else t) s

/-- The device enters SANITIZE: every region is disabled, and the CDR invalidates what hosts hold. -/
def saniEnter (z : SaniSt) (s : State) : State :=
  { s with sani := some z, dev := { s.dev with left := s.dev.mode } } |> setMode .sanitize 8 |> wfc F.SEC_STATUS.SANITIZING 1 0
    |> each (boundRegions s) (fun n t => t |> keepBound n |> wfc F.RGN_CTRL.ENABLE 0 n |> wfc F.RGN_CTRL.BUSY 1 n |> unbindRegion n)
    |> each [Die.east, Die.west] noAwait

/-- Whether a ring of a die has started a key opcode that is not done yet: it completes before the keys are destroyed. -/
def keyUnderWay (s : State) (d : Die) : Bool :=
  (die s d).cpr.sqs.any (fun q => q.2.started.any (fun (e : Desc) => decide (0x60 ≤ e.op) && decide (e.op ≤ 0x63)))

/-- Whether the requests in flight have completed and no agent holds a line. -/
def saniQuiet (s : State) : Bool :=
  (boundRegions s).all (fun n => !(regionBusy s n)) && s.ops.isEmpty && !((diesPresent s).any (keyUnderWay s))

/-- Destroy the keys of a die's memory: versions, MACs and tree roots go with them; with OVERWRITE the watermarks go to Qtop. -/
def saniDie (overwrite : Bool) (d : Die) (s : State) : State :=
  let s1 := onDie d (fun x => { x with lmeta := [], badNodes := [], nodes := [], ctrs := [], macUnits := [], treeUnits := [] }) s
  if overwrite then
    each (List.range 12) (fun i t =>
      if (sub t d i).st = .retired then t
      else onSub d i (fun b => { b with initW := qTop s d, demand := [], cells := [] }) (onlyIf (decide ((sub t d i).st = .spare)) (wakeSub d i) t))
      (wf F.TME_STATUS.INIT_DONE d 0 0 s1)
  else s1

/-- The slot keys and the metadata key are destroyed and a new metadata key is drawn; the regions are off; with PURGE_SECRETS the
flash's secrets go (R212). -/
def saniDestroy (z : SaniSt) (s : State) : State :=
  let stop := noEntropy s
  let ns := boundRegions s
  let s1 := { s with slots := [], metaKey := none, sani := some { z with destroyed := true, entropy := stop } }
  let s2 := if stop then s1 else newMetaKey s1
  s2 |> each ns (fun n t => wfc F.RGN_CTRL.BUSY 0 n (if atTiered (rgAttr t n) then clearSlice n t else t))
     |> onlyIf z.purge (fun t => flashJob (.secrets none []) { t with msx := { t.msx with cak := none },
                                                                      dev := { t.dev with flash := { t.dev.flash with cak := none, certs := [] } } })
     |> each (diesPresent s) (saniDie z.overwrite)

/-- The subchannels of the device in a state. -/
def subsWith (s : State) (p : SubState → Bool) : Nat :=
  ((diesPresent s).map (fun d => ((List.range 12).filter (fun i => p (sub s d i).st)).length)).foldl (· + ·) 0

/-- The 16 bytes of a completion that an SPDM response carries (R208). -/
def respBytes (tag status r0 r1 : Nat) : List Byte := leBytes 2 tag ++ leBytes 1 status ++ leBytes 1 0 ++ leBytes 4 (r0 % 2 ^ 32) ++ leBytes 8 (r1 % 2 ^ 64)

/-- VENDOR_DEFINED_RESPONSE. -/
def vendorResp (port : Die) (body : List Byte) (s : State) : State := send (.spdm port 0x7E 0 0 body) s

/-- SANITIZE is over (Table 8.9): the mode it left, the completion, and 0x0807; after a debug token debug access opens (R210). -/
def saniEnd (z : SaniSt) (s : State) : State :=
  let r0 := if z.overwrite then subsWith s (fun x => x != .retired) else 0
  let r1 := subsWith s (fun x => x == .retired)
  let st := if z.entropy then 0x42 else 0
  let d := seniorDie s
  let s1 := { s with sani := none } |> wfc F.SEC_STATUS.SANITIZING 0 0
    |> each (diesPresent s) (fun o t => each (List.range 12) (fun i u => if (sub u o i).st = .spare then sleepSub o i u else u) t)
    |> setMode (if s.dev.left = .thrift then .thrift else serveMode s) 8
    |> onlyIf z.debug (fun t => wfc F.SEC_POLICY.DEBUG_UNLOCKED 1 0 { t with spdm := { t.spdm with debug := true } })
    |> post d ⟨0x0807, sevInfo, locDie d, [it4 r0, it4 r1], none, none⟩
  let s2 := match z.desc with
    | some (o, sq, seq) => (match startedDesc s1 o sq seq with
      | some e => finishDesc o e st r0 r1 s1
      | none => s1)
    | none => s1
  match z.session with
  | some (p, tag) => vendorResp p (respBytes tag st r0 r1) s2
  | none => s2

/-- SANITIZE goes on when what it waits for is done. -/
def saniAdvance (s : State) : State :=
  match s.sani with
  | none => s
  | some z =>
    if s.dev.mode = .sanitize ∧ z.destroyed = false ∧ saniQuiet s then
      let s1 := saniDestroy z s
      if z.overwrite then s1 else (match s1.sani with
        | some y => saniEnd y s1
        | none => s1)
    else s

/-- Whether every live and SPARE subchannel has been filled. -/
def saniFilled (s : State) : Bool :=
  (diesPresent s).all (fun d => (List.range 12).all (fun i => (sub s d i).st == .retired || (sub s d i).initW == 0))

/-- The overwriting fill has finished (R213). -/
def saniDone (s : State) : State :=
  match s.sani with
  | some z => if s.dev.mode = .sanitize ∧ z.destroyed ∧ z.overwrite ∧ saniFilled s then saniEnd z s else s
  | none => s

/-- The status with which a SANITIZE request is refused, 0 for none. -/
def saniStatus (e : Desc) (s : State) : Nat :=
  if e.arg ≠ 0 ∨ 4 ≤ e.num 8 1 ∨ e.zero 9 55 = false then 3 else if serving s = false ∨ s.dev.trans.isSome then 9 else 0

/-- SANITIZE from a ring. -/
def opSanitize (d : Die) (e : Desc) (s : State) : State :=
  if e.phase ≠ 0 then s
  else
    let st := saniStatus e s
    if st ≠ 0 then finishDesc d e st 0 0 s
    else
      saniEnter ⟨some (d, e.sq, e.seq), none, bitn (e.num 8 1) 0, bitn (e.num 8 1) 1, false, false, false⟩
        (onDesc d e.sq e.seq (fun x => { x with phase := 1 }) s)

end Sys2Proof.Machine
end

