-- ==== Sys2Proof/Machine/RegRead.lean ====
section
/-!
DEFINITION. Sys2Proof/Machine/RegRead.lean: what a read of a register returns (R430, R434, R439, R440): the stored word, or, for the
registers that show state held elsewhere, the value that state gives; and the register at a BAR0 offset.
-/

namespace Sys2Proof.Machine

/-! ### The register at an offset -/

/-- The die and the offset in its window of a BAR0 offset: East for the common window. -/
def winOf (a : Nat) : Die × Nat := if a < 0x400000 then (.east, a) else if a < 0x800000 then (.west, a - 0x400000) else (.east, a)

/-- Whether a register has a copy at an offset of its window, and which. -/
def copyAt (r : RegName) (o : Nat) : Option Nat :=
  let p := regPlace r
  if blockChannel p.block then
    (List.range 6).find? (fun c => blockBase p.block + c * 0x10000 + p.off == o)
  else
    let b := blockBase p.block + p.off
    if o < b then none
    else if p.stride = 0 then (if o = b then some 0 else none)
    else if (o - b) % p.stride = 0 ∧ (o - b) / p.stride < p.count then some ((o - b) / p.stride) else none

/-- The register, its die and its copy at a BAR0 offset (R430). -/
def regAt (a : Nat) : Option (RegName × Die × Nat) :=
  let (d, o) := winOf a
  allRegs.findSome? (fun r => if blockCommon (regPlace r).block = decide (0x800000 ≤ a) then (copyAt r o).map (fun i => (r, d, i)) else none)

/-! ### Registers that show state -/

/-- A signed byte at a place of a word. -/
def tempAt (k : Nat) (r : RankSt) : Nat := sbyte r.temp * 2 ^ (8 * k)

/-- MSC_REF_STATUS's part for a rank. -/
def refPart (k : Nat) (r : RankSt) : Nat := (min r.owed 15 + 16 * b2n r.hot) * 2 ^ (8 * k)

/-- tRFC2 in units of 4 ns by density (R68). -/
def trfcOf (density : Nat) : Nat := if density = 0 then 40 else if density = 3 then 70 else 55

/-- The registers of a channel that show its scheduler's state. -/
def mscView (s : State) (r : RegName) (d : Die) (c : Nat) : Nat :=
  let a := sub s d (2 * c)
  let b := sub s d (2 * c + 1)
  match r with
  | .MSC_REF_STATUS => refPart 0 a.r0 + refPart 1 a.r1 + refPart 2 b.r0 + refPart 3 b.r1
  | .MSC_DRAM_TEMP => tempAt 0 a.r0 + tempAt 1 a.r1 + tempAt 2 b.r0 + tempAt 3 b.r1
  | .MSC_QSTAT => a.rdq.length + 256 * a.wrq.length + 2 ^ 15 * b2n a.writeMode + 2 ^ 16 * b.rdq.length + 2 ^ 24 * b.wrq.length + 2 ^ 31 * b2n b.writeMode
  | _ =>
    let t := binTiming (speedBin s d c)
    t.1 + 256 * t.2.1 + 65536 * t.2.2 + 2 ^ 24 * trfcOf (popDensity s d)

/-- CWU_DEVCNT_DATA and SRU_REMAP_DATA. -/
def devcntView (s : State) (d : Die) (c : Nat) : Nat :=
  let g := fun f => rf s f d c
  ngetD (sub s d (2 * c + g F.CWU_DEVCNT_SEL.SUB)).devcnt (devKey (g F.CWU_DEVCNT_SEL.RANK) (g F.CWU_DEVCNT_SEL.DEV)) 0
def remapView (s : State) (d : Die) (c : Nat) : Nat :=
  let g := fun f => rf s f d c
  match nget (sub s d (2 * c + g F.SRU_REMAP_SEL.SUB)).remap (g F.SRU_REMAP_SEL.ENTRY) with
  | none => 0
  | some e => if g F.SRU_REMAP_SEL.HALF = 0 then fld e.home 0 32 else fld e.home 32 4 + 16 * e.dev + 256 * b2n e.valid

/-- The free sectors held in the sector frames of a die (CMP_STAT_DATA selector 9). -/
def sectorsFree (s : State) (d : Die) : Nat := (((tme s d).frames.filter (fun p => p.2 != 65536)).map (fun p => freeSectors p.2)).foldl (· + ·) 0

/-- The completions of a die that wait on full rings (CPR_COUNT selector 4). -/
def compsWaiting (s : State) (d : Die) : Nat := (((die s d).cpr.cqs.filter (fun p => cqFull s d p.1)).map (fun p => p.2.waiting.length)).foldl (· + ·) 0

/-- The count that a SEL and DATA pair shows: some selectors are present values. -/
def countView (s : State) (d : Die) (b : RegBlock) (sel : Nat) : Nat :=
  match b, sel with
  | .CMP, 9 => sectorsFree s d
  | .CDR, 8 => (cdr s d).dir.length
  | .CDR, 9 => ((cdr s d).dir.filter (fun p => p.2.x)).length
  | .HPC, 1 => ((die s d).hpc.retrains.filter (fun t => decide (s.nowNs < t + rf s F.HPC_LADDER_CFG.WINDOW_MS d 0 * 1000000))).length
  | .CPR, 4 => compsWaiting s d
  | _, _ => countOf s d b sel

/-- The peer context that FPC_PEER_SEL shows. -/
def peerView (s : State) (r : RegName) (d : Die) : Nat :=
  let c := ctx s d (rf s F.FPC_PEER_SEL.NODE d 0)
  match r with
  | .FPC_PEER_MAC_LO => fld c.mac 0 32
  | .FPC_PEER_CTRL => fld c.mac 32 16 + 2 ^ 16 * b2n c.en + 2 ^ 17 * (c.port % 2) + 2 ^ 18 * b2n c.big + 2 ^ 20 * ctxStateNum c.st + 2 ^ 24 * (c.session % 16)
  | _ => min c.reqs.length 65535 + 65536 * min c.retx 65535

/-- The table that LKE_TBL_SEL shows. -/
def tableView (s : State) (r : RegName) (d : Die) : Nat :=
  match tblOf s (rf s F.LKE_TBL_SEL.TABLE d 0) with
  | none => 0
  | some t =>
    match r with
    | .LKE_TBL_INFO => tblInfo t
    | .LKE_TBL_BASE => fld t.base 21 22
    | .LKE_TBL_SIZE => t.size / 2 ^ 21
    | .LKE_TBL_PUB => t.pub % 65536 + 65536 * min t.log.entries 65535
    | _ => t.keys % 2 ^ 32

/-- The pool and the queue that QUE_POOL_SEL and QUE_Q_SEL show. -/
def poolView (s : State) (r : RegName) (d : Die) : Nat :=
  match poolOf s d (rf s F.QUE_POOL_SEL.POOL d 0) with
  | none => 0
  | some p =>
    match r with
    | .QUE_POOL_INFO => 1 + 2 * p.region + 128 * b2n (decide (p.free < p.low)) + 256 * (p.cells / 8192)
    | .QUE_POOL_BASE => fld p.base 21 22
    | _ => min p.free 0xFFFFFFFF
def queueView (s : State) (r : RegName) (d : Die) : Nat :=
  let q := ngetD (die s d).queues (rf s F.QUE_Q_SEL.QUEUE d 0) QueueSt.reset
  match r with
  | .QUE_Q_INFO => queueStateNum q.st + 4 * q.pool
  | .QUE_Q_DEPTH => q.cells
  | .QUE_Q_THRESH => q.thresh
  | _ => q.drops

/-- CKS_BAND_DATA of a synthesizer. -/
def bandView (s : State) (d : Die) (m : Nat) : Nat :=
  match nget (synth s d m).bands (rf s F.CKS_BAND_SEL.SLOT d m) with
  | none => 0
  | some b => 1 + 2 * (b.pfd % 4) + 256 * (b.n % 256) + 65536 * (b.band % 64) + 2 ^ 24 * sbyte b.temp

/-- EVT_FRZ_INFO and EVT_PERM_DATA. -/
def frzInfoView (s : State) (d : Die) : Nat :=
  match nget (die s d).frz (rf s F.EVT_FRZ_SEL.SLOT d 0) with
  | none => 0
  | some r => 1 + 2 * b2n r.held + 4 * r.chan + 32 * r.cause + 256 * (r.seq % 2 ^ 24)
def permView (s : State) (d : Die) : Nat :=
  let i := rf s F.EVT_PERM_SEL.SUB d 0
  let b := sub s d i
  min (permWindow s d i) 255 + 256 * b2n b.permanent + 65536 * min b.permTotal 65535

/-- PMC_TJ_SUM: TJ_MAX and its sensor as stored, and the hottest rank (R420). -/
def tjSumView (s : State) (d : Die) : Nat :=
  let x := dramMax s d
  rdReg s .PMC_TJ_SUM d 0 % 2 ^ 16 + 2 ^ 16 * sbyte x.temp + 2 ^ 24 * x.chan + 2 ^ 27 * x.subB + 2 ^ 28 * x.rank

/-- Whether a cleanup runs on a die, and whether a FLUSH does. -/
def cleaning (s : State) (d : Die) : Bool := s.tables.any (fun p => p.2.cleanup && tblHome s p.2 == d)
def flushing (s : State) (d : Die) : Bool := (die s d).cpr.sqs.any (fun p => p.2.started.any (fun (e : Desc) => e.op == 0x3D && e.phase == 1))

/-- The watermark that TME_INIT_SEL shows. -/
def initView (s : State) (d : Die) : Nat :=
  let b := sub s d (rf s F.TME_INIT_SEL.SUB d 0)
  b.initW % 2 ^ 30 + 2 ^ 31 * b2n (decide (1024 ≤ b.demand.length))

/-- A shadow bank entry (Table 18.2), low or high half. -/
def shadowView (s : State) (d : Die) (i lo : Nat) : Nat := fld (ngetD (die s d).pmc.shadow i 0) lo 32

/-- DEV_ID.PART, DEV_CAP and IDENT_UNITS of a part (Table 20.5). -/
def partId : Part → Nat
  | .km1624 => 0x1624 | .km1622 => 0x1622 | .km1612 => 0x1612 | .km1602 => 0x1602
def partCap : Part → Nat
  | .km1624 => 0x1807FC | .km1622 => 0x18067D | .km1612 => 0x0C05AA | .km1602 => 0x0C040B
def partUnits : Part → Nat
  | .km1624 => 0x3F3FFF | .km1622 => 0x3F39FF | .km1612 => 0x3F3FFB | .km1602 => 0x3F39F9

/-- What the silicon of a die fixes: its stepping and its 64-bit identifier. -/
def stepping (d : Die) : Nat := (Config.silicon (2 * dieNum d)).toNat % 256
def dieUid (d : Die) : Nat := (Config.silicon (2 * dieNum d + 1)).toNat

/-- The IDENT block of a present die. -/
def identView (s : State) (r : RegName) (d : Die) : Nat :=
  match r with
  | .IDENT_DIE => 1 + 2 * dieNum d + 256 * stepping d + 65536 * 0x4B16
  | .IDENT_UNITS => partUnits s.dev.part
  | .IDENT_UID_LO => fld (dieUid d) 0 32
  | _ => fld (dieUid d) 32 32

/-- The value of a register of a present and reachable unit. -/
def regView (s : State) (r : RegName) (d : Die) (i : Nat) : Nat :=
  let stored := rdReg s r d i
  match r with
  | .MSC_REF_STATUS | .MSC_DRAM_TEMP | .MSC_QSTAT | .MSC_TIMING => mscView s r d i
  | .CWU_DEVCNT_DATA => devcntView s d i
  | .SRU_REMAP_DATA => remapView s d i
  | .RRM_COUNT_DATA => countView s d .RRM (rf s F.RRM_COUNT_SEL.SEL d 0)
  | .CDR_STAT_DATA => countView s d .CDR (rf s F.CDR_STAT_SEL.SEL d 0)
  | .CMP_STAT_DATA => countView s d .CMP (rf s F.CMP_STAT_SEL.SEL d 0)
  | .HPC_COUNT_DATA => countView s d .HPC (rf s F.HPC_COUNT_SEL.SEL d 0)
  | .FPC_COUNT_DATA => countView s d .FPC (rf s F.FPC_COUNT_SEL.SEL d 0)
  | .CPR_COUNT_DATA => countView s d .CPR (rf s F.CPR_COUNT_SEL.SEL d 0)
  | .LKE_COUNT_DATA => countView s d .LKE (rf s F.LKE_COUNT_SEL.SEL d 0)
  | .QUE_COUNT_DATA => countView s d .QUE (rf s F.QUE_COUNT_SEL.SEL d 0)
  | .CMP_STATUS => setFld stored 8 7 (tme s d).opened.length
  | .TME_FREE_FRAMES => freeFrames s d
  | .TME_INIT_DATA => initView s d
  | .SEC_STATUS => setFld stored 2 1 (b2n (s.spdm.sessions.any (fun p => p.2.open_)))
  | .SEC_SLOT_INFO => slotInfo s (rfc s F.SEC_SLOT_SEL.SLOT)
  | .SEC_SLOT_DOM => slotDom s (rfc s F.SEC_SLOT_SEL.SLOT)
  | .SEC_SLOT_ROT => slotRot s (rfc s F.SEC_SLOT_SEL.SLOT)
  | .FPC_PEER_MAC_LO | .FPC_PEER_CTRL | .FPC_PEER_STAT => peerView s r d
  | .FPC_LINK_STATUS => setFld stored 16 12 ((die s d).fpc.ctxs.filter (fun p => p.2.st == .up)).length
  | .LKE_STATUS => setFld stored 8 1 (b2n (cleaning s d))
  | .LKE_TBL_INFO | .LKE_TBL_BASE | .LKE_TBL_SIZE | .LKE_TBL_PUB | .LKE_TBL_KEYS => tableView s r d
  | .QUE_STATUS => setFld stored 8 1 (b2n (flushing s d))
  | .QUE_POOL_INFO | .QUE_POOL_BASE | .QUE_POOL_FREE => poolView s r d
  | .QUE_Q_INFO | .QUE_Q_DEPTH | .QUE_Q_THRESH | .QUE_Q_DROPS => queueView s r d
  | .CKS_BAND_DATA => bandView s d i
  | .CKS_PLAN => if isM i then setFld (setFld stored 0 8 (planN s d i 0)) 8 8 (planN s d i 1) else stored
  | .EVT_FRZ_INFO => frzInfoView s d
  | .EVT_PERM_DATA => permView s d
  | .PMC_CYC_LO => fld (die s d).cyc 0 32
  | .PMC_CYC_HI => (die s d).pmc.cycLatch
  | .PMC_CNT_CFG => ctrCfg s d i
  | .PMC_CNT_LO => fld (ngetD (die s d).pmc.cnt i 0) 0 32
  | .PMC_CNT_HI => ngetD (die s d).pmc.latch i 0
  | .PMC_SHD_LO => shadowView s d i 0
  | .PMC_SHD_HI => shadowView s d i 32
  | .PMC_TJ_SUM => tjSumView s d
  | .RRM_RGN_RANGE => rdReg s .RGN_RANGE .east i
  | .RRM_RGN_ATTR => rdReg s .RGN_ATTR .east i
  | .RRM_RGN_PLACE => rdReg s .RGN_PLACE .east i
  | .RRM_RGN_MAP => rdReg s .RGN_MAP .east i
  | .RRM_RGN_CTRL => rdReg s .RGN_CTRL .east i % 4
  | .IDENT_DIE | .IDENT_UNITS | .IDENT_UID_LO | .IDENT_UID_HI => identView s r d
  | .DEV_ID => partId s.dev.part + 65536 * stepping (seniorDie s)
  | .DEV_CAP => partCap s.dev.part
  | _ => stored

/-- What a read at a BAR0 offset returns: the CXL registers of an HPC block where they stand (R248); zero where there is nothing (R430, R439), all ones where the die is unreachable (R440). -/
def readWord (s : State) (a : Nat) : Word :=
  match regAt a with
  | none =>
    let (d, o) := winOf a
    if decide (0x800000 ≤ a) || !(diePresent s d) then 0
    else if unreachable s d then BitVec.allOnes 32
    else if decide (o < blockBase .HPC) || decide (blockBase .HPC + 0x10000 ≤ o) then 0
    else BitVec.ofNat 32 (cxlWord s d (o - blockBase .HPC))
  | some (r, d, i) =>
    let b := (regPlace r).block
    if blockAbsent s b d then 0
    else if !(blockCommon b) && unreachable s d then BitVec.allOnes 32
    else BitVec.ofNat 32 (regView s r d i)

/-- What a read of a size at a BAR0 offset returns (R249): a smaller one bytes of the containing word, one of 8 bytes two words, low first. -/
def readBar (s : State) (a size : Nat) : Nat :=
  if size < 4 then fld (readWord s (a / 4 * 4)).toNat (8 * (a % 4)) (8 * size)
  else if size = 4 then (readWord s a).toNat
  else (readWord s a).toNat + 2 ^ 32 * (readWord s (a + 4)).toNat

end Sys2Proof.Machine
end

