-- ==== Sys2Proof/Machine/PmcOps.lean ====
section
/-!
DEFINITION. Sys2Proof/Machine/PmcOps.lean: the opcodes of the counters (R418): PMC_SNAPSHOT and PMC_TELEMETRY.
-/

namespace Sys2Proof.Machine

/-- The destination of a PMC descriptor. -/
def pmcDst (e : Desc) : Place := ⟨bitn (e.num 8 1) 0, e.num 16 8⟩

/-- The status of a PMC descriptor's checks: domain, fields, range. -/
def pmcCheck (d : Die) (e : Desc) (len : Nat) (s : State) : Nat × State :=
  let (ok, s1) := placeDomain d e.sq (pmcDst e) s
  if ok = false then (6, s1)
  else if e.arg ≠ 0 ∨ 2 ≤ e.num 8 1 ∨ e.zero 9 7 = false ∨ e.zero 24 40 = false then (3, s1)
  else (placeStatus s1 (pmcDst e) len true, s1)

/-- PMC_SNAPSHOT: a snapshot is requested, and when it has been taken Table 18.2 is written (R414, R418). -/
def opSnapshot (d : Die) (e : Desc) (s : State) : State :=
  if e.phase = 0 then
    let (st, s1) := pmcCheck d e 1056 s
    if st ≠ 0 then finishDesc d e st 0 0 s1 else requestSnap (onDesc d e.sq e.seq (fun x => { x with phase := 1 }) s1)
  else if s.snapTarget.isSome then s
  else
    finishDesc d e 0 (rfc s F.CTRG_STATUS.SEQ) (ngetD s.east.pmc.shadow 64 0)
      (putAt d e .cpr (pmcDst e) (snapBytes s .east ++ snapBytes s .west) s)

/-- The 64 bytes of a die's telemetry: PMC offsets 0x0100 to 0x013F. -/
def telemetryDie (s : State) (d : Die) : List Byte :=
  (List.range 16).flatMap (fun k => leBytes 4 (readWord s (windowBase d + blockBase .PMC + 0x100 + 4 * k)).toNat)

/-- The highest TJ_MAX of the device. -/
def tjHighest (s : State) : Int :=
  (diesPresent s).foldl (fun m d => max m (unsbyte (rf s F.PMC_TJ_SUM.TJ_MAX d 0))) (unsbyte (rf s F.PMC_TJ_SUM.TJ_MAX .east 0))

/-- PMC_TELEMETRY (R418). -/
def opTelemetry (d : Die) (e : Desc) (s : State) : State :=
  let (st, s1) := pmcCheck d e 128 s
  if st ≠ 0 then finishDesc d e st 0 0 s1
  else finishDesc d e 0 (sbyte (tjHighest s1)) 0 (putAt d e .cpr (pmcDst e) (telemetryDie s1 .east ++ telemetryDie s1 .west) s1)

end Sys2Proof.Machine
end

