-- ==== Sys2Proof/Machine/Settle.lean ====
section
/-!
DEFINITION. Sys2Proof/Machine/Settle.lean: the end of a step: what the step has left to be done is done, in order (`Todo`), and a SANITIZE
or a salvage that waits for it goes on.
-/

namespace Sys2Proof.Machine

/-- The answer of a peer, or of the loss of it, reaches whoever waits (R277, R281). -/
def peerTold (w : Waiter) (status : Nat) (ls : List LineData) (node : Nat) (s : State) : State :=
  match w with
  | .op n => t2Answer n status node ls s
  | .move d k => movePeer d k status ls s
  | .desc d sq seq off => remAnswered d sq seq off status ls s
  | .enq d sq seq => enqAnswered d sq seq status s

/-- One piece of work. -/
def doTodo (t : Todo) (s : State) : State :=
  match t with
  | .line d key => lineEvent d key s
  | .served id => serveDone id s
  | .carry r => carry r s
  | .present r => present r s
  | .takeIn d r => takeIn d r s
  | .desc d sq seq => updateEvent d sq seq (descEvent d sq seq s)
  | .peer w status ls node => peerTold w status ls node s
  | .enq p => packetArrive p s
  | .work d id => workEvent d id s
  | .moved d k id => moveRead d k id s
  | .merged n => merged n s
  | .sector n => sectorNext n s
  | .rotated k => rotEnd k s
  | .coreBack d => coreBack d s
  | .job d id => jobGo d id s
  | .other d n k heal r => otherGo d n k heal r s
  | .rotGo slot => rotBlock slot s
  | .loaded n => opLoaded n s
  | .sweep d n dla => sweepVisit d n dla s
  | .expire d n dla => promoteExpire d n dla s
  | .query d sq seq => queryGo d sq seq s
  | .freeRun d sect k => freeRun d sect k s

/-- Do what is left, oldest first, as often as `fuel` allows; nothing is left after that (log entry 31). -/
def drain : Nat → State → State
  | 0, s => { s with todo := [] }
  | fuel + 1, s =>
    match s.todo with
    | [] => s
    | t :: ts => drain fuel (doTodo t { s with todo := ts })

/-- The pages of the tiered regions homed on a die. -/
def tieredPages (s : State) (d : Die) : Nat := ((tieredOn s d).map (fun n => (sliceOf s n).2)).foldl (· + ·) 0

/-- Whether the staging target takes the map slices of a die: 16 B for a page (R155). KIND = 1 needs another die that serves
memory. -/
def stageFits (s : State) (d : Die) : Bool :=
  let o := otherDie d
  match rf s F.TME_STAGE_CFG.KIND d 0 with
  | 1 => diePresent s o && !(memGone s o) &&
         decide (rf s F.TME_STAGE_CFG.DPA_G d 0 * 2 ^ 24 + (tieredPages s d + 3) / 4 ≤ freeTop s o)
  | 2 => true
  | _ => false

/-- An entry as the staged copy has it: one in T0 or T1 is LOST (R155). -/
def PageEnt.staged (e : PageEnt) : PageEnt :=
  if e.tier = tT0 ∨ e.tier = tT1 then { e with tier := tLost, moving := false, cls := 0, node := 0, place := 0 } else e

/-- The entries of the four places of line x of a staged copy whose runs are given. -/
def stageKeys (runs : List (Nat × Nat)) (x : Nat) : List (Option Nat) :=
  (List.range 4).map (fun j => (runs.foldl (fun (o : Option Nat × Nat) r =>
    (if o.1.isNone ∧ o.2 ≤ 4 * x + j ∧ 4 * x + j < o.2 + r.2 then some (r.1 + (4 * x + j - o.2)) else o.1, o.2 + r.2)) (none, 0)).1)

/-- The line of a staged copy that an entry lies in. -/
def stageLine (runs : List (Nat × Nat)) (key : Nat) : Option Nat :=
  (runs.foldl (fun (o : Option Nat × Nat) r =>
    (if o.1.isNone ∧ r.1 ≤ key ∧ key < r.1 + r.2 then some ((o.2 + (key - r.1)) / 4) else o.1, o.2 + r.2)) (none, 0)).1

/-- The tag of a line of a staged copy: the CMAC under the metadata key over its ciphertext and its number (R155; DESIGN CHOICE, log entry 134). -/
def stageTag (s : State) (x : Nat) (c : Line) : Nat := cmacTop 8 (metaKeys s).2 (lineBytes c ++ leBytes 8 x)

/-- The home line index that the tweak of a line of a staged copy takes: of a host buffer its number (log entry 134). -/
def stageHome (d : Die) (p : StageCopy) (x : Nat) : Nat := if p.host then x else dieNum (otherDie d) * 2 ^ 35 + p.base + x

/-- Write line x of a die's staged copy to its target: encrypted and authenticated under the internal metadata key. -/
def stageOne (d : Die) (x : Nat) (q : StageCopy × State) : StageCopy × State :=
  let p := q.1
  let s := q.2
  let es := (stageKeys p.runs x).flatMap (fun k => leBytes 16 (pageBits ((k.map (fun key => (ngetD (tme s d).pages key (pageUnlisted (tme s d) key)).staged)).getD PageEnt.blank)))
  let h := stageHome d p x
  let c := encMeta s h (lineOf es)
  let p1 := { p with tags := nset p.tags x (stageTag s x c) }
  if p.host then ({ p1 with sent := nset p.sent x c }, send (.hostWrite d (p.base + 64 * x) (lineBytes c) false) s)
  else match placeOf s h with
    | none => (p1, s)
    | some (o, i, loc) => (p1, submit o (mkWrite .tme i loc h (classOf s o i .tme 0) true 0xFF 0 c false .post) (crossings d o s))

/-- Copy a die's map slices to its staging target: the lines of them that hold an entry other than a blank one; the others are blank
(DESIGN CHOICE, log entry 134). -/
def stageMap (d : Die) (s : State) : StageCopy × State :=
  let host := rf s F.TME_STAGE_CFG.KIND d 0 == 2
  let p : StageCopy := { host := host, runs := (tieredOn s d).map (sliceOf s), tags := [], sent := [],
                         base := if host then rf s F.TME_STAGE_HOST_LO.ADDR d 0 * 4096 + rf s F.TME_STAGE_HOST_HI.ADDR d 0 * 2 ^ 32
                                 else rf s F.TME_STAGE_CFG.DPA_G d 0 * 2 ^ 24 }
  let xs := ((tme s d).pages.filterMap (fun e => stageLine p.runs e.1)).eraseDups
  xs.foldl (fun q x => stageOne d x q) (p, s)

/-- Salvage's work of the TME (R155): the moves of the die are aborted, and once the drains are over its map slices are copied to the staging
target, where there is one that takes them. -/
def salvageMoves (d : Die) (s : State) : State :=
  if (die s d).sru.salvage.isNone then s
  else
    let s1 := each ((tme s d).moves.filter (fun p => !p.2.committed)) (fun p => abortMove d p.1) s
    if (tme s1 d).moves.isEmpty ∧ (tme s1 d).staged.isNone then
      if stageFits s1 d then
        let (p, s2) := stageMap d s1
        onTme d (fun t => { t with staged := some (some p) }) s2
      else onTme d (fun t => { t with staged := some none }) s1
    else s1

/-- The fuel of a step's end: far above what any step leaves (a range of 16 MiB is 2^18 lines, each a few pieces of work). -/
def drainFuel : Nat := 2 ^ 24

/-- The end of a step. -/
def settle (s : State) : State :=
  let go := drain drainFuel
  go (saniAdvance (go (each [Die.east, Die.west] salvageMoves (go s))))

end Sys2Proof.Machine
end

