-- ==== Sys2Proof/Machine/FabCmds.lean ====
section
/-!
DEFINITION. Sys2Proof/Machine/FabCmds.lean: the commands of the fabric ports (chapter 11): frames that arrive, timers, the Ethernet link,
MACsec, the registers of peer contexts, and injections.
-/

namespace Sys2Proof.Machine

/-! ### Frames -/

/-- A frame comes to FX-in while the core is on the bypass: where the crossing can take it, which the spec leaves open, it is held, else it is
discarded and counted (R361). -/
def fxHold (d : Die) (f : Frame) (sciOk macBad : Bool) (s : State) : State :=
  let (v, s1) := takeFree s
  if v.toNat % 2 = 0 then onFpc d (fun x => { x with fxin := x.fxin ++ [(f, sciOk, macBad)] }) s1 else addCount d .FPC 5 1 s1

/-- A frame of an operation arrives (R265 to R267, Table 11.3). -/
def rxOp (d : Die) (op : Nat) (f : Frame) (sciOk macBad : Bool) (s : State) : State :=
  if coreBypass s d then fxHold d { f with op := op } sciOk macBad s else settle (rxFrame d { f with op := op } sciOk macBad s)

/-- READ_REQ (R275). -/
def execReadReq (d : Die) (f : Frame) (sciOk macBad : Bool) (s : State) : Host.Outcome State Fault Refusal :=
  .next (rxOp d 0x01 f sciOk macBad s)

/-- READ_RESP (R277). -/
def execReadResp (d : Die) (f : Frame) (sciOk macBad : Bool) (s : State) : Host.Outcome State Fault Refusal :=
  .next (rxOp d 0x02 f sciOk macBad s)

/-- WRITE_REQ (R275). -/
def execWriteReq (d : Die) (f : Frame) (sciOk macBad : Bool) (s : State) : Host.Outcome State Fault Refusal :=
  .next (rxOp d 0x03 f sciOk macBad s)

/-- WRITE_RESP (R277). -/
def execWriteResp (d : Die) (f : Frame) (sciOk macBad : Bool) (s : State) : Host.Outcome State Fault Refusal :=
  .next (rxOp d 0x04 f sciOk macBad s)

/-- ENQ_REQ (R343). -/
def execEnqReq (d : Die) (f : Frame) (sciOk macBad : Bool) (s : State) : Host.Outcome State Fault Refusal :=
  .next (rxOp d 0x05 f sciOk macBad s)

/-- ENQ_RESP (R342). -/
def execEnqResp (d : Die) (f : Frame) (sciOk macBad : Bool) (s : State) : Host.Outcome State Fault Refusal :=
  .next (rxOp d 0x06 f sciOk macBad s)

/-- T2_PUT (R275). -/
def execT2Put (d : Die) (f : Frame) (sciOk macBad : Bool) (s : State) : Host.Outcome State Fault Refusal :=
  .next (rxOp d 0x07 f sciOk macBad s)

/-- T2_PUT_RESP (R275). -/
def execT2PutResp (d : Die) (f : Frame) (sciOk macBad : Bool) (s : State) : Host.Outcome State Fault Refusal :=
  .next (rxOp d 0x08 f sciOk macBad s)

/-- T2_GET (R275). -/
def execT2Get (d : Die) (f : Frame) (sciOk macBad : Bool) (s : State) : Host.Outcome State Fault Refusal :=
  .next (rxOp d 0x09 f sciOk macBad s)

/-- T2_GET_RESP (R153). -/
def execT2GetResp (d : Die) (f : Frame) (sciOk macBad : Bool) (s : State) : Host.Outcome State Fault Refusal :=
  .next (rxOp d 0x0A f sciOk macBad s)

/-- ACK (R272). -/
def execAck (d : Die) (f : Frame) (sciOk macBad : Bool) (s : State) : Host.Outcome State Fault Refusal :=
  .next (rxOp d 0x00 f sciOk macBad s)

/-- HELLO (R273). -/
def execHello (d : Die) (f : Frame) (sciOk macBad : Bool) (s : State) : Host.Outcome State Fault Refusal :=
  .next (rxOp d 0x0C f sciOk macBad s)

/-- HELLO_ACK (R273). -/
def execHelloAck (d : Die) (f : Frame) (sciOk macBad : Bool) (s : State) : Host.Outcome State Fault Refusal :=
  .next (rxOp d 0x0D f sciOk macBad s)

/-- HEARTBEAT (R274). -/
def execHeartbeat (d : Die) (f : Frame) (sciOk macBad : Bool) (s : State) : Host.Outcome State Fault Refusal :=
  .next (rxOp d 0x0E f sciOk macBad s)

/-! ### Timers -/

/-- RETRANSMIT_TIMEOUT (R272), of the context of a node. -/
def execRetransmitTimeout (d : Die) (node : Nat) (s : State) : Host.Outcome State Fault Refusal := .next (settle (retransmitTimeout d node s))

/-- ACK_DELAY_EXPIRE (R272), of the context of a node. -/
def execAckDelayExpire (d : Die) (node : Nat) (s : State) : Host.Outcome State Fault Refusal := .next (settle (ackDelay d node s))

/-- HELLO_TIMER (R273), of the context of a node. -/
def execHelloTimer (d : Die) (node : Nat) (s : State) : Host.Outcome State Fault Refusal := .next (settle (helloTimer d node s))

/-- HEARTBEAT_SEND (R274), of the context of a node. -/
def execHeartbeatSend (d : Die) (node : Nat) (s : State) : Host.Outcome State Fault Refusal := .next (settle (heartbeatSend d node s))

/-- PEER_SILENCE (R278), of the context of a node. -/
def execPeerSilence (d : Die) (node : Nat) (s : State) : Host.Outcome State Fault Refusal := .next (settle (peerSilence d node s))

/-- PROBE_TIMER (R280), of the context of a node. -/
def execProbeTimer (d : Die) (node : Nat) (s : State) : Host.Outcome State Fault Refusal := .next (settle (probeTimer d node s))

/-! ### The Ethernet link and MACsec -/

/-- ETH_LINK_DOWN (R278, R371). -/
def execEthLinkDown (d : Die) (s : State) : Host.Outcome State Fault Refusal := .next (settle (ethDown d s))

/-- ETH_LINK_UP. -/
def execEthLinkUp (d : Die) (s : State) : Host.Outcome State Fault Refusal := .next (settle (ethUp d s))

/-- FREF_LOST (R450): the loss of FREFn takes the Ethernet link of fabric port n down. -/
def execFrefLost (d : Die) (s : State) : Host.Outcome State Fault Refusal := .next (settle (ethDown d s))

/-- The secure channel of a port with a peer is lost (R205, R278). -/
def scLost (d : Die) (node : Nat) (s : State) : State :=
  if fabPresent s d = false ∨ !((die s d).fpc.channels.contains node) then s
  else onFpc d (fun x => { x with channels := x.channels.filter (· != node) }) (unreach d node 3 s)

/-- MACSEC_SC_LOST (R278). -/
def execMacsecScLost (d : Die) (node : Nat) (s : State) : Host.Outcome State Fault Refusal := .next (settle (scLost d node s))

/-- A SAK that MKA has distributed is installed: it is the next of its port, and no frame has been sent under it (R205). -/
def newSak (d : Die) (s : State) : State :=
  setFlag F.FPC_LINK_STATUS.SECURE d 0 (nextSak d s)

/-- An EAPOL frame goes to the senior die's management core (R265). With a CAK installed MKA proceeds; `joined` is whether this frame
ends an exchange that gives the port a SAK and a secure channel with the node. -/
def mkaFrame (d : Die) (node : Nat) (joined : Bool) (s : State) : State :=
  if fabPresent s d = false ∨ rfb s F.FPC_PORT_CFG.EN d 0 = false ∨ rfb s F.FPC_LINK_STATUS.UP d 0 = false ∨ joined = false
      ∨ s.msx.cak = none then s
  else newSak d (onFpc d (fun x => { x with channels := if x.channels.contains node then x.channels else x.channels ++ [node] }) s)

/-- MKA_FRAME (R265). -/
def execMkaFrame (d : Die) (node : Nat) (joined : Bool) (s : State) : Host.Outcome State Fault Refusal := .next (mkaFrame d node joined s)

/-- SAK_REKEY (R205): the SAK of a secure port is replaced. -/
def execSakRekey (d : Die) (s : State) : Host.Outcome State Fault Refusal :=
  .next (if rfb s F.FPC_LINK_STATUS.SECURE d 0 then newSak d s else s)

/-! ### Registers of contexts (R269, R270, R280) -/

/-- A write of FPC_PEER_MAC_LO, ignored while EN = 1. -/
def peerMacWrite (d : Die) (v : Nat) (s : State) : State :=
  let node := rf s F.FPC_PEER_SEL.NODE d 0
  if (ctx s d node).en then s else onCtx d node (fun c => { c with mac := setFld c.mac 0 32 v }) s

/-- A write of FPC_PEER_CTRL: the settings while EN = 0, then EN, then RESET of a context that was enabled. -/
def peerCtrlWrite (d : Die) (v : Nat) (s : State) : State :=
  let node := rf s F.FPC_PEER_SEL.NODE d 0
  let c := ctx s d node
  let on := bitn v 16
  if c.en then
    (if on = false then peerDisable d node s else if bitn v 19 then peerReset d node s else s)
  else
    let mac := setFld c.mac 32 16 (fld v 0 16)
    let s1 := onCtx d node (fun c => { c with mac := mac, port := fld v 17 1, big := bitn v 18 }) s
    if on then peerEnable d node mac (fld v 17 1) (bitn v 18) s1 else s1

/-- PEER_ENABLE (R273): FPC_PEER_CTRL is written with EN = 1, for the context that FPC_PEER_SEL names. -/
def execPeerEnable (d : Die) (value : Word) (s : State) : Host.Outcome State Fault Refusal :=
  .next (settle (barWrite .FPC d (peerCtrlWrite d (setFld (setFld value.toNat 16 1 1) 19 1 0)) s))

/-- PEER_DISABLE (R280): FPC_PEER_CTRL is written with EN = 0. -/
def execPeerDisable (d : Die) (value : Word) (s : State) : Host.Outcome State Fault Refusal :=
  .next (settle (barWrite .FPC d (peerCtrlWrite d (setFld (setFld value.toNat 16 1 0) 19 1 0)) s))

/-- PEER_CTRL_RESET (R280): FPC_PEER_CTRL is written with EN = 1 and RESET = 1. -/
def execPeerCtrlReset (d : Die) (value : Word) (s : State) : Host.Outcome State Fault Refusal :=
  .next (settle (barWrite .FPC d (peerCtrlWrite d (setFld (setFld value.toNat 16 1 1) 19 1 1)) s))

/-- NODE_WRITE (R269, R433): FPC_NODE is written through the window of a die. -/
def execNodeWrite (d : Die) (value : Word) (s : State) : Host.Outcome State Fault Refusal :=
  .next (barWrite .FPC d (sharedWrite .FPC_NODE d value.toNat) s)

/-! ### Injection (R283) -/

/-- Arm a frame injection with the settings of FPC_INJ_CTRL. -/
def fpcArm (d : Die) (v : Nat) (s : State) : State :=
  s |> putFields [F.FPC_INJ_CTRL.MODE, F.FPC_INJ_CTRL.KIND, F.FPC_INJ_CTRL.DIR, F.FPC_INJ_CTRL.RATE, F.FPC_INJ_CTRL.DELAY_US] d 0 v
    |> wf F.FPC_INJ_CTRL.ARMED d 0 1 |> wf F.FPC_INJ_COUNT.COUNT d 0 0 |> onFpc d (fun x => { x with injSeen := 0 })

/-- FPC_INJ_ARM. -/
def execFpcInjArm (d : Die) (value : Word) (s : State) : Host.Outcome State Fault Refusal := .next (barWrite .FPC d (fpcArm d value.toNat) s)

/-- FPC_INJ_DISARM: a frame that is held stays held until its time. -/
def execFpcInjDisarm (d : Die) (s : State) : Host.Outcome State Fault Refusal := .next (barWrite .FPC d (wf F.FPC_INJ_CTRL.ARMED d 0 0) s)

/-- REORDER_HOLD_EXPIRE. -/
def execReorderHoldExpire (d : Die) (s : State) : Host.Outcome State Fault Refusal := .next (settle (reorderExpire d s))

/-- INJ_DELAY_EXPIRE. -/
def execInjDelayExpire (d : Die) (s : State) : Host.Outcome State Fault Refusal := .next (settle (delayExpire d s))

end Sys2Proof.Machine
end

