-- ==== Sys2Proof/Machine/HostCmds.lean ====
section
/-!
DEFINITION. Sys2Proof/Machine/HostCmds.lean: the CXL.mem requests of a host port (R23 to R26, R221, Table 16.3), its answers to snoops
(R222, R230), and the commands of the coherence directory (chapter 9).
-/

namespace Sys2Proof.Machine

/-! ### CXL.mem -/

/-- The IDE stream of a port fails its integrity check: it is no longer secure, and the request is dropped (R204; PRESUMED). -/
def ideFail (p : Die) (s : State) : State :=
  s |> setFlag F.HPC_STATUS.IDE_FAIL p 0 |> wf F.HPC_LINK_STATUS.IDE_SECURE p 0 0 |> onHpc p (fun x => { x with ide := none })
    |> post p ⟨0x0107, sevUncorrected, locDie p, [it1 (Config.detailCode 0x0107 0)], none, none⟩

/-- A request arrives on a port that is not down. While the die's core is on the bypass the port holds it (R361), and while the link retrains or
falls back it waits in the link layer (R257). -/
def hostArrive (p : Die) (ideBad : Bool) (x : HxEntry) (s : State) : State :=
  if portAlive s p = false ∨ diePresent s p = false ∨ s.dev.mode = .hold then s
  else if ideBad ∧ rfb s F.HPC_LINK_STATUS.IDE_SECURE p 0 then ideFail p s
  else if coreBypass s p ∨ linkHeld s p then onHpc p (fun h => { h with hxin := h.hxin ++ [x] }) s
  else settle (hostTake p x s)

/-- The kind of a MemRd (Table 9.2); a combination that the table does not list reads without caching. -/
def readKind (m : MetaValue) (y : SnpType) : ReqKind :=
  match m, y with
  | .s, .data => .rdS
  | .a, .inv => .rdX
  | _, _ => .rdNC

/-- HOST_MEM_READ (R23, R221). -/
def execHostMemRead (port : Die) (tag : Nat) (hpa : Nat) (metaV : MetaValue) (snp : SnpType) (ideBad : Bool) (s : State) :
    Host.Outcome State Fault Refusal :=
  .next (hostArrive port ideBad ⟨tag, hpa, readKind metaV snp, false, ⟨0, false⟩, 0⟩ s)

/-- HOST_MEM_WRITE (R26, R221). -/
def execHostMemWrite (port : Die) (tag : Nat) (hpa : Nat) (data : Line) (poison : Bool) (mask : BitVec 64) (metaV : MetaValue)
    (ideBad : Bool) (_nodes : Unit) (s : State) : Host.Outcome State Fault Refusal :=
  .next (hostArrive port ideBad ⟨tag, hpa, .wr, metaV == .s, ⟨data, poison⟩, mask⟩ s)

/-- HOST_MEM_INV (R221): the agent takes the line, without data. -/
def execHostMemInv (port : Die) (tag : Nat) (hpa : Nat) (ideBad : Bool) (s : State) : Host.Outcome State Fault Refusal :=
  .next (hostArrive port ideBad ⟨tag, hpa, .inv, false, ⟨0, false⟩, 0⟩ s)

/-- The host address of a MemWr of a port that waits, as a command, to be taken. -/
def waitingWrite (p : Die) (i : Instr) : Option Nat :=
  match i with
  | .hostMemWrite q _ hpa _ _ _ _ _ _ => if q = p then some hpa else none
  | _ => none

/-- The write ingress queue of a host port, by host address: the writes that have reached the device and not the RRM, which are the commands that
wait behind this one and what the HX-in crossing holds (R227; DEDUCED, log entry 94). -/
def writeIngress (s : State) (p : Die) : List Nat :=
  ((die s p).hpc.hxin.filter (fun x => x.kind == .wr)).map (·.hpa) ++ s.pending.filterMap (waitingWrite p)

/-- Whether a MemWr of an agent to a line waits in its port's write ingress queue: a snoop answer is then tagged PEND (R227). -/
def pendTag (s : State) (p : Die) (agent dla : Nat) : Bool :=
  (writeIngress s p).any (fun hpa => (hdmFind s p hpa).any (fun q => agentOf s p q.1 == agent && q.2.toDla hpa / 64 * 64 == dla))

/-- A port takes an agent's answer to a snoop about a line (R222, R227). -/
def answerTake (p : Die) (agent hpa : Nat) (ans : SnoopAns) (s : State) : State :=
  match hdmFind s p hpa with
  | none => s
  | some (_, x) =>
    let dla := x.toDla hpa / 64 * 64
    if (portAgents s p).contains agent then settle (snoopAnswer agent dla ans (pendTag s p agent dla) s) else s

/-- A port takes a BIConflict: the acknowledgement follows every completion already sent (R230). -/
def conflictTake (p : Die) (hpa : Nat) (s : State) : State := onlyIf (portDb s p) (send (.conflictAck p hpa)) s

/-- A port takes what it has held. -/
def linkTake (p : Die) (x : LinkIn) : State → State :=
  match x with
  | .answer agent hpa ans => answerTake p agent hpa ans
  | .conflict hpa => conflictTake p hpa

/-- What a host sends beside requests: it waits in the link layer while the link retrains or falls back (R257). -/
def linkArrive (p : Die) (x : LinkIn) (s : State) : State :=
  if linkHeld s p then onHpc p (fun h => { h with lin := h.lin ++ [x] }) s
  else if portUp s p then linkTake p x s else s

/-- A link that is in L0 again: the completions that waited are sent, and what the host has sent is taken (R257). -/
def linkFlows (p : Die) (s : State) : State :=
  let h := (die s p).hpc
  onHpc p (fun x => { x with cpls := [], lin := [] }) s |> each h.cpls (fun c => send (.hostCpl p c.1 c.2.1 c.2.2)) |> each h.lin (linkTake p)
    |> portTakes p

/-- SNOOP_ANSWER (R222, R227): an agent of a port answers a snoop about a line. -/
def execSnoopAnswer (port : Die) (agent : Nat) (hpa : Nat) (ans : SnoopAns) (_pend : Unit) (s : State) : Host.Outcome State Fault Refusal :=
  .next (linkArrive port (.answer agent hpa ans) s)

/-- BICONFLICT (R230). -/
def execBiconflict (port : Die) (hpa : Nat) (s : State) : Host.Outcome State Fault Refusal := .next (linkArrive port (.conflict hpa) s)

/-! ### The directory -/

/-- AWAIT_WB_TIMEOUT (R229). -/
def execAwaitWbTimeout (d : Die) (dla : Nat) (s : State) : Host.Outcome State Fault Refusal := .next (settle (awaitExpire d dla s))

/-- SNOOP_TIMEOUT (R231). -/
def execSnoopTimeout (d : Die) (dla : Nat) (agent : Nat) (s : State) : Host.Outcome State Fault Refusal :=
  .next (settle (snoopExpire d dla agent s))

/-- The requests of a port to a set that wait for their retry are presented again, in their order (R237). -/
def cdrRetry (d : Die) (port : Port) (set : Nat) (s : State) : State :=
  let mine := fun (r : MemReq) => r.port == port && dirSet (dirLine s r.region r.attr r.dla) == set
  each ((cdr s d).retry.filter mine) (letIn d) (onCdr d (fun x => { x with retry := x.retry.filter (fun r => !(mine r)) }) s)

/-- CDR_RETRY (R237). -/
def execCdrRetry (d : Die) (port : Port) (set : Nat) (s : State) : Host.Outcome State Fault Refusal :=
  .next (settle (cdrRetry d port set s))

/-- AGENTS_DROPPED (R232): the walk of a die for a host port that went down. -/
def execAgentsDropped (d : Die) (port : Die) (s : State) : Host.Outcome State Fault Refusal := .next (settle (agentsDropped d port s))

/-- The decoder and the agent with which a value of CDR_AGENT_MAP would take an agent of the other die's port. -/
def mapClash (s : State) (d : Die) (v : Nat) : Option (Nat × Nat) :=
  if diePresent s (otherDie d) then
    ((List.range 8).map (fun k => (k, fld v (4 * k) 4))).find? (fun q => (portAgents s (otherDie d)).contains q.2)
  else none

/-- A write of CDR_AGENT_MAP (R219, R436). -/
def agentMapWrite (d : Die) (v : Nat) (s : State) : State :=
  match mapClash s d v with
  | some (k, a) =>
    if rfc s F.DEV_MODE.LOCKED = 1 then plainWrite .CDR_AGENT_MAP d 0 v s
    else s |> setFlag F.CDR_STATUS.MAP_REFUSED d 0 |> post d ⟨0x0506, sevInfo, locDie d, [it1 k, it1 a], none, none⟩
  | none => plainWrite .CDR_AGENT_MAP d 0 v s

/-- AGENT_MAP_WRITE (R219). -/
def execAgentMapWrite (d : Die) (value : Word) (s : State) : Host.Outcome State Fault Refusal :=
  .next (barWrite .CDR d (agentMapWrite d value.toNat) s)

/-- What a probe finds of a line of a die: CDR_PROBE_RESULT. -/
def probeWord (s : State) (d : Die) (dla : Nat) : Nat :=
  match regionOf s dla with
  | none => 2 ^ 8 + 2 ^ 9
  | some n =>
    let a := rgAttr s n
    if atCoherent a = false ∨ atHome a ≠ d then 2 ^ 8 + 2 ^ 9
    else
      match dirFind s d (dirLine s n a dla) with
      | none => 2 ^ 8
      | some (_, e) =>
        let st := if e.x then 2 else if e.sharers = [] then 0 else 1
        let await := match e.tr with
          | some t => !t.await.isEmpty
          | none => false
        st + 4 * b2n await + 8 * b2n e.tr.isSome + 16 * (if e.x then e.owner else 0) + 2 ^ 8
          + 2 ^ 16 * (e.sharers.eraseDups.foldl (fun v g => v + 2 ^ g) 0)

/-- A write of CDR_PROBE_HI: DLA_HI, and with GO the probe of the line that both registers name. -/
def probeWrite (d : Die) (v : Nat) (s : State) : State :=
  let s1 := wf F.CDR_PROBE_HI.DLA_HI d 0 (fld v 0 11) s
  if bitn v 31 then
    wrReg .CDR_PROBE_RESULT d 0 (probeWord s1 d (rf s1 F.CDR_PROBE_HI.DLA_HI d 0 * 2 ^ 32 + rf s1 F.CDR_PROBE_LO.DLA_LO d 0 * 64)) s1
  else s1

/-- CDR_PROBE (R217): CDR_PROBE_HI is written with GO = 1. -/
def execCdrProbe (d : Die) (value : Word) (s : State) : Host.Outcome State Fault Refusal :=
  .next (barWrite .CDR d (probeWrite d (setFld value.toNat 31 1 1)) s)

end Sys2Proof.Machine
end

