-- ==== Sys2Proof/Machine/Link.lean ====
section
/-!
DEFINITION. Sys2Proof/Machine/Link.lean: the host links (chapter 10): training (R242 to R245, R259), the ladder (R256 to R258, Table 10.6),
flit injection (R260, R261), viral (R253) and the commit of HDM decoders (R246).
-/

namespace Sys2Proof.Machine

/-! ### Status fields -/

/-- The rate code of a port: 0 for 32, 1 for 64, 2 for 128 GT/s. -/
def portRate (s : State) (p : Die) : Nat := rf s F.HPC_LINK_STATUS.RATE p 0

/-- HPC_LINK_STATUS.RUNG. -/
def portRung (s : State) (p : Die) : Nat := rf s F.HPC_LINK_STATUS.RUNG p 0

/-- Whether a port is down (Table 10.6). -/
def portIsDown (s : State) (p : Die) : Bool := portRung s p == 3

/-- Whether software enables a port. -/
def portEn (s : State) (p : Die) : Bool := rfb s F.HPC_LINK_CFG.EN p 0

/-- PERSTn_N of a port is low. -/
def perstLow (s : State) (p : Die) : Bool :=
  match p with
  | .east => s.pins.perst0
  | .west => s.pins.perst1

/-- DEG_HPORT: whether some port with EN = 1 is down (Table 16.4). -/
def syncHport (s : State) : State :=
  if (diesPresent s).any (fun p => portEn s p && portIsDown s p) then
    (if rfc s F.DEV_STATUS.DEG_HPORT = 1 then s else degrade F.DEV_STATUS.DEG_HPORT s)
  else undegrade F.DEV_STATUS.DEG_HPORT s

/-! ### Port down (R258) -/

/-- A request of a port that has gone down: carried on for nobody. -/
def MemReq.orphan (p : Die) (r : MemReq) : MemReq :=
  match r.asker with
  | .host q _ => if q = p then { r with asker := .nobody, agent := none } else r
  | _ => r

/-- Whether a port owes a request its completion. -/
def owedTo (p : Die) (a : Asker) : Bool :=
  match a with
  | .host q _ => q == p
  | _ => false

/-- The requests of a die that wait at the directory or in the tiering engine. -/
def waitingReqs (x : DieSt) : List MemReq :=
  x.psgHeld ++ x.cdr.held ++ x.cdr.retry ++ x.cdr.loose.flatMap (·.2) ++ x.tme.starved ++ x.tme.full.filterMap (·.2.req) ++ (x.tme.moves.flatMap (fun q => q.2.waiting)) ++
    (x.cdr.dir.flatMap (fun q => q.2.waiting ++ (match q.2.tr with
      | some t => (if t.running then [] else t.req.toList) ++ t.forReq.toList ++ t.behind
      | none => [])))

/-- The completions that a port owes. -/
def owed (s : State) (p : Die) : Nat :=
  (s.ops.filter (fun q => owedTo p q.2.asker)).length +
    ((s.ops.flatMap (·.2.waiting) ++ s.ops.flatMap (·.2.after.filterMap Todo.req) ++ s.rots.flatMap (·.2.waiting) ++ waitingReqs s.east ++ waitingReqs s.west).filter (fun r => owedTo p r.asker)).length

/-- A die's waiting requests of a port are carried on for nobody. -/
def orphanDie (p : Die) (x : DieSt) : DieSt :=
  let f := MemReq.orphan p
  let tr := fun (t : CdrTr) => { t with req := t.req.map f, forReq := t.forReq.map f, behind := t.behind.map f }
  { x with psgHeld := x.psgHeld.map f,
           cdr := { x.cdr with held := x.cdr.held.map f, retry := x.cdr.retry.map f, loose := x.cdr.loose.map (fun q => (q.1, q.2.map f)),
                               dir := x.cdr.dir.map (fun q => (q.1, { q.2 with waiting := q.2.waiting.map f, tr := q.2.tr.map tr })) },
           tme := { x.tme with starved := x.tme.starved.map f, full := x.tme.full.map (fun q => (q.1, q.2.onReq f)),
                               moves := x.tme.moves.map (fun q => (q.1, { q.2 with waiting := q.2.waiting.map f })) } }

/-- The port drops every completion that it owes. -/
def dropOwed (p : Die) (s : State) : State :=
  let f := MemReq.orphan p
  let job := fun (j : OpJob) => match j with
    | .merge r => .merge (f r)
    | .read | .write | .tier1 _ _ _ _ | .move _ _ | .gather _ _ _ | .rot _ _ _ _ | .node _ _ | .map _ _ | .record _ _ _ => j
  { s with east := orphanDie p s.east, west := orphanDie p s.west, rots := s.rots.map (fun q => (q.1, { q.2 with waiting := q.2.waiting.map f })),
           ops := s.ops.map (fun q => (q.1, { q.2 with asker := if owedTo p q.2.asker then .nobody else q.2.asker, job := job q.2.job,
                                                        waiting := q.2.waiting.map f, after := q.2.after.map (Todo.onReq f) })) }

/-- A firmware transfer of a port is abandoned: the inactive slot is invalid (Table 10.7). -/
def dropXfer (p : Die) (s : State) : State :=
  match s.fw.xfer with
  | some (q, slot) =>
    if q = p then
      { s with fw := { s.fw with xfer := none }, dev := { s.dev with flash :=
          { s.dev.flash with fw0 := s.dev.flash.fw0 && slot != 0, fw1 := s.dev.flash.fw1 && slot != 1,
                             jobs := s.dev.flash.jobs.filter (fun j => j != .firmware slot) } } }
    else s
  | none => s

/-- A port goes down: completions owed are dropped, its agents' snoops answered, its rings fail, and the mode follows (R258, R232,
R302, R371). -/
def portDown (p : Die) (cause : Nat) (s : State) : State :=
  if portAlive s p = false then
    s |> onHpc p (fun h => { h with training := false }) |> wf F.HPC_LINK_STATUS.RUNG p 0 3 |> syncHport
  else
    let h := (die s p).hpc
    let n := owed s p + h.cpls.length + h.hxin.length
    let db := portDb s p
    s |> wf F.HPC_LINK_STATUS.UP p 0 0 |> wf F.HPC_LINK_STATUS.RUNG p 0 3 |> wf F.HPC_LINK_STATUS.IDE_SECURE p 0 0
      |> onHpc p (fun h => { h with training := false, retrains := [], replays := 0, ide := none, hxin := [], lin := [], cpls := [] })
      |> setFlag F.HPC_STATUS.WENT_DOWN p 0 |> addCount p .HPC 3 1
      |> post p ⟨0x0104, sevUncorrected, locDie p, [it1 cause, it4 n], none, none⟩
      |> dropXfer p |> onlyIf db (each (diesPresent s) (portSnoops p)) |> dropOwed p |> ringsDown p |> syncHport

/-! ### The ladder (Table 10.6) -/

/-- The fallback rung: a retrain at the next lower rate, or the port goes down. -/
def fallback (p : Die) (s : State) : State :=
  let old := portRate s p
  if old = 0 then portDown p 0 s
  else
    s |> wf F.HPC_LINK_STATUS.UP p 0 0 |> wf F.HPC_LINK_STATUS.RUNG p 0 2
      |> onHpc p (fun h => { h with target := old - 1, retrains := [], replays := 0, rate128Lost := h.rate128Lost || old == 2 })
      |> setFlag F.HPC_STATUS.FELL_BACK p 0 |> addCount p .HPC 2 1
      |> post p ⟨0x0103, sevCorrected, locDie p, [it1 old, it1 (old - 1)], none, none⟩

/-- The retrain rung: Recovery at the present rate, at x8 where the lanes of one half have failed; or the fallback rung when the
window already holds RETRAIN_MAX retrains. A port that is not in L0 begins none (Table 10.7). -/
def retrainPort (p : Die) (cause : Nat) (x8 : Bool) (s : State) : State :=
  if portUp s p = false then s
  else
    let ts := (die s p).hpc.retrains.filter (fun t => decide (s.nowNs < t + rf s F.HPC_LADDER_CFG.WINDOW_MS p 0 * 1000000))
    if max 1 (rf s F.HPC_LADDER_CFG.RETRAIN_MAX p 0) ≤ ts.length then fallback p s
    else
      let w := if x8 then 1 else rf s F.HPC_LINK_STATUS.WIDTH p 0
      s |> wf F.HPC_LINK_STATUS.UP p 0 0 |> wf F.HPC_LINK_STATUS.RUNG p 0 1
        |> onHpc p (fun h => { h with target := portRate s p, width := w, fullW := if x8 then 1 else h.fullW, retrains := ts ++ [s.nowNs], replays := 0 })
        |> setFlag F.HPC_STATUS.RETRAINED p 0
        |> post p ⟨0x0102, sevCorrected, locDie p, [it1 cause, it1 w], none, none⟩

/-- The flits of a rate (Table 10.2): 68-B, 256-B standard, or latency-optimized where both ends allow it. -/
def flitOf (s : State) (p : Die) (rate : Nat) (cxl3 lo : Bool) : Nat :=
  if cxl3 = false then 0 else if 1 ≤ rate ∧ lo ∧ rfb s F.HPC_LINK_CFG.LO_FLIT p 0 then 2 else 1

/-- A retrain or a fallback reaches L0: held requests resume, viral is signalled again, and a new rate changes the CDAT (R255, R257,
Table 10.7). -/
def reachL0 (p : Die) (s : State) : State :=
  if portRung s p ≠ 1 ∧ portRung s p ≠ 2 then s
  else
    let old := portRate s p
    let h := (die s p).hpc
    let fell := portRung s p == 2
    s |> wf F.HPC_LINK_STATUS.UP p 0 1 |> wf F.HPC_LINK_STATUS.RUNG p 0 0 |> wf F.HPC_LINK_STATUS.RATE p 0 h.target
      |> onlyIf (!fell) (wf F.HPC_LINK_STATUS.WIDTH p 0 h.width)
      |> wf F.HPC_LINK_STATUS.FLIT p 0 (flitOf s p h.target h.cxl3 h.lo)
      |> onlyIf h.viralTx (send (.viral p)) |> onlyIf (old != h.target) (cdatChanged 2 p) |> linkFlows p

/-! ### Injection (R260, R261) -/

/-- Arm a flit injection with the settings of HPC_INJ_CTRL. -/
def hpcArm (p : Die) (v : Nat) (s : State) : State :=
  s |> putFields [F.HPC_INJ_CTRL.MODE, F.HPC_INJ_CTRL.KIND, F.HPC_INJ_CTRL.EXEMPT, F.HPC_INJ_CTRL.RATE] p 0 v
    |> wf F.HPC_INJ_CTRL.ARMED p 0 1 |> wf F.HPC_INJ_COUNT.COUNT p 0 0

/-- An armed injection hits a flit: a one-shot disarms. -/
def hpcHit (p : Die) (s : State) : State :=
  let s1 := s |> cntF F.HPC_INJ_COUNT.COUNT p 0 1 |> addCount p .HPC 6 1
  if rfb s F.HPC_INJ_CTRL.MODE p 0 then s1
  else
    s1 |> wf F.HPC_INJ_CTRL.ARMED p 0 0 |> setFlag F.HPC_STATUS.INJ_DONE p 0
       |> post p ⟨0x0109, sevInfo, locDie p, [it1 (rf s F.HPC_INJ_CTRL.KIND p 0), it1 0], none, none⟩

/-- A flit is replayed from the retry buffer; `same` is whether it is the flit of the last replay, `hit` whether an armed injection hit
it. With the RETRY_MAX-th replay of one flit the port retrains (Table 10.6, R261). -/
def flitRetry (p : Die) (same hit x8 : Bool) (s : State) : State :=
  if portUp s p = false then s
  else
    let armed := hit && rfb s F.HPC_INJ_CTRL.ARMED p 0
    let exempt := armed && rfb s F.HPC_INJ_CTRL.EXEMPT p 0
    let s1 := s |> onlyIf armed (hpcHit p) |> addCount p .HPC 0 1
                |> postLim p 0 ⟨0x0101, sevCorrected, locDie p, [], none, none⟩ []
    if exempt then s1
    else
      let n := if same then (die s p).hpc.replays + 1 else 1
      if max 1 (rf s F.HPC_LADDER_CFG.RETRY_MAX p 0) ≤ n then retrainPort p 0 x8 s1
      else onHpc p (fun h => { h with replays := n }) s1

/-! ### Training from Detect (R242 to R245, R259) -/

/-- A port that is not up begins to train from Detect, where it may. -/
def trainPort (p : Die) (s : State) : State :=
  if diePresent s p ∧ portEn s p ∧ portAlive s p = false ∧ perstLow s p = false ∧ fenced s p = false ∧ s.dev.mode ≠ .boot then
    onHpc p (fun h => { h with training := true }) s
  else s

/-- What the partner offers at a training: a CXL 3.x host or a CXL 2.0 one, its highest rate, the rate extension, latency-optimized
flits, and whether only eight lanes come up. -/
structure Partner where
  cxl3 : Bool
  rate : Nat
  ext : Bool
  lo : Bool
  x8 : Bool
  deriving DecidableEq, Repr

/-- Whether a port advertises the rate extension (R244). -/
def advertises (s : State) (p : Die) : Bool := decide (2 ≤ rf s F.HPC_LINK_CFG.MAX_RATE p 0) && (die s p).hpc.rate128En

/-- The highest rate of both ends (R242, R244, R245). -/
def topRate (s : State) (p : Die) (cxl3 : Bool) (rate : Nat) (ext : Bool) : Nat :=
  if cxl3 then min (min (rf s F.HPC_LINK_CFG.MAX_RATE p 0) rate) (if advertises s p && ext then 2 else 1) else 0

/-- A port that trains from Detect reaches L0 (R242, R259): its counts start anew, its agents hold nothing. -/
def portComesUp (p : Die) (q : Partner) (s : State) : State :=
  if (die s p).hpc.training = false ∨ portEn s p = false ∨ perstLow s p then s
  else
    let rate := topRate s p q.cxl3 q.rate q.ext
    let old := portRate s p
    let w := b2n (q.x8 || rfb s F.HPC_LINK_CFG.WIDTH_CAP p 0)
    let flit := flitOf s p rate q.cxl3 q.lo
    s |> each (diesPresent s) (fun d => agentsDropped d p)
      |> wf F.HPC_LINK_STATUS.UP p 0 1 |> wf F.HPC_LINK_STATUS.RUNG p 0 0 |> wf F.HPC_LINK_STATUS.RATE p 0 rate
      |> wf F.HPC_LINK_STATUS.WIDTH p 0 w |> wf F.HPC_LINK_STATUS.FLIT p 0 flit |> wf F.HPC_LINK_STATUS.HDM_DB p 0 (b2n q.cxl3)
      |> onHpc p (fun h => { h with training := false, fullW := w, retrains := [], replays := 0, partner128 := q.ext && advertises s p, pmax := q.rate,
                                    cxl3 := q.cxl3, extOffer := q.ext, lo := q.lo })
      |> post p ⟨0x0105, sevInfo, locDie p, [it1 rate, it1 w, it1 flit, it1 (b2n q.cxl3)], none, none⟩
      |> onlyIf (die s p).hpc.viralTx (send (.viral p)) |> onlyIf (old != rate) (cdatChanged 2 p) |> syncHport

/-- A write of HPC_LINK_CFG: EN = 0 holds the port down, and EN from 0 to 1 starts its training (R259). -/
def linkCfgWrite (p : Die) (v : Nat) (s : State) : State :=
  let was := portEn s p
  let s1 := plainWrite .HPC_LINK_CFG p 0 v s
  if bitn v 4 then (if was then s1 else trainPort p (syncHport s1))
  else syncHport (portDown p 3 s1)

/-! ### HDM decoders (R246) -/

/-- The DLA at which decoder k starts: after the decoder before it, and what software skips. -/
def decBase (s : State) (p : Die) (k skip : Nat) : Nat :=
  (match nget (die s p).hpc.hdm (k - 1) with
    | some x => if k = 0 then 0 else x.dla + x.size / x.ways
    | none => 0) + skip

/-- Commit a decoder: in increasing order, with ways and a granularity of R246, and not beyond DLA 8 TiB; else Commit Error. -/
def decCommit (p : Die) (k base size ways gran skip isp : Nat) (s : State) : State :=
  let h := (die s p).hpc
  let dla := decBase s p k skip
  let ok := decide (k < 8) && (nget h.hdm k).isNone && (k == 0 || (nget h.hdm (k - 1)).isSome) &&
    [1, 2, 3, 4, 6, 8, 12, 16].contains ways && [256, 512, 1024, 2048, 4096, 8192, 16384].contains gran && decide (isp < ways) &&
    decide (0 < size) && size % (gran * ways) == 0 && decide (dla + size / ways ≤ 2 ^ 43)
  if ok then onHpc p (fun h => { h with hdm := nset h.hdm k ⟨base, size, ways, gran, dla, isp⟩, hdmErr := h.hdmErr.filter (· != k) }) s
  else onHpc p (fun h => { h with hdmErr := if h.hdmErr.contains k then h.hdmErr else h.hdmErr ++ [k] }) s

/-! ### Commands -/

/-- No rung of a port's ladder advances while its die's core is on the bypass (R361). -/
def ladder (p : Die) (f : State → State) (s : State) : State := if coreBypass s p then s else settle (f s)

/-- FLIT_RETRY (R256). -/
def execFlitRetry (port : Die) (same hit x8 : Bool) (s : State) : Host.Outcome State Fault Refusal :=
  .next (ladder port (flitRetry port same hit x8) s)

/-- LINK_LAYER_TIMEOUT (R256). -/
def execLinkLayerTimeout (port : Die) (x8 : Bool) (s : State) : Host.Outcome State Fault Refusal :=
  .next (ladder port (retrainPort port 1 x8) s)

/-- LINK_CTRL_RETRAIN (R256): software sets HPC_LINK_CTRL.RETRAIN. -/
def execLinkCtrlRetrain (port : Die) (x8 : Bool) (s : State) : Host.Outcome State Fault Refusal :=
  .next (ladder port (barWrite .HPC port (retrainPort port 2 x8)) s)

/-- LINK_CTRL_DOWN (R256, R258). -/
def execLinkCtrlDown (port : Die) (s : State) : Host.Outcome State Fault Refusal := .next (settle (barWrite .HPC port (portDown port 2) s))

/-- LINK_CTRL_REUP (R259). -/
def execLinkCtrlReup (port : Die) (s : State) : Host.Outcome State Fault Refusal := .next (barWrite .HPC port (trainPort port) s)

/-- LINK_CFG_EN (R259): HPC_LINK_CFG is written. -/
def execLinkCfgEn (port : Die) (value : Word) (s : State) : Host.Outcome State Fault Refusal :=
  .next (settle (barWrite .HPC port (linkCfgWrite port value.toNat) s))

/-- LINK_CONTROL_RETRAIN (R245): software directs a retrain through Link Control, at the present or a higher Target Link Speed. It is
no rung of the ladder (Table 10.6; DEDUCED). -/
def execLinkControlRetrain (port : Die) (rate : Nat) (s : State) : Host.Outcome State Fault Refusal :=
  .next (if portUp s port = false then s
    else
      let h := (die s port).hpc
      let top := topRate s port h.cxl3 h.pmax h.extOffer
      s |> wf F.HPC_LINK_STATUS.UP port 0 0 |> wf F.HPC_LINK_STATUS.RUNG port 0 1
        |> onHpc port (fun x => { x with partner128 := h.extOffer && advertises s port, target := min top (max (portRate s port) rate), width := rf s F.HPC_LINK_STATUS.WIDTH port 0 }))

/-- LINK_RETRAIN_L0 (R257). -/
def execLinkRetrainL0 (port : Die) (s : State) : Host.Outcome State Fault Refusal := .next (settle (reachL0 port s))

/-- RETRAIN_ABANDON (R256): a retrain has not completed at 24 ms, and the port falls back. -/
def execRetrainAbandon (port : Die) (s : State) : Host.Outcome State Fault Refusal :=
  .next (ladder port (fun t => if portRung t port = 1 then fallback port t else t) s)

/-- FALLBACK_ABANDON (R256): a fallback has not reached L0 at 30 ms, and the port goes down. -/
def execFallbackAbandon (port : Die) (s : State) : Host.Outcome State Fault Refusal :=
  .next (ladder port (fun t => if portRung t port = 2 then portDown port 1 t else t) s)

/-- PORT_UP (R242, R259). -/
def execPortUp (port : Die) (cxl3 : Bool) (rate : Nat) (ext lo x8 : Bool) (s : State) : Host.Outcome State Fault Refusal :=
  .next (settle (portComesUp port ⟨cxl3, rate, ext, lo, x8⟩ s))

/-- REUP_TIMER (R259): every REUP_S seconds, where that is not 0. -/
def execReupTimer (port : Die) (s : State) : Host.Outcome State Fault Refusal :=
  .next (if rf s F.HPC_LINK_CFG.REUP_S port 0 = 0 then s else trainPort port s)

/-- VIRAL_RX (R253): a host's viral indication is reported, and changes nothing else. -/
def execViralRx (port : Die) (s : State) : Host.Outcome State Fault Refusal :=
  .next (if portAlive s port then
      s |> setFlag F.HPC_STATUS.VIRAL_RX port 0
        |> post port ⟨0x0108, sevFatal, locDie port, [it1 (Config.detailCode 0x0108 0)], none, none⟩
    else s)

/-- HPC_INJ_ARM (R260). -/
def execHpcInjArm (port : Die) (value : Word) (s : State) : Host.Outcome State Fault Refusal :=
  .next (barWrite .HPC port (hpcArm port value.toNat) s)

/-- HPC_INJ_DISARM (R260). -/
def execHpcInjDisarm (port : Die) (s : State) : Host.Outcome State Fault Refusal :=
  .next (barWrite .HPC port (wf F.HPC_INJ_CTRL.ARMED port 0 0) s)

/-- HDM_DECODER_COMMIT (R246). -/
def execHdmDecoderCommit (port : Die) (dec base size ways gran skip isp : Nat) (s : State) : Host.Outcome State Fault Refusal :=
  .next (if diePresent s port then decCommit port dec base size ways gran skip isp s else s)

end Sys2Proof.Machine
end

