-- ==== Sys2Proof/Machine/CksCmds.lean ====
section
/-!
DEFINITION. Sys2Proof/Machine/CksCmds.lean: the commands of the clock synthesizers (chapter 15), the loss of REFCLK (R362, R450), and the
fencing of a die (R385, R386).
-/

namespace Sys2Proof.Machine

/-! ### Fencing a die (R385, R386) -/

/-- A die's fabric port stops: its contexts' requests fail with PEER_DOWN and its Ethernet link is down. -/
def fabStop (d : Die) (s : State) : State :=
  if fabPresent s d = false then s
  else
    each (portCtxs s d) (fun n t => (endSession d n 8 .down t).2) s
      |> wf F.FPC_LINK_STATUS.UP d 0 0 |> wf F.FPC_LINK_STATUS.SECURE d 0 0
      |> onlyIf (rfb s F.FPC_PORT_CFG.EN d 0) (degrade F.DEV_STATUS.DEG_FPORT)

/-- What waits in a subchannel is answered as its die no longer serves it: reads as failed, writes as done (R386). -/
def flushSub (d : Die) (i : Nat) (s : State) : State :=
  let b := sub s d i
  s |> onSub d i (fun b => { b with rdq := [], retryq := [], returning := [], wrq := [], replay := [], demandHeld := [], replaying := false,
                                    isolating := none, cmdHeld := false })
    |> each (b.rdq ++ b.retryq ++ b.returning) (fun (r : Req) t => match r.why with
         | .scrub _ => scrubEnded d i t
         | _ => failLine d r none t)
    |> each b.demandHeld writeAccepted

/-- A die fences itself: host port down, fabric port stopped, DRAM in self-refresh, DIE_MODE = FROZEN (Table 16.10). The fabric port of a
die that has lost REFCLK stays up (R450). -/
def fence (d : Die) (cause : Nat) (s : State) : State :=
  if fenced s d ∨ partDual s.dev.part = false then s
  else
    s |> portDown d 5 |> onlyIf (!(die s d).refLost) (fabStop d)
      |> wf F.PSG_STATUS.FENCED d 0 1 |> wf F.PSG_STATUS.DIE_MODE d 0 6
      |> each (List.range 12) (flushSub d) |> sleepDie d
      |> degrade F.DEV_STATUS.DEG_PASSAGE
      |> post d ⟨0x1008, sevUncorrected, locDie d, [it1 (dieNum d), it1 (Config.detailCode 0x1008 cause)], none, none⟩

/-! ### FAILED synthesizers (R363) -/

/-- CKS-C has FAILED: the die's ports go down and its DRAM sleeps; a junior fences itself, and of the senior the device enters
FROZEN. -/
def coreLost (d : Die) (s : State) : State :=
  let s1 := s |> portDown d 5 |> onlyIf (!(die s d).refLost) (fabStop d) |> sleepDie d
  if d = seniorDie s then enterFrozen 6 true s1 else fence d 2 s1

/-- The subchannels of a CKS-M. -/
def synthSubs (m : Nat) : List Nat := (synthChans m).flatMap (fun c => [2 * c, 2 * c + 1])

/-- A CKS-M has FAILED: its six subchannels become RETIRED with cause 0x82, and R132 applies to the die; before TRAIN exit the live
list that is then formed lacks them (R134). -/
def chansLost (d : Die) (m : Nat) (s : State) : State :=
  let s1 := each (synthSubs m) (fun i t => if (sub t d i).st = .retired then t else postRetired d i 0x82 (rateInUse t d (i / 2)) (retireSub d i t)) s
  let s2 := each (synthChans m) (fun c t => onChan d c (fun x => { x with clockRec := false, released := false }) t) s1
  if (die s d).sru.liveList.isEmpty ∨ (die s d).sru.memoryLost then s2
  else memoryLost d (onSru d (fun u => { u with spareSub := none }) s2)

/-- A synthesizer becomes FAILED until reset (R363). -/
def failSynth (d : Die) (m : Nat) (s : State) : State :=
  if (synth s d m).phase = .failed then s
  else
    let s1 := s |> onSynth d m (fun y => { y with pend := none }) |> setPhase d m .failed
                |> post d ⟨0x1043, sevUncorrected, locDie d, [it1 m], none, none⟩
    match m with
    | 0 => coreLost d s1
    | 3 => s1
    | _ => chansLost d m s1

/-! ### Loss of lock (R358 to R361) -/

/-- The outputs of a synthesizer are held low: it relocks at its live values, unless REFCLK is lost (R356, R450). -/
def gateSynth (d : Die) (m : Nat) (s : State) : State :=
  let s1 := onSynth d m (fun y => { y with sinceNs := s.nowNs }) s
  if (die s d).refLost then setPhase d m .off s1 else startRelock d m s1

/-- Four consecutive excursions: loss of lock is declared (R354, R358). A relock that already runs goes on (Table 15.6). -/
def lockLost (d : Die) (m : Nat) (s : State) : State :=
  let y := synth s d m
  if y.phase ≠ .locked then s
  else
    let s1 := s |> onSynth d m (fun y => { y with lost := true }) |> cntF F.CKS_COUNT.LOL d m 1 |> setFlag F.CKS_STATUS.LOL d m
    let s2 := if isM m then s1 |> recoverChans d m |> setPhase d m .quiesce else gateSynth d m s1
    let chans := (synthChans m).foldl (fun v c => v + 2 ^ c) 0
    s2 |> post d ⟨0x1040, sevCorrected, locDie d,
            [it1 m, it1 y.n, it1 (rf s F.CKS_STATUS.BAND d m), it1 (Config.detailCode 0x1040 chans)], none, none⟩

/-- The same, taken for an armed injection where there is one (R364). -/
def lockLostInj (d : Die) (m : Nat) (s : State) : State :=
  if (synth s d m).phase = .locked ∧ rfb s F.CKS_INJ.ARMED d m then
    lockLost d m s |> wf F.CKS_INJ.ARMED d m 0 |> setFlag F.CKS_STATUS.INJ_DONE d m
      |> post d ⟨0x1045, sevInfo, locDie d, [it1 m], none, none⟩
  else lockLost d m s

/-- Whether a subchannel has come to the end of steps 1 to 3 of R359: no burst on the bus, and no write-CRC window open. -/
def subQuiet (b : SubSt) : Bool := decide (b.st = .retired) || (b.returning.isEmpty && (b.replay.isEmpty || b.replaying))

/-- Every rank of the channels of a CKS-M is in self-refresh, and the outputs are gated (R359, steps 4 and 5). -/
def quiesceDone (d : Die) (m : Nat) (s : State) : State :=
  if (synth s d m).phase ≠ .quiesce ∨ !((synthSubs m).all (fun i => subQuiet (sub s d i))) then s
  else s |> each (synthSubs m) (sleepSub d) |> gateSynth d m

/-! ### Lock and release (R354 to R357) -/

/-- The kind of retrain of a rank after a release: full where it has no record for the point (Table 2.8, R380). -/
def releaseKind (s : State) (d : Die) (i r point : Nat) : RetrainKind :=
  if (trecAt s d i r point).isSome then .quick else .full

/-- A channel's clock runs again: its ranks leave self-refresh and retrain, unless nothing was stopped (R359, R380). -/
def releaseChan (d : Die) (c : Nat) (s : State) : State :=
  let point := livePoint s d (chanSynth c)
  let s1 := wf F.CFE_STATUS.POINT d c (rateCode s d c point) s
  if (chan s d c).clockRec = false then s1
  else
    let s2 := onChan d c (fun x => { x with released := true }) s1
    let live := [2 * c, 2 * c + 1].filter (fun i => decide ((sub s d i).st = .live))
    each live (fun i t => each (ranksOf t d) (fun r u => wantRetrain d i r (releaseKind u d i r point) u)
      (wakeSub d i t)) s2 |> nextRetrain d c

/-- Apply the commit that waited for the release (R353). -/
def applyPend (d : Die) (m : Nat) (s : State) : State :=
  match (synth s d m).pend with
  | none => s
  | some st => applyStage d m st (onSynth d m (fun y => { y with pend := none }) s)

/-- The outputs of a synthesizer are released together (R356); after a loss 0x1041 is posted (R358). -/
def release (d : Die) (m : Nat) (s : State) : State :=
  let y := synth s d m
  if y.phase ≠ .relocked then s
  else
    s |> onSynth d m (fun y => { y with lost := false }) |> setPhase d m .locked
      |> each (synthChans m) (releaseChan d)
      |> onlyIf y.lost (post d ⟨0x1041, sevInfo, locDie d,
           [it1 m, it4 (s.nowNs - y.sinceNs), it1 (Config.detailCode 0x1041 (b2n y.byStored))], none, none⟩)
      |> applyPend d m |> thriftAdvance d |> onlyIf (m == 0) (later (.coreBack d))

/-- Lock is declared on a band: on a stored band or one of its neighbours, or on the band that a search found (R355). -/
def lockDeclared (d : Die) (m band : Nat) (s : State) : State :=
  let y := synth s d m
  match y.phase with
  | .stored => (match bandSlot y with
    | some (k, b) =>
      if band = b.band ∨ band + 1 = b.band ∨ band = b.band + 1 then
        s |> onSynth d m (fun y => { y with uses := y.uses + 1, bands := nset y.bands k { b with used := y.uses + 1 } })
          |> wf F.CKS_STATUS.BAND d m band |> setPhase d m .relocked
      else s
    | none => s)
  | .qualify => if band = rf s F.CKS_STATUS.BAND d m then setPhase d m .relocked s else s
  | _ => s

/-- The band memory slot that a search's result takes: the matching one, an empty one, or the least recently used. -/
def searchSlot (y : SynthSt) : Nat :=
  match bandSlot y with
  | some (k, _) => k
  | none => (match nfree y.bands 8 with
    | some k => k
    | none => ((y.bands.foldl (fun (b : Option (Nat × Nat)) p => match b with
        | none => some (p.1, p.2.used)
        | some (k, u) => if p.2.used < u then some (p.1, p.2.used) else some (k, u)) none).getD (0, 0)).1)

/-- At boot a CKS-M goes on from the search of its THRIFT point to that of its SERVE point (R355). -/
def bootPoint (d : Die) (m : Nat) (s : State) : State :=
  let st := planStage s d m 0 allOuts
  s |> onSynth d m (fun y => { y with n := st.n, pfd := st.pfd, outs := st.outs }) |> wf F.CKS_STATUS.POINT d m 0 |> setPhase d m (.search 1)

/-- A full search has found a band, at a junction temperature. -/
def searchFound (d : Die) (m band : Nat) (temp : Int) (s : State) : State :=
  let k := searchSlot (synth s d m)
  let s1 := s |> onSynth d m (fun y => { y with uses := y.uses + 1, bands := nset y.bands k ⟨y.pfd, y.n, band, temp, y.uses + 1⟩ })
    |> wf F.CKS_STATUS.BAND d m band
    |> post d ⟨0x1042, sevInfo, locDie d, [it1 m, it1 band, it1 k], none, none⟩
  if isM m ∧ s.dev.mode = .boot ∧ livePoint s d m = 1 then bootPoint d m s1 else setPhase d m .qualify s1

/-- A full search ends (R355): with a band, or none; one that fails is followed by one more, and then the synthesizer is FAILED. -/
def fullSearch (d : Die) (m : Nat) (band : Option Nat) (temp : Int) (s : State) : State :=
  match (synth s d m).phase with
  | .search k =>
    let s1 := cntF F.CKS_COUNT.SEARCH d m 1 s
    (match band with
     | some b => if b < 64 then searchFound d m b temp s1 else s
     | none =>
       let s2 := post d ⟨0x1042, sevInfo, locDie d, [it1 m, it1 (Config.detailCode 0x1042 0), it1 (Config.detailCode 0x1042 1)], none, none⟩ s1
       if k = 1 then setPhase d m (.search 2) s2 else failSynth d m s2)
  | _ => s

/-! ### The loss of REFCLK (R362, R450) -/

/-- A synthesizer responds to the loss of REFCLK: it attempts no relock while it lasts. -/
def refStop (d : Die) (m : Nat) (s : State) : State :=
  match (synth s d m).phase with
  | .locked => lockLost d m s
  | .off | .failed => s
  | .quiesce => onSynth d m (fun y => { y with lost := true }) s
  | _ => setPhase d m .off (onSynth d m (fun y => { y with lost := true }) s)

/-- REFCLK is declared lost on both dies: every synthesizer responds, and the host links go down (R450). -/
def refclkLost (s : State) : State :=
  each (diesPresent s) (fun d t =>
    if (die t d).refLost then t
    else
      t |> onDie d (fun x => { x with refLost := true }) |> each (List.range 4) (refStop d)
        |> onlyIf (portAlive t d) (portDown d (Config.detailCode 0x0104 6))) s

/-- REFCLK is declared present again: the synthesizers that are not FAILED relock. -/
def refclkPresent (s : State) : State :=
  each (diesPresent s) (fun d t =>
    if (die t d).refLost = false then t
    else
      onDie d (fun x => { x with refLost := false }) t
        |> each (List.range 4) (fun m u => if (synth u d m).phase = .off ∧ (synth u d m).lost then startRelock d m u else u)) s

/-- The synthesizers of a die that has no reference become FAILED; those that HOLD has stopped do so at the wake (Table 21.9). -/
def refFail (d : Die) (s : State) : State :=
  if (die s d).refLost = false then s
  else each (List.range 4) (fun m t => if s.dev.mode = .hold ∧ s.dev.trans ≠ some .fromHold ∧ m ≠ 3 then t else failSynth d m t) s

/-! ### Commands -/

/-- The synthesizers of a present die. -/
def onCks (d : Die) (m : Nat) (f : State → State) (s : State) : State := if diePresent s d ∧ m < 4 then settle (f s) else s

/-- A write of CKS_COMMIT: accepted only before SERVE entry, later ones counted (R436). -/
def cksCommit (d : Die) (m v : Nat) (s : State) : State :=
  if rfc s F.DEV_MODE.LOCKED = 1 then cntF F.DEV_IGNORED_COUNT.LOCKED .east 0 1 s
  else if bitn v 0 then commitStage d m (planStage s d m (fld v 1 1) (fld v 8 6)) s
  else s

/-- CKS_COMMIT (R352): the register is written. -/
def execCksCommit (d : Die) (m : Nat) (value : Word) (s : State) : Host.Outcome State Fault Refusal :=
  .next (onCks d m (barWrite .CKS d (cksCommit d m value.toNat)) s)

/-- One eighth of a VCO period toward the staged delay. -/
def OutSt.delayStep (o : OutSt) : OutSt :=
  if o.delay < o.want then { o with delay := o.delay + 1 } else if o.want < o.delay then { o with delay := o.delay - 1 } else o

/-- DELAY_STEP (R352): 64 cycles of an output have passed. -/
def execDelayStep (d : Die) (m : Nat) (out : Nat) (s : State) : Host.Outcome State Fault Refusal :=
  .next (if (synth s d m).phase = .locked then
      onSynth d m (fun y => { y with outs := y.outs.zipIdx.map (fun q => if q.2 = out then q.1.delayStep else q.1) }) s
    else s)

/-- LOCK_DECLARED (R354). -/
def execLockDeclared (d : Die) (m : Nat) (band : Nat) (s : State) : Host.Outcome State Fault Refusal :=
  .next (onCks d m (lockDeclared d m band) s)

/-- OUTPUT_RELEASE (R356). -/
def execOutputRelease (d : Die) (m : Nat) (s : State) : Host.Outcome State Fault Refusal := .next (onCks d m (release d m) s)

/-- CKS_LOCK_LOST (R358). -/
def execCksLockLost (d : Die) (m : Nat) (s : State) : Host.Outcome State Fault Refusal := .next (onCks d m (lockLostInj d m) s)

/-- CKM_QUIESCE_DONE (R359). -/
def execCkmQuiesceDone (d : Die) (m : Nat) (s : State) : Host.Outcome State Fault Refusal := .next (onCks d m (quiesceDone d m) s)

/-- STORED_BAND_TIMEOUT (R355). -/
def execStoredBandTimeout (d : Die) (m : Nat) (s : State) : Host.Outcome State Fault Refusal :=
  .next (onCks d m (fun t => if (synth t d m).phase = .stored then setPhase d m (.search 1) (onSynth d m (fun y => { y with byStored := false }) t)
    else t) s)

/-- CKS_FULL_SEARCH (R355). -/
def execCksFullSearch (d : Die) (m : Nat) (band : Option Nat) (temp : Int) (s : State) : Host.Outcome State Fault Refusal :=
  .next (onCks d m (fullSearch d m band temp) s)

/-- CKS_INJ_ARM (R364). -/
def execCksInjArm (d : Die) (m : Nat) (s : State) : Host.Outcome State Fault Refusal :=
  .next (onCks d m (barWrite .CKS d (wf F.CKS_INJ.ARMED d m 1)) s)

/-- CKS_INJ_DISARM (R364). -/
def execCksInjDisarm (d : Die) (m : Nat) (s : State) : Host.Outcome State Fault Refusal :=
  .next (onCks d m (barWrite .CKS d (wf F.CKS_INJ.ARMED d m 0)) s)

/-- REFCLK_LOST (R362, R450). -/
def execRefclkLost (s : State) : Host.Outcome State Fault Refusal := .next (settle (refclkLost s))

/-- REFCLK_PRESENT (R362). -/
def execRefclkPresent (s : State) : Host.Outcome State Fault Refusal := .next (settle (refclkPresent s))

/-- REFCLK_FAIL_TIMER (R450): 1 ms after the declaration, the senior die's synthesizers first. -/
def execRefclkFailTimer (s : State) : Host.Outcome State Fault Refusal :=
  .next (settle ((if partDual s.dev.part then refFail (otherDie (seniorDie s)) else id) (refFail (seniorDie s) s)))

end Sys2Proof.Machine
end

