-- ==== Sys2Proof/Machine/ModeOps.lean ====
section
/-!
DEFINITION. Sys2Proof/Machine/ModeOps.lean: requests for a mode, and the entry to and exit from THRIFT and HOLD (R367, R379 to R383, Table
16.11).
-/

namespace Sys2Proof.Machine

/-- The mode requests of DEV_MODE_CTRL. -/
inductive ModeReq where
  | thrift | serve | hold | freeze
  deriving DecidableEq, Repr

/-- The bit of a request in DEV_MODE_CTRL. -/
def ModeReq.bit : ModeReq → Nat
  | .thrift => 0 | .serve => 1 | .hold => 2 | .freeze => 3

/-- A request is refused (R367). -/
def modeRefuse (q : ModeReq) (reason : Nat) (s : State) : State :=
  s |> wfc F.DEV_MODE_CTRL.REFUSED 1 0 |> wfc F.DEV_MODE_CTRL.REASON reason 0
    |> post (seniorDie s) ⟨0x1009, sevInfo, locDie (seniorDie s), [it1 (Config.detailCode 0x1009 q.bit), it1 reason], none, none⟩

/-- The dies that carry out a change of mode. -/
def modeDies (s : State) : List Die := (diesPresent s).filter (fun d => !(fenced s d))

/-- A change of mode that takes time begins (R379). -/
def beginTrans (t : Trans) (trigger : Nat) (s : State) : State :=
  wfc F.DEV_MODE.BUSY 1 0 { s with dev := { s.dev with trans := some t, trig := trigger } }

/-- It ends, in a mode (R379). -/
def endTrans (m : Mode) (s : State) : State :=
  wfc F.DEV_MODE.BUSY 0 0 (setMode m s.dev.trig { s with dev := { s.dev with trans := none } })

/-! ### THRIFT (R380) -/

/-- Entry to THRIFT begins: CKS-C switches, and CKS-M0 commits its THRIFT point. -/
def enterThrift (trigger : Nat) (s : State) : State :=
  let s1 := beginTrans .toThrift trigger { s with dev := { s.dev with left := s.dev.mode } }
  each (modeDies s) (fun d t => thriftAdvance d (commitStage d 0 (planStage t d 0 1 allOuts) t)) s1

/-- Exit from THRIFT begins: a port that THRIFT_X8 has narrowed retrains first, then the CKS-M go back. -/
def leaveThrift (trigger : Nat) (s : State) : State :=
  let s1 := beginTrans .fromThrift trigger s
  each (modeDies s) (fun d t => thriftAdvance d
    (onlyIf (rfb t F.HPC_LINK_STATUS.UP d 0) (wf F.HPC_LINK_STATUS.WIDTH d 0 (die t d).hpc.fullW) t)) s1

/-- Whether CKS-C and both CKS-M of a die have come to a point. -/
def diePoint (s : State) (point : Nat) (d : Die) : Bool := [0, 1, 2].all (atPoint s d point)

/-- Entry to THRIFT ends: with THRIFT_X8 the ports retrain at x8. -/
def thriftEntered (s : State) : State :=
  endTrans .thrift (onlyIf (rfc s F.DEV_MODE_CTRL.THRIFT_X8 0 == 1)
    (each (modeDies s) (fun d t => onlyIf (rfb t F.HPC_LINK_STATUS.UP d 0) (wf F.HPC_LINK_STATUS.WIDTH d 0 1) t)) s)

/-! ### HOLD (R381, R382) -/

/-- Whether R381 refuses HOLD: an evacuation, a salvage, a re-homing or a SANITIZE runs. -/
def holdBarred (s : State) : Bool :=
  s.dev.mode == .sanitize || (diesPresent s).any (fun d =>
    (die s d).sru.salvage.isSome || rfb s F.TME_STATUS.REHOME d 0 || (match (die s d).sru.evac with
      | some e => !e.rebuild
      | none => false))

/-- Whether a subchannel has nothing under way. -/
def subIdle (b : SubSt) : Bool :=
  b.rdq.isEmpty && b.wrq.isEmpty && b.retryq.isEmpty && b.returning.isEmpty && b.replay.isEmpty && b.demandHeld.isEmpty &&
    b.r0.retrain.isNone && b.r1.retrain.isNone

/-- Whether a die has no request in flight. -/
def dieIdle (s : State) (d : Die) : Bool :=
  let x := die s d
  (List.range 12).all (fun i => subIdle (sub s d i)) &&
    (List.range 6).all (fun c => (chan s d c).mxin.isEmpty && (chan s d c).frozen.isNone && !(chan s d c).clockRec) &&
    x.cpr.sqs.all (fun q => q.2.started.isEmpty) && x.tme.moves.isEmpty && x.tme.starved.isEmpty && x.tme.full.isEmpty &&
    x.cdr.held.isEmpty && x.cdr.retry.isEmpty && x.cdr.loose.isEmpty && x.cdr.dir.all (fun q => q.2.tr.isNone && q.2.waiting.isEmpty) &&
    x.fpc.outq.isEmpty && x.fpc.ctxs.all (fun q => q.2.reqs.isEmpty)

/-- Whether the requests in flight have completed (R381, step 2). -/
def holdDrained (s : State) : Bool := s.ops.isEmpty && s.serves.isEmpty && (modeDies s).all (dieIdle s)

/-- A synthesizer powers down for HOLD, keeping its band memory. -/
def synthStop (d : Die) (m : Nat) (s : State) : State := if (synth s d m).phase = .failed then s else setPhase d m .off s

/-- A synthesizer relocks on leaving HOLD; one that finds no reference waits for R450. -/
def synthWake (d : Die) (m : Nat) (s : State) : State :=
  if (synth s d m).phase ≠ .off then s
  else
    let s1 := onSynth d m (fun y => { y with sinceNs := s.nowNs }) s
    if (die s d).refLost then onSynth d m (fun y => { y with lost := true }) s1 else startRelock d m s1

/-- The device wakes from HOLD (R382). Where REFCLK has been lost for more than a millisecond, which CKS-A shows by being FAILED, the
others become FAILED too (Table 21.9). -/
def wakeHold (trigger : Nat) (s : State) : State :=
  let s1 := beginTrans .fromHold trigger { s with dev := { s.dev with wake := none } }
  let s2 := each (modeDies s) (fun d t => t |> each [1, 2] (recoverChans d) |> each [0, 1, 2] (synthWake d)) s1
  each (modeDies s) (fun d t => onlyIf (decide ((synth t d 3).phase = .failed)) (refFail d) t) s2

/-- A wake by a trigger: at once in HOLD, after the entry where that still runs (Table 16.11). -/
def wakeBy (trigger : Nat) (s : State) : State :=
  if s.dev.trans = some .toHold then { s with dev := { s.dev with wake := some (s.dev.wake.getD trigger) } }
  else if s.dev.mode = .hold ∧ s.dev.trans.isNone then wakeHold trigger s
  else s

/-- Entry to HOLD ends (R381, steps 4 to 6). The node cache, all of it written back, is not retained (DEDUCED, log entry 128). -/
def holdEntered (s : State) : State :=
  let s1 := s |> each (modeDies s) (fun d t => t |> onNodes d (fun _ => []) |> sleepDie d |> each [0, 1, 2] (synthStop d) |> fabHold d) |> endTrans .hold
  match s1.dev.wake with
  | some trigger => wakeHold trigger s1
  | none => s1

/-- Whether a die's memory is served again after HOLD. -/
def dieAwake (s : State) (d : Die) : Bool :=
  [0, 1, 2].all (fun m => (synth s d m).phase == .locked || (synth s d m).phase == .failed) && (List.range 6).all (fun c => !(chan s d c).clockRec)

/-- The mode left for HOLD is entered again; the fabric links have yet to come up. -/
def holdLeft (s : State) : State :=
  endTrans (if s.dev.left = .thrift then .thrift else serveMode s) s |> (fun t => onlyIf (anyFabDown t) (degrade F.DEV_STATUS.DEG_FPORT) t)

/-! ### What a transition leaves to the thermal request (R422, Table 18.5) -/

/-- A thermal request that came while a transition ran takes the device to THRIFT, and a release that came then takes it out. -/
def thermNext (s : State) : State :=
  if s.therm.waits ∧ s.therm.since.isSome ∧ (s.dev.mode = .serve ∨ s.dev.mode = .degraded) ∧ s.dev.trans.isNone then
    enterThrift 4 { s with therm := { s.therm with waits := false, took := true } }
  else if s.therm.took ∧ s.therm.since.isNone ∧ s.dev.mode = .thrift ∧ s.dev.trans.isNone then
    leaveThrift 4 { s with therm := { s.therm with took := false } }
  else s

/-- A THRIFT or HOLD entry or exit has finished its steps. -/
def transDone (s : State) : State :=
  match s.dev.trans with
  | some .toThrift => if (modeDies s).all (diePoint s 1) then thermNext (thriftEntered s) else s
  | some .fromThrift => if (modeDies s).all (diePoint s 0) then thermNext (endTrans (serveMode s) s) else s
  | some .toHold =>
    if holdDrained s = false then s
    else if (modeDies s).any (nodesDirty s) then each (modeDies s) flushNodes s else holdEntered s
  | some .fromHold => if (modeDies s).all (dieAwake s) then thermNext (holdLeft s) else s
  | none => s

/-- The requests in flight have not finished within 10 ms: HOLD is refused, and the mode resumed (R381). -/
def holdTimeout (s : State) : State :=
  if s.dev.trans = some .toHold then
    thermNext (modeRefuse .hold 2 (wfc F.DEV_MODE.BUSY 0 0 { s with dev := { s.dev with trans := none, wake := none } }))
  else s

/-! ### Requests (R367, R383, R387) -/

/-- FROZEN by request or by a FATAL cause: any transition is abandoned; a core clock that HOLD has stopped starts again (Table 16.1). -/
def freezeDevice (trigger : Nat) (fatal : Bool) (s : State) : State :=
  let asleep := s.dev.mode == .hold
  enterFrozen trigger fatal s |> onlyIf asleep (each (modeDies s) (fun d => synthWake d 0))

/-- A request for a mode with its trigger (Table 16.2). -/
def modeRequest (q : ModeReq) (trigger : Nat) (s0 : State) : State :=
  let s := if q = .thrift then { s0 with therm := { s0.therm with took := false } } else s0
  let up := s.dev.mode == .serve || s.dev.mode == .degraded
  if q = .freeze then (if s.dev.mode = .boot then modeRefuse q 1 s else freezeDevice trigger false s)
  else if s.dev.trans.isSome then modeRefuse q 4 s
  else match q with
    | .thrift => if s.dev.mode = .thrift then s else if up then enterThrift trigger s else modeRefuse q 1 s
    | .serve => if up then s else if s.dev.mode = .thrift then leaveThrift trigger s else modeRefuse q 1 s
    | .hold =>
      if s.dev.mode = .hold then s
      else if holdBarred s then modeRefuse q 3 s
      else if serving s then beginTrans .toHold trigger { s with dev := { s.dev with left := s.dev.mode } }
      else modeRefuse q 1 s
    | .freeze => s

/-- REQ_THRIFT (R380). -/
def execReqThrift (s : State) : Host.Outcome State Fault Refusal := .next (settle (barWrite .DEV .east (modeRequest .thrift 2) s))

/-- REQ_SERVE (R380). -/
def execReqServe (s : State) : Host.Outcome State Fault Refusal := .next (settle (barWrite .DEV .east (modeRequest .serve 2) s))

/-- REQ_HOLD (R381). -/
def execReqHold (s : State) : Host.Outcome State Fault Refusal := .next (settle (barWrite .DEV .east (modeRequest .hold 2) s))

/-- REQ_FREEZE (R383). -/
def execReqFreeze (s : State) : Host.Outcome State Fault Refusal := .next (settle (barWrite .DEV .east (modeRequest .freeze 2) s))

/-- MODE_TRANSITION_DONE (R379 to R382). -/
def execModeTransitionDone (s : State) : Host.Outcome State Fault Refusal := .next (settle (transDone s))

/-- HOLD_DRAIN_TIMEOUT (R381). -/
def execHoldDrainTimeout (s : State) : Host.Outcome State Fault Refusal := .next (settle (holdTimeout s))

/-- L1_EXIT (R382): an enabled host port leaves L1. -/
def execL1Exit (port : Die) (s : State) : Host.Outcome State Fault Refusal :=
  .next (settle (if diePresent s port ∧ portEn s port ∧ fenced s port = false then wakeBy 9 s else s))

end Sys2Proof.Machine
end

