-- ==== Sys2Proof/Machine/Cdat.lean ====
section
/-!
DEFINITION. Sys2Proof/Machine/Cdat.lean: the CDAT of a host port (R255): its entries, and the latency and bandwidth that they carry
(R425, R428, R429), in picoseconds and MB/s. The entry layouts are those of CDAT (PRESUMED, log entry 28).
-/

namespace Sys2Proof.Machine

/-- A number of core clock cycles in picoseconds. -/
def ccPs (s : State) (d : Die) (n : Nat) : Nat := n * 1000000 / max 1 (coreMhz s d)

/-- t_hin + t_hout of a rate (Table 19.1), in picoseconds. -/
def hostPs (rate : Nat) : Nat := if rate = 2 then 42000 else if rate = 1 then 58000 else 86000

/-- The CDAT latency of a region at a port: t_read with the page empty, a clean decode, no snoop, and caches hit (R425, R429). -/
def cdatLatency (s : State) (p : Die) (n : Nat) : Nat :=
  let a := rgAttr s n
  let d := homeDie a p
  let ck3 := ckThirds s d 0
  let tm := binTiming (speedBin s d 0)
  let cc := 10 + (if atCoherent a then 8 else 0) + (if atTiered a then 6 else 0) + 3 + (if atInteg a = 0 then 0 else 8) + 14
  let far := b2n (d != p) + b2n (atCoherent a && atMirror a && atHome a != p)
  hostPs (portRate0 s p) + ccPs s d cc + (16 + tm.2.1 + tm.1 + 8) * 3000000 / max 1 ck3 + 24000 * far
where
  portRate0 (s : State) (p : Die) : Nat := rf s F.HPC_LINK_STATUS.RATE p 0

/-- What a host port carries, in MB/s per direction: 0.89 of its raw rate with 256-B flits, 0.80 with 68-B flits. -/
def portMbps (s : State) (p : Die) : Nat :=
  let raw := 64000 * 2 ^ rf s F.HPC_LINK_STATUS.RATE p 0 / (if rfb s F.HPC_LINK_STATUS.WIDTH p 0 then 2 else 1)
  raw * (if rf s F.HPC_LINK_STATUS.FLIT p 0 = 0 then 80 else 89) / 100

/-- B_dram of a die with η = 0.78, w = 0 and a cool rank (R428), in MB/s. -/
def dramMbps (s : State) (d : Die) : Nat :=
  let raw := ((liveSubs s d).map (fun i => 8 * ckThirds s d (i / 2))).foldl (· + ·) 0
  let ranks := 1 + rf s F.CFE_POP.RANKS d 0
  raw * 78 * (ranks * 1950 - 4 * trfcOf (popDensity s d)) / (300 * ranks * 1950)

/-- The CDAT bandwidth of a region at a port (R429). -/
def cdatBandwidth (s : State) (p : Die) (n : Nat) : Nat := min (portMbps s p) (dramMbps s (homeDie (rgAttr s n) p))

/-- A DSMAS entry: the DLA range of a region. -/
def dsmas (s : State) (n : Nat) : List Byte :=
  [0, 0] ++ leBytes 2 24 ++ leBytes 1 n ++ [0, 0, 0] ++ leBytes 8 (rg s F.RGN_RANGE.BASE n * 2 ^ 30) ++ leBytes 8 (rgGib s n * 2 ^ 30)

/-- A DSLBIS entry: data type 1 is read latency with base 100 ps, 4 read bandwidth with base 64 MB/s. -/
def dslbis (n kind base value : Nat) : List Byte :=
  [1, 0] ++ leBytes 2 24 ++ leBytes 1 n ++ [0] ++ leBytes 1 kind ++ [0] ++ leBytes 8 base ++ leBytes 2 value ++ leBytes 6 0

/-- The regions in a port's CDAT: the enabled ones whose slot binds the port (R255). -/
def cdatRegions (s : State) (p : Die) : List Nat :=
  (List.range 64).filter (fun n => rgOn s n && bitn (bindOf s (rgAttr s n)) (dieNum p))

/-- The entries of a port's CDAT after the header. -/
def cdatEntries (s : State) (p : Die) : List (List Byte) :=
  (cdatRegions s p).flatMap (fun n =>
    [dsmas s n, dslbis n 1 100 (min 65534 (cdatLatency s p n / 100)), dslbis n 4 64 (min 65534 (cdatBandwidth s p n / 64))])

/-- The CDAT header: length, revision 1, and a sequence number that the spec does not give. -/
def cdatHeader (s : State) (p : Die) : List Byte :=
  leBytes 4 (16 + 24 * (cdatEntries s p).length) ++ [1, 0] ++ leBytes 10 0

/-- The response to a table access for entry `handle`: the next handle, 0xFFFF after the last, and the entry. -/
def cdatAnswer (s : State) (p : Die) (handle : Nat) : List Byte :=
  let all := cdatHeader s p :: cdatEntries s p
  match all[handle]? with
  | some e => [0, 0] ++ leBytes 2 (if handle + 1 < all.length then handle + 1 else 0xFFFF) ++ e
  | none => [0, 0] ++ leBytes 2 0xFFFF

/-- CDAT_TABLE_ACCESS (R255), of an entry through a port's DOE mailbox. -/
def execCdatTableAccess (port : Die) (handle : Nat) (s : State) : Host.Outcome State Fault Refusal :=
  .next (if portAlive s port then send (.doe port (cdatAnswer s port handle)) s else s)

end Sys2Proof.Machine
end

