-- ==== Sys2Proof/Machine/Mailbox.lean ====
section
/-!
DEFINITION. Sys2Proof/Machine/Mailbox.lean: the mailbox commands of Table 10.5 (R250, R251, R254, R403). Return codes and payload layouts
are those of CXL (PRESUMED, log entry 28).
-/

namespace Sys2Proof.Machine

/-! ### Answering -/

/-- The senior die's management core can carry out a mailbox command of a port: its link is not down, and the port's die is reachable
(R250, R440). -/
def mboxOpen (s : State) (p : Die) : Bool := portAlive s p && diePresent s p && !(unreachable s p)

/-- Carry out a mailbox command: a return code and a payload. -/
def mboxRun (p : Die) (f : State → Nat × List Byte × State) (s : State) : State :=
  if mboxOpen s p then
    let (ret, body, s1) := f s
    send (.mbox p ret body) s1
  else s

/-- Return codes: Success, Background Command Started, Invalid Input, Unsupported, FW Transfer In Progress, Invalid Slot, Invalid
Handle, Invalid Physical Address, Inject Poison Limit Reached. -/
def mbOk : Nat := 0
def mbBackground : Nat := 1
def mbInvalid : Nat := 2
def mbUnsupported : Nat := 3
def mbBusyFw : Nat := 8
def mbBadSlot : Nat := 0xB
def mbBadHandle : Nat := 0xE
def mbBadAddress : Nat := 0xF
def mbInjectLimit : Nat := 0x10

/-- A constant of the CXL structures that the spec does not give, in 16 bytes. -/
def cxlBytes (k : Nat) : List Byte := leBytes 16 (Config.cxlConst k).toNat

/-- IDENTIFY: component identity. -/
def execIdentify (port : Die) (s : State) : Host.Outcome State Fault Refusal :=
  .next (mboxRun port (fun t => (mbOk, (cxlBytes 0).take 8 ++ leBytes 8 (dieUid port) ++ [12], t)) s)

/-! ### Event records (R254, R403) -/

/-- A log of a port. -/
def logAt (s : State) (p : Die) (k : Nat) : LogSt := ngetD (die s p).hpc.logs k LogSt.reset

/-- The record types of Table 17.8. -/
inductive RecKind where
  | media | dram | vendor
  deriving DecidableEq, Repr

/-- The record type of an event (Table 17.8). -/
def recKind (code : Nat) : RecKind :=
  if [0x0B02, 0x0B03, 0x0913, 0x0C01, 0x0801, 0x0802].contains code then .media
  else if [0x0A06, 0x0A08, 0x0B05, 0x0C03, 0x0C05, 0x0C06, 0x0C07, 0x0C0A, 0x0914].contains code then .dram else .vendor

/-- Memory Event Type: 1 Invalid Address, 2 Data Path Error, 0 Media ECC Error (Table 17.8). -/
def memEventType (code : Nat) : Nat := if code = 0x0B02 then 1 else if code = 0x0801 ∨ code = 0x0802 then 2 else 0

/-- Transaction type of a General Media record: 1 Host Read for HP0 and HP1, 5 Internal Media Scrub for 0x0C01, else 6 Internal Media
Management; the requester port is an item of 0x0913 alone. -/
def transType (e : EventRec) : Nat :=
  if e.code = 0x0C01 then 5 else if e.code = 0x0913 ∧ (e.details.getD 12 9).toNat ≤ 1 then 1 else 6

/-- Record flags: Permanent Condition (bit 2) and Maintenance Needed (bit 3), with the log's severity in bits 1:0. -/
def recFlags (e : EventRec) : Nat :=
  (e.sev - 1) + 4 * b2n ([0x0914, 0x0A08, 0x0C0A].contains e.code) + 8 * b2n ([0x0914, 0x0C07, 0x0C0A].contains e.code)

/-- The rank, the bank group, bank and row, and the device of a DRAM record, where the event's items give them. -/
structure DramPlace where
  rank : Option Nat
  bank : Option (Nat × Nat × Nat)
  dev : Option Nat
  deriving DecidableEq, Repr

/-- The place of a home line (R84 to R88). -/
def homePlace (s : State) (h : Nat) (dev : Option Nat) : DramPlace :=
  match placeOf s h with
  | some (d, _, loc) => ⟨some (qRank s d (loc / 4)), some (qBg (loc / 4), qBank (loc / 4), qRowOf s d (loc / 4)), dev⟩
  | none => ⟨none, none, dev⟩

/-- The place that a DRAM event names. -/
def dramPlace (s : State) (e : EventRec) : DramPlace :=
  let b := fun k => (e.details.getD k 0).toNat
  if e.code = 0x0A06 ∨ e.code = 0x0B05 then ⟨some (b 0), none, some (b 1)⟩
  else if e.code = 0x0C03 ∨ e.code = 0x0C07 then homePlace s (fromLe (e.details.take 5)) (some (b 6))
  else if e.code = 0x0C05 then homePlace s (fromLe (e.details.take 5)) none
  else if e.code = 0x0C06 then ⟨some (b 0), some (b 2, b 3, fromLe ((e.details.drop 4).take 4)), some (b 1)⟩
  else if e.code = 0x0914 then ⟨some (b 0), none, none⟩ else ⟨none, none, none⟩

/-- The channel number of a DRAM record: 2 × global channel + subchannel (Table 17.8). -/
def dramChannel (loc : Nat) : Nat := 12 * fld loc 7 1 + 2 * fld loc 4 3 + fld loc 2 1

/-- The 80 bytes of a record after its header. -/
def recBody (s : State) (r : LogRec) : List Byte :=
  let e := r.ev
  match recKind e.code with
  | .vendor => padTo 80 (eventBytes e false)
  | .media => padTo 80 (leBytes 8 (r.dla.getD 0) ++ leBytes 1 (if r.dla.isSome then 2 else 0) ++ leBytes 1 (memEventType e.code) ++ leBytes 1 (transType e))
  | .dram =>
    let q := dramPlace s e
    let (bg, bank, row) := q.bank.getD (0, 0, 0)
    let valid := 1 + 2 * b2n q.rank.isSome + 4 * b2n q.dev.isSome + (if q.bank.isSome then 0x38 else 0)
    padTo 80 (leBytes 8 (r.dla.getD 0) ++ leBytes 1 (if r.dla.isSome then 2 else 0) ++ [0, 0] ++ leBytes 2 valid ++ leBytes 1 (dramChannel e.locator)
      ++ leBytes 1 (q.rank.getD 0) ++ leBytes 3 ((q.dev.map (2 ^ ·)).getD 0) ++ leBytes 1 bg ++ leBytes 1 bank ++ leBytes 3 row)

/-- The UUID of a record type. -/
def recUuid : RecKind → List Byte
  | .media => cxlBytes 1 | .dram => cxlBytes 2 | .vendor => cxlBytes 3

/-- The 128 bytes of a record. -/
def recBytes (s : State) (r : LogRec) : List Byte :=
  padTo 48 (recUuid (recKind r.ev.code) ++ [128] ++ leBytes 3 (recFlags r.ev) ++ leBytes 2 r.handle ++ [0, 0] ++ leBytes 8 r.cxlNs) ++ recBody s r

/-- GET_EVENT_RECORDS: the oldest records of a log, as many as the payload holds, and the overflow report. -/
def execGetEventRecords (port : Die) (log : Nat) (s : State) : Host.Outcome State Fault Refusal :=
  .next (mboxRun port (fun t =>
    if 4 ≤ log then (mbInvalid, [], t)
    else
      let l := logAt t port log
      let rs := l.recs.take 31
      (mbOk, padTo 32 (leBytes 1 (b2n (decide (0 < l.overflow)) + 2 * b2n (decide (31 < l.recs.length))) ++ [0] ++ leBytes 2 (min l.overflow 65535)
        ++ leBytes 8 l.firstOverNs ++ leBytes 8 l.lastOverNs ++ leBytes 2 rs.length) ++ rs.flatMap (recBytes t), t)) s)

/-- CLEAR_EVENT_RECORDS: all records, or those with the handles given, which must be the oldest in order. -/
def execClearEventRecords (port : Die) (log : Nat) (all : Bool) (handles : List Nat) (s : State) : Host.Outcome State Fault Refusal :=
  .next (mboxRun port (fun t =>
    if 4 ≤ log then (mbInvalid, [], t)
    else
      let l := logAt t port log
      let put := fun (rs : List LogRec) =>
        onHpc port (fun h => { h with logs := nset h.logs log { l with recs := rs, overflow := 0, firstOverNs := 0, lastOverNs := 0 } }) t
      if all then (mbOk, [], put [])
      else if (l.recs.take handles.length).map (·.handle) = handles then (mbOk, [], put (l.recs.drop handles.length))
      else (mbBadHandle, [], t)) s)

/-- GET_EVENT_INTERRUPT_POLICY: mode and vector of each log. -/
def execGetEventInterruptPolicy (port : Die) (s : State) : Host.Outcome State Fault Refusal :=
  .next (mboxRun port (fun t => (mbOk, (List.range 4).map (fun k => BitVec.ofNat 8 (ngetD (die t port).hpc.irqPolicy k 0)), t)) s)

/-- SET_EVENT_INTERRUPT_POLICY: mode (bits 1:0, 1 MSI-X) and vector (bits 7:4) of each log. -/
def execSetEventInterruptPolicy (port : Die) (policy : List Nat) (s : State) : Host.Outcome State Fault Refusal :=
  .next (mboxRun port (fun t =>
    if policy.length ≠ 4 ∨ policy.any (fun v => decide (256 ≤ v)) then (mbInvalid, [], t)
    else (mbOk, [], onHpc port (fun h => { h with irqPolicy := policy.zipIdx.foldl (fun m q => nset m q.2 q.1) [] }) t)) s)

/-! ### Firmware -/

/-- Whether a firmware slot holds a signed image. -/
def fwValid (s : State) (slot : Nat) : Bool := if slot = 0 then s.dev.flash.fw0 else s.dev.flash.fw1

/-- GET_FW_INFO: two slots, the one whose firmware runs, the one staged for the next cold reset, no online activation, and the
revision of each. -/
def execGetFwInfo (port : Die) (s : State) : Host.Outcome State Fault Refusal :=
  .next (mboxRun port (fun t =>
    let staged := if t.dev.flash.fwActive = t.fw.running then 0 else t.dev.flash.fwActive + 1
    (mbOk, padTo 16 (leBytes 1 2 ++ leBytes 1 ((t.fw.running + 1) + 8 * staged)) ++
      (List.range 2).flatMap (fun k => if fwValid t k then cxlBytes (8 + k) else leBytes 16 0), t)) s)

/-- TRANSFER_FW: the inactive slot is written in the background; until it has been, it is not valid. -/
def execTransferFw (port : Die) (slot : Nat) (s : State) : Host.Outcome State Fault Refusal :=
  .next (mboxRun port (fun t =>
    if t.fw.xfer.isSome then (mbBusyFw, [], t)
    else if 2 ≤ slot ∨ slot = t.fw.running then (mbBadSlot, [], t)
    else (mbBackground, [], flashJob (.firmware slot) { t with fw := { t.fw with xfer := some (port, slot) }, dev := { t.dev with flash :=
            { t.dev.flash with fw0 := t.dev.flash.fw0 && slot != 0, fw1 := t.dev.flash.fw1 && slot != 1 } } })) s)

/-- A firmware transfer has been written: the slot holds a signed image, or not. -/
def transferDone (signed : Bool) (s : State) : State :=
  match s.fw.xfer with
  | none => s
  | some (_, slot) =>
    let fl := s.dev.flash
    let jobs := fl.jobs.filter (fun j => j != .firmware slot)
    wfc F.CFG_STATUS.UPDATING (b2n (!jobs.isEmpty)) 0
      { s with fw := { s.fw with xfer := none },
               dev := { s.dev with flash := { fl with fw0 := if slot = 0 then signed else fl.fw0, fw1 := if slot = 1 then signed else fl.fw1,
                                                      jobs := jobs } } }

/-- TRANSFER_FW_DONE. -/
def execTransferFwDone (signed : Bool) (s : State) : Host.Outcome State Fault Refusal := .next (transferDone signed s)

/-- ACTIVATE_FW: at the next cold reset only; online activation is Unsupported. -/
def execActivateFw (port : Die) (slot : Nat) (online : Bool) (s : State) : Host.Outcome State Fault Refusal :=
  .next (mboxRun port (fun t =>
    if online then (mbUnsupported, [], t)
    else if 2 ≤ slot ∨ fwValid t slot = false then (mbBadSlot, [], t)
    else (mbOk, [], { t with dev := { t.dev with flash := { t.dev.flash with fwActive := slot } } })) s)

/-! ### Time, logs and identity -/

/-- GET_TIMESTAMP: the CXL time base. -/
def execGetTimestamp (port : Die) (s : State) : Host.Outcome State Fault Refusal :=
  .next (mboxRun port (fun t => (mbOk, leBytes 8 (cxlNow t), t)) s)

/-- SET_TIMESTAMP: the timestamps of event rings stay ns since reset. -/
def execSetTimestamp (port : Die) (ns : Nat) (s : State) : Host.Outcome State Fault Refusal :=
  .next (mboxRun port (fun t => (mbOk, [], { t with cxlOffset := (ns : Int) - t.nowNs })) s)

/-- The mailbox commands supported (Table 10.5). -/
def mboxOpcodes : List Nat :=
  [0x0001, 0x0100, 0x0101, 0x0102, 0x0103, 0x0200, 0x0201, 0x0202, 0x0300, 0x0301, 0x0400, 0x0401, 0x4000, 0x4200, 0x4201, 0x4202, 0x4300,
   0x4301, 0x4302]

/-- The command effects log: each opcode with its effects, which the spec does not give. -/
def effectsLog : List Byte := mboxOpcodes.flatMap (fun o => leBytes 2 o ++ leBytes 2 ((Config.cxlConst (0x10000 + o)).toNat % 65536))

/-- The freeze-record log: the records that both dies hold, slot by slot. -/
def freezeLog (s : State) : List Byte := (diesPresent s).flatMap (fun d => (die s d).frz.flatMap (fun q => q.2.bytes))

/-- A log by number: 0 command effects, 1 freeze records. -/
def logBytes (s : State) (k : Nat) : List Byte := if k = 0 then effectsLog else freezeLog s

/-- GET_SUPPORTED_LOGS. -/
def execGetSupportedLogs (port : Die) (s : State) : Host.Outcome State Fault Refusal :=
  .next (mboxRun port (fun t =>
    (mbOk, leBytes 8 2 ++ cxlBytes 4 ++ leBytes 4 (logBytes t 0).length ++ cxlBytes 5 ++ leBytes 4 (logBytes t 1).length, t)) s)

/-- GET_LOG: bytes of a log, within the 4 KiB payload. -/
def execGetLog (port : Die) (log : Nat) (offset : Nat) (len : Nat) (s : State) : Host.Outcome State Fault Refusal :=
  .next (mboxRun port (fun t =>
    if 2 ≤ log ∨ 4096 < len ∨ (logBytes t log).length < offset + len then (mbInvalid, [], t)
    else (mbOk, ((logBytes t log).drop offset).take len, t)) s)

/-- IDENTIFY_MEMORY_DEVICE: 8 TiB of volatile capacity, no persistent capacity, four logs of 256 records, 256 poison records, an inject
limit of 64. -/
def execIdentifyMemoryDevice (port : Die) (s : State) : Host.Outcome State Fault Refusal :=
  .next (mboxRun port (fun t =>
    (mbOk, cxlBytes (8 + t.fw.running) ++ leBytes 8 32768 ++ leBytes 8 32768 ++ leBytes 8 0 ++ leBytes 8 0 ++ leBytes 2 256 ++ leBytes 2 256
      ++ leBytes 2 256 ++ leBytes 2 256 ++ leBytes 4 0 ++ leBytes 3 256 ++ leBytes 2 64 ++ [0, 0], t)) s)

/-- The corrected errors counted by device on both dies. -/
def correctedErrors (s : State) : Nat :=
  ((diesPresent s).map (fun d => ((die s d).subs.map (fun q => (q.2.devcnt.map (·.2)).foldl (· + ·) 0)).foldl (· + ·) 0)).foldl (· + ·) 0

/-- Health status: maintenance needed for any cause of DEGRADED, performance degraded, hardware replacement for a lost die. -/
def healthStatus (s : State) : Nat :=
  b2n (anyCause s) + 2 * b2n (s.dev.mode == .degraded) + 4 * (rfc s F.DEV_STATUS.DEG_DIE)

/-- GET_HEALTH_INFO. -/
def execGetHealthInfo (port : Die) (s : State) : Host.Outcome State Fault Refusal :=
  .next (mboxRun port (fun t =>
    (mbOk, leBytes 1 (healthStatus t) ++ leBytes 1 (b2n !(serving t)) ++ [0, 0] ++ leBytes 2 ((tjHighest t % 65536 + 65536).toNat % 65536) ++ leBytes 4 0
      ++ leBytes 4 (min (correctedErrors t) 0xFFFFFFFF) ++ leBytes 4 0, t)) s)

/-- GET_ALERT_CONFIGURATION. -/
def execGetAlertConfiguration (port : Die) (s : State) : Host.Outcome State Fault Refusal :=
  .next (mboxRun port (fun t => (mbOk, padTo 16 (die t port).hpc.alerts, t)) s)

/-- SET_ALERT_CONFIGURATION. -/
def execSetAlertConfiguration (port : Die) (config : List Byte) (s : State) : Host.Outcome State Fault Refusal :=
  .next (mboxRun port (fun t => (mbOk, [], onHpc port (fun h => { h with alerts := padTo 16 config }) t)) s)

/-! ### Poison (R251, R252) -/

/-- The region and DLA whose data lie at a home line: of a flat region, or of a tiered page in a frame. -/
def dlaAt (s : State) (h : Nat) : Option (Nat × Nat) :=
  match flatOf s h with
  | some x => some x
  | none =>
    let d := dieOf (fld h 35 1)
    let frame := fld h 0 35 / 64
    match backingOf s h, (tme s d).pages.find? (fun q => q.2.tier == tT0 && q.2.place == frame) with
    | some n, some (key, _) =>
      some (n, rg s F.RGN_RANGE.BASE n * 2 ^ 30 + (key - rg s F.RGN_MAP.MAP_G n * 262144) * 4096 + 64 * (h % 64))
    | _, _ => none

/-- The lines that DRAM holds as poison on a die, as DLAs of regions bound to a port. -/
def poisonedOn (s : State) (p d : Die) : List Nat :=
  (die s d).subs.flatMap (fun q => q.2.cells.filterMap (fun c =>
    let h := cellHome s d q.1 c.1
    if (decodeLine h (markOf s d q.1 (qRank s d (c.1 / 4))) c.2).outc = .poison then
      (dlaAt s h).bind (fun x => if bitn (bindOf s (rgAttr s x.1)) (dieNum p) then some x.2 else none)
    else none))

/-- GET_POISON_LIST: of a DLA range, at most 256 records. -/
def execGetPoisonList (port : Die) (dla : Nat) (len : Nat) (s : State) : Host.Outcome State Fault Refusal :=
  .next (mboxRun port (fun t =>
    let ls := (((diesPresent t).flatMap (poisonedOn t port)).eraseDups.filter (fun a => decide (dla ≤ a) && decide (a < dla + len)))
    let rs := ls.take 254
    (mbOk, padTo 32 (leBytes 1 (b2n (decide (rs.length < ls.length))) ++ leBytes 9 0 ++ leBytes 2 rs.length)
      ++ rs.flatMap (fun a => leBytes 8 (a + 1) ++ leBytes 4 1 ++ leBytes 4 0), t)) s)

/-- The region of a DLA that a port could write (R185, R251, Table 1.5). -/
def portWrites (s : State) (p : Die) (dla : Nat) : Option Nat :=
  if hostBarred s p then none
  else (regionOf s dla).filter (fun n =>
    let a := rgAttr s n
    bitn (bindOf s a) (dieNum p) && atOwner a != 1 && !(atCoherent a && !(portDb s p)))

/-- A mailbox command writes a line: it is ordered with the port's writes (Table 10.7). -/
def mboxWrite (p : Die) (n dla : Nat) (l : LineData) (s : State) : State :=
  present { asker := .nobody, kind := .wr, issuer := p, port := hostPort p, agent := none, metaS := false, region := n, attr := rgAttr s n,
            dla := dla / 64 * 64, data := l, mask := BitVec.allOnes 64, track := none } s

/-- INJECT_POISON: the line is written as poison; at most 64 lines stand injected. -/
def injectPoison (p : Die) (dla : Nat) (s : State) : Nat × List Byte × State :=
  if rfc s F.SEC_POLICY.LOCKDOWN = 1 then (mbUnsupported, [], s)
  else
    match portWrites s p dla with
    | none => (mbBadAddress, [], s)
    | some n =>
      let a := dla / 64 * 64
      if 64 ≤ s.injected.length ∧ s.injected.contains a = false then (mbInjectLimit, [], s)
      else (mbOk, [], mboxWrite p n a ⟨0, true⟩ { s with injected := if s.injected.contains a then s.injected else s.injected ++ [a] })

/-- CLEAR_POISON: the supplied 64 bytes are written over the line. -/
def clearPoison (p : Die) (dla : Nat) (data : Line) (s : State) : Nat × List Byte × State :=
  if rfc s F.SEC_POLICY.LOCKDOWN = 1 then (mbUnsupported, [], s)
  else
    match portWrites s p dla with
    | none => (mbBadAddress, [], s)
    | some n => (mbOk, [], mboxWrite p n dla ⟨data, false⟩ { s with injected := s.injected.filter (· != dla / 64 * 64) })

/-- INJECT_POISON. -/
def execInjectPoison (port : Die) (dla : Nat) (s : State) : Host.Outcome State Fault Refusal :=
  .next (settle (mboxRun port (injectPoison port dla) s))

/-- CLEAR_POISON. -/
def execClearPoison (port : Die) (dla : Nat) (data : Line) (s : State) : Host.Outcome State Fault Refusal :=
  .next (settle (mboxRun port (clearPoison port dla data) s))

/-- MAILBOX_UNSUPPORTED: every command that Table 10.5 does not list; a listed one has a command of its own. -/
def execMailboxUnsupported (port : Die) (opcode : Nat) (s : State) : Host.Outcome State Fault Refusal :=
  .next (if mboxOpcodes.contains opcode then s else mboxRun port (fun t => (mbUnsupported, [], t)) s)

end Sys2Proof.Machine
end

