-- ==== Sys2Proof/Machine/Spdm.lean ====
section
/-!
DEFINITION. Sys2Proof/Machine/Spdm.lean: the SPDM responder of the senior die (R207 to R210), the requests that a secure session carries
(R204, R206, R208), and LOCKDOWN's exception for them. Message codes and bodies are those of SPDM (PRESUMED, log entry 29); digests are
SHA-384, and what a signature, a certificate or an exchange value is, is left open (Config.spdmCrypto).
-/

namespace Sys2Proof.Machine

/-! ### Answering -/

/-- Change the responder. -/
def onSpdm (f : SpdmSt → SpdmSt) (s : State) : State := { s with spdm := f s.spdm }

/-- The transcript takes a message's numbers. -/
def hear (ns : List Nat) : State → State := onSpdm (fun x => { x with transcript := x.transcript ++ ns })

/-- An ERROR response. -/
def spdmError (p : Die) (e : Nat) : State → State := send (.spdm p 0x7F e 0 [])

/-- Error codes: InvalidRequest, InvalidSession, UnexpectedRequest, UnsupportedRequest, LargeResponse. -/
def seInvalid : Nat := 1
def seSession : Nat := 2
def seUnexpected : Nat := 4
def seUnsupported : Nat := 7
def seLarge : Nat := 0x0F

/-- A response; a body longer than the requester takes is kept to be fetched in chunks. -/
def spdmSend (p : Die) (code p1 p2 : Nat) (body : List Byte) (s : State) : State :=
  let s1 := hear [code, p1, p2, fromLe body] s
  if s.spdm.limit < body.length then
    send (.spdm p 0x7F seLarge 0 [1]) (onSpdm (fun x => { x with chunkOut := some (1, 0, body) }) s1)
  else send (.spdm p code p1 p2 body) s1

/-- A request that reaches the responder through a port's DOE mailbox when negotiation has come far enough (R207). -/
def spdmRun (p : Die) (stage : Nat) (f : State → State) (s : State) : State :=
  if mboxOpen s p = false then s
  else if s.spdm.stage < stage then spdmError p seUnexpected s
  else f s

/-- A request inside an open session. -/
def inSession (p : Die) (n : Nat) (f : SpdmSess → State → State) (s : State) : State :=
  spdmRun p 3 (fun t => match nget t.spdm.sessions n with
    | some x => if x.open_ then f x t else spdmError p seSession t
    | none => spdmError p seSession t) s

/-- What the responder's cryptography answers to a transcript with a private key: kind 1 a signature, 4 exchange data, 5 a CSR. The key is the
alias key, or for a CSR the identity key (Table 8.1). -/
def crypto (kind : Nat) (s : State) : List Byte :=
  let key := if kind = 5 then s.msx.identity else s.msx.alias_
  Config.spdmCrypto kind ((key.map (·.toNat)).getD 0 :: s.spdm.transcript)

/-- A SHA-384 digest of bytes. -/
def digest (bs : List Byte) : List Byte := (sha384 (bs.map (·.toNat))).map (BitVec.ofNat 8)

/-! ### Negotiation -/

/-- SPDM_GET_VERSION: negotiation starts anew; the responder is of SPDM 1.3. -/
def execSpdmGetVersion (port : Die) (s : State) : Host.Outcome State Fault Refusal :=
  .next (spdmRun port 0 (fun t =>
    spdmSend port 0x04 0 0 [0, 1, 0x00, 0x13] (onSpdm (fun x => { x with stage := 1, transcript := [], chunkIn := none, chunkOut := none }) t)) s)

/-- SPDM_GET_CAPABILITIES: `limit` is the longest response that the requester takes. -/
def execSpdmGetCapabilities (port : Die) (limit : Nat) (s : State) : Host.Outcome State Fault Refusal :=
  .next (spdmRun port 1 (fun t =>
    spdmSend port 0x61 0 0 (leBytes 16 (Config.cxlConst 32).toNat) (hear [limit] (onSpdm (fun x => { x with stage := 2, limit := max 42 limit }) t))) s)

/-- SPDM_NEGOTIATE_ALGORITHMS: of what the requester offers, ECDSA P-384, SHA-384, secp384r1 and AES-256-GCM are taken. -/
def execSpdmNegotiateAlgorithms (port : Die) (asym hash dhe aead : Nat) (s : State) : Host.Outcome State Fault Refusal :=
  .next (spdmRun port 2 (fun t =>
    spdmSend port 0x63 0 0 (leBytes 4 (asym &&& 0x80) ++ leBytes 4 (hash &&& 0x02) ++ leBytes 2 (dhe &&& 0x10) ++ leBytes 2 (aead &&& 0x02) ++ leBytes 2 1)
      (hear [asym, hash, dhe, aead] (onSpdm (fun x => { x with stage := 3 }) t))) s)

/-! ### Certificates and attestation (Table 8.6) -/

/-- What measurement 2 covers: the management firmware of a slot (DEDUCED: its contents by their identity, log entry 29). -/
def fwBytes (k : Nat) : List Byte := leBytes 1 k ++ leBytes 16 (Config.cxlConst (8 + k)).toNat

/-- The measurement of the management firmware, out of which the alias key is made (Table 8.1). -/
def fwMeasure (k : Nat) : List Nat := sha384 ((fwBytes k).map (·.toNat))

/-- The chain of a certificate slot (Table 8.6, R182): 0 is the DeviceID chain of the senior die, 1 the alias certificate that the identity key
issues at each boot, 2 to 7 are owner chains. -/
def certChain (s : State) (slot : Nat) : Option (List Byte) :=
  let d := dieNum (seniorDie s)
  if slot = 0 then some (Config.spdmCrypto 3 [0, d])
  else if slot = 1 then
    (match s.msx.identity, s.msx.alias_ with
     | some i, some a => some (Config.spdmCrypto 3 [1, d, i.toNat, a.toNat])
     | _, _ => none)
  else nget s.dev.flash.certs slot

/-- The slots that hold a chain. -/
def certSlots (s : State) : List Nat := (List.range 8).filter (fun k => (certChain s k).isSome)

/-- DIGESTS: the slots that hold a chain, and the digest of each. -/
def getDigests (p : Die) (t : State) : State :=
  spdmSend p 0x01 0 ((certSlots t).foldl (fun v k => v + 2 ^ k) 0) ((certSlots t).flatMap (fun k => digest ((certChain t k).getD []))) t

/-- SPDM_GET_DIGESTS. -/
def execSpdmGetDigests (port : Die) (s : State) : Host.Outcome State Fault Refusal := .next (spdmRun port 3 (getDigests port) s)

/-- CERTIFICATE: a part of a slot's chain, and how much follows it. -/
def getCertificate (p : Die) (slot offset len : Nat) (t : State) : State :=
  match certChain t slot with
  | none => spdmError p seInvalid t
  | some c =>
    let part := (c.drop offset).take len
    spdmSend p 0x02 slot 0 (leBytes 2 part.length ++ leBytes 2 (c.length - offset - part.length) ++ part) (hear [slot, offset, len] t)

/-- SPDM_GET_CERTIFICATE. -/
def execSpdmGetCertificate (port : Die) (slot offset len : Nat) (s : State) : Host.Outcome State Fault Refusal :=
  .next (spdmRun port 3 (getCertificate port slot offset len) s)

/-- CHALLENGE_AUTH: signed. -/
def challenge (p : Die) (slot nonce : Nat) (t : State) : State :=
  if (certChain t slot).isNone then spdmError p seInvalid t
  else let t1 := hear [slot, nonce] t; spdmSend p 0x03 slot 0 (padTo 96 (crypto 1 t1)) t1

/-- SPDM_CHALLENGE. -/
def execSpdmChallenge (port : Die) (slot nonce : Nat) (s : State) : Host.Outcome State Fault Refusal :=
  .next (spdmRun port 3 (challenge port slot nonce) s)

/-- Register words as bytes. -/
def wordBytes (ws : List Nat) : List Byte := ws.flatMap (leBytes 4)

/-- What a measurement covers (Table 8.6): ROM, firmware, the image that was booted, policy and debug state, descriptors and slots, identity. -/
def measured (s : State) (i : Nat) : List Byte :=
  if i = 1 then leBytes 8 (Config.silicon 16).toNat
  else if i = 2 then fwBytes s.fw.running
  else if i = 3 then s.dev.image.getD []
  else if i = 4 then wordBytes [rdReg s .SEC_POLICY .east 0, b2n s.spdm.debug]
  else if i = 5 then
    wordBytes ((List.range 64).flatMap (fun n => [rdReg s .RGN_RANGE .east n, rdReg s .RGN_ATTR .east n, rdReg s .RGN_PLACE .east n,
      rdReg s .RGN_MAP .east n, rdReg s .RGN_CTRL .east n]) ++ (List.range 256).flatMap (fun k => [slotInfo s k, slotDom s k]))
  else wordBytes [partCap s.dev.part, identView s .IDENT_DIE .east, identView s .IDENT_DIE .west] ++ leBytes 8 (dieUid .east) ++
    leBytes 8 (dieUid .west) ++ wordBytes [partId s.dev.part]

/-- One measurement block in the DMTF format: index, specification, size, kind, size, and the SHA-384 digest. -/
def measBlock (s : State) (i : Nat) : List Byte :=
  leBytes 1 i ++ [1] ++ leBytes 2 51 ++ leBytes 1 (i - 1) ++ leBytes 2 48 ++ digest (measured s i)

/-- MEASUREMENTS: 0 asks how many there are, 0xFF for all, 1 to 6 for one; `signed` adds a signature. -/
def getMeasurements (p : Die) (index : Nat) (signed : Bool) (t : State) : State :=
  let ids := if index = 0xFF then [1, 2, 3, 4, 5, 6] else [index]
  if index ≠ 0xFF ∧ 6 < index then spdmError p seInvalid t
  else
    let t1 := hear [index, b2n signed] t
    let body := if index = 0 then leBytes 1 0 ++ leBytes 3 0 else leBytes 1 ids.length ++ leBytes 3 (55 * ids.length) ++ ids.flatMap (measBlock t)
    spdmSend p 0x60 (if index = 0 then 6 else 0) 0 (body ++ (if signed then padTo 96 (crypto 1 t1) else [])) t1

/-- SPDM_GET_MEASUREMENTS. -/
def execSpdmGetMeasurements (port : Die) (index : Nat) (signed : Bool) (s : State) : Host.Outcome State Fault Refusal :=
  .next (spdmRun port 3 (getMeasurements port index signed) s)

/-! ### Sessions -/

/-- SPDM_KEY_EXCHANGE: a session begins, with mutual authentication asked for. -/
def execSpdmKeyExchange (port : Die) (session slot : Nat) (s : State) : Host.Outcome State Fault Refusal :=
  .next (spdmRun port 3 (fun t =>
    if (certChain t slot).isNone ∨ (nget t.spdm.sessions session).isSome then spdmError port seInvalid t
    else
      let t1 := hear [session, slot] (onSpdm (fun x => { x with sessions := nset x.sessions session ⟨false, false, 0⟩ }) t)
      spdmSend port 0x64 0 0 (leBytes 2 session ++ [1] ++ padTo 96 (crypto 4 t1) ++ padTo 96 (crypto 1 t1)) t1) s)

/-- SPDM_FINISH: `valid` is whether the requester's signature and MAC verify, `root` the certificate slot of the owner root in which its
chain ends, if any (R208). -/
def execSpdmFinish (port : Die) (session : Nat) (valid : Bool) (root : Option Nat) (s : State) : Host.Outcome State Fault Refusal :=
  .next (spdmRun port 3 (fun t =>
    match nget t.spdm.sessions session with
    | none => spdmError port seSession t
    | some x =>
      if x.open_ then spdmError port seUnexpected t
      else if valid = false then spdmError port seInvalid (onSpdm (fun y => { y with sessions := nerase y.sessions session }) t)
      else
        let owner := match root with
          | some k => decide (2 ≤ k) && (certSlots t).contains k
          | none => false
        spdmSend port 0x65 0 0 [] (onSpdm (fun y => { y with sessions := nset y.sessions session ⟨true, owner, 0⟩ }) t)) s)

/-- SPDM_HEARTBEAT, in a session. -/
def execSpdmHeartbeat (port : Die) (session : Nat) (s : State) : Host.Outcome State Fault Refusal :=
  .next (inSession port session (fun _ => spdmSend port 0x68 0 0 []) s)

/-- SPDM_KEY_UPDATE: the session's keys are updated. -/
def execSpdmKeyUpdate (port : Die) (session op tag : Nat) (s : State) : Host.Outcome State Fault Refusal :=
  .next (inSession port session (fun x t =>
    spdmSend port 0x69 op tag [] (onSpdm (fun y => { y with sessions := nset y.sessions session { x with updates := x.updates + 1 } }) t)) s)

/-- SPDM_END_SESSION. -/
def execSpdmEndSession (port : Die) (session : Nat) (s : State) : Host.Outcome State Fault Refusal :=
  .next (inSession port session (fun _ t =>
    spdmSend port 0x6C 0 0 [] (onSpdm (fun y => { y with sessions := nerase y.sessions session }) t)) s)

/-- CSR. -/
def getCsr (p : Die) (t : State) : State := spdmSend p 0x6D 0 0 (crypto 5 t) t

/-- SPDM_GET_CSR. -/
def execSpdmGetCsr (port : Die) (s : State) : Host.Outcome State Fault Refusal :=
  .next (spdmRun port 3 (getCsr port) s)

/-- The secrets area of the flash is written anew: `cak` is as it is sealed there (R206, Table 16.6). -/
def writeSecrets (cak : Option Key) (certs : NMap (List Byte)) (s : State) : State :=
  flashJob (.secrets cak certs) { s with dev := { s.dev with flash := { s.dev.flash with cak := cak, certs := certs } } }

/-- SPDM_SET_CERTIFICATE: an owner chain for slot 2 to 7, inside a session. -/
def execSpdmSetCertificate (port : Die) (session slot : Nat) (chain : List Byte) (s : State) : Host.Outcome State Fault Refusal :=
  .next (inSession port session (fun _ t =>
    if slot < 2 ∨ 7 < slot then spdmError port seInvalid t
    else spdmSend port 0x6E slot 0 [] (writeSecrets t.dev.flash.cak (nset t.dev.flash.certs slot chain) t)) s)

/-- A large request whose chunks have all come is carried out: the requests that need no session (DSP0274's codes; PRESUMED, log entry 29).
The chunks carry no session, so that what needs one is refused. -/
def spdmLarge (p : Die) (bs : List Byte) (t : State) : State :=
  let num := fun (o n : Nat) => fromLe ((bs.drop o).take n)
  let code := num 1 1
  let at3 := fun (f : State → State) => if t.spdm.stage < 3 then spdmError p seUnexpected t else f t
  if code = 0x81 then at3 (getDigests p)
  else if code = 0x82 then at3 (getCertificate p (num 2 1 % 16) (num 4 2) (num 6 2))
  else if code = 0x83 then at3 (challenge p (num 2 1 % 16) (num 4 32))
  else if code = 0xE0 then at3 (getMeasurements p (num 3 1) (num 2 1 % 2 == 1))
  else if code = 0xED then at3 (getCsr p)
  else if code = 0xEE ∨ code = 0xFE then spdmError p seSession t
  else spdmError p seUnsupported t

/-- SPDM_CHUNK_SEND: the chunks of a large request, in order; once the last has come the request is carried out. -/
def execSpdmChunkSend (port : Die) (handle seq : Nat) (last : Bool) (bytes : List Byte) (s : State) : Host.Outcome State Fault Refusal :=
  .next (spdmRun port 2 (fun t =>
    let sofar := match t.spdm.chunkIn with
      | some (h, n, bs) => if h = handle ∧ n + 1 = seq then some bs else none
      | none => none
    let take := if seq = 0 then some [] else sofar
    match take with
    | none => spdmError port seInvalid (onSpdm (fun x => { x with chunkIn := none }) t)
    | some bs =>
      spdmSend port 0x05 (b2n last) handle (leBytes 2 seq)
        (onSpdm (fun x => { x with chunkIn := if last then none else some (handle, seq, bs ++ bytes) }) t)
        |> onlyIf last (spdmLarge port (bs ++ bytes))) s)

/-- SPDM_CHUNK_GET: the next chunk of a large response. -/
def execSpdmChunkGet (port : Die) (handle seq : Nat) (s : State) : Host.Outcome State Fault Refusal :=
  .next (spdmRun port 2 (fun t =>
    match t.spdm.chunkOut with
    | some (h, n, bs) =>
      if h ≠ handle ∨ n ≠ seq then spdmError port seInvalid t
      else
        let k := t.spdm.limit
        let rest := bs.drop k
        send (.spdm port 0x06 (b2n rest.isEmpty) handle (leBytes 2 seq ++ bs.take k))
          (onSpdm (fun x => { x with chunkOut := if rest.isEmpty then none else some (h, n + 1, rest) }) t)
    | none => spdmError port seInvalid t) s)

/-! ### Requests of a secure session (R204, R206, R208, R210) -/

/-- The status of a key descriptor of a session before its own checks: its opcode, the mode, LOCKDOWN. -/
def sessionCheck (s : State) (x : SpdmSess) (e : Desc) : Nat :=
  if e.op < 0x60 ∨ 0x65 < e.op then 2
  else if modeAdmits s e = false then 9
  else if fld (e.num 1 1) 3 5 ≠ 0 then 3
  else if rfc s F.SEC_POLICY.LOCKDOWN = 1 ∧ e.op ≠ 0x64 ∧ x.owner = false then 6 else 0

/-- A key descriptor of a session is carried out, and the completion is the response; that of a SANITIZE comes when it is done (R208). -/
def sessionDesc (p : Die) (x : SpdmSess) (b : Line) (s : State) : State :=
  let e : Desc := ⟨0, 0, b, 0, 0, [], [], []⟩
  let st := sessionCheck s x e
  if st ≠ 0 then vendorResp p (respBytes e.tag st 0 0) s
  else if e.op = 0x65 then
    (let st2 := saniStatus e s
     if st2 ≠ 0 then vendorResp p (respBytes e.tag st2 0 0) s
     else saniEnter ⟨none, some (p, e.tag), bitn (e.num 8 1) 0, bitn (e.num 8 1) 1, false, false, false⟩ s)
  else
    let (st2, r0, r1, t) := keyRun e 2 s
    vendorResp p (respBytes e.tag st2 r0 r1) t

/-- VENDOR_DEFINED_REQUEST (R208): a 64-B descriptor of Table 8.3 in a session. -/
def execVendorDefinedRequest (port : Die) (session : Nat) (desc : Line) (s : State) : Host.Outcome State Fault Refusal :=
  .next (settle (inSession port session (fun x => sessionDesc port x desc) s))

/-- A CAK is installed: sealed in flash under the sealing key, and in use from now on (R206). -/
def installCak (cak : Key) (s : State) : State :=
  { writeSecrets (s.msx.sealing.map (fun k => sealKey k cak)) s.dev.flash.certs s with msx := { s.msx with cak := some cak } }

/-- CAK_INSTALL (R206). -/
def execCakInstall (port : Die) (session : Nat) (cak : Key) (s : State) : Host.Outcome State Fault Refusal :=
  .next (inSession port session (fun _ t => vendorResp port [0] (installCak cak t)) s)

/-- IDE_KM_KEY_PROG (R204): the keys of a port's IDE stream; `offers` is whether the link partner offers IDE (Table 10.1). -/
def execIdeKmKeyProg (port : Die) (session : Nat) (key : Key) (offers : Bool) (s : State) : Host.Outcome State Fault Refusal :=
  .next (inSession port session (fun _ t =>
    vendorResp port [0] (if offers then wf F.HPC_LINK_STATUS.IDE_SECURE port 0 1 (onHpc port (fun h => { h with ide := some key }) t) else t)) s)

/-- DEBUG_TOKEN (R210): with a token that Skovhan has signed, SANITIZE with OVERWRITE and PURGE_SECRETS, and then debug access. -/
def execDebugToken (port : Die) (session : Nat) (signed : Bool) (s : State) : Host.Outcome State Fault Refusal :=
  .next (settle (inSession port session (fun _ t =>
    if signed = false then spdmError port seInvalid t
    else if serving t = false ∨ t.dev.trans.isSome then vendorResp port (respBytes 0 9 0 0) t
    else saniEnter ⟨none, some (port, 0), true, true, true, false, false⟩ t) s))

end Sys2Proof.Machine
end

