-- ==== Sys2Proof/Machine/Boot.lean ====
section
/-!
DEFINITION. Sys2Proof/Machine/Boot.lean: the flash and the Makody image (R372 to R377), power good and the resets (R448 to R453), the boot
sequence (Table 16.9) and the exit from TRAIN (R134, R367, R368).
-/

namespace Sys2Proof.Machine

/-! ### The Makody image (R373, R374) -/

/-- A little-endian number at an offset of some bytes. -/
def numAt (bs : List Byte) (o n : Nat) : Nat := fromLe ((bs.drop o).take n)

/-- The number of a part (DEV_CAP.PART). -/
def partNum : Part → Nat
  | .km1624 => 0 | .km1622 => 1 | .km1612 => 2 | .km1602 => 3

/-- The first check of R373 that an image fails, in the rule's order from 1. -/
def imageFault (s : State) (bs : List Byte) : Option Nat :=
  let len := numAt bs 8 4
  if bs.length < 32 ∨ numAt bs 0 4 ≠ 0x59444B4D then some 1
  else if numAt bs 4 1 ≠ 1 then some 2
  else if len < 36 ∨ 983040 < len ∨ len % 4 ≠ 0 ∨ bs.length < len then some 3
  else if bitn (numAt bs 16 1) (partNum s.dev.part) = false then some 4
  else if crc32Std (bs.take (len - 4)) ≠ numAt bs (len - 4) 4 then some 5
  else if s.dev.signKey ∧ Config.imageSigned bs = false then some 6 else none

/-- The sections of an image from an offset on: type and body (R374). -/
def sectionsAt (bs : List Byte) : Nat → Nat → List (Nat × List Byte)
  | 0, _ => []
  | n + 1, o => (numAt bs o 4, (bs.drop (o + 8)).take (numAt bs (o + 4) 4)) :: sectionsAt bs n ((o + 8 + numAt bs (o + 4) 4 + 7) / 8 * 8)

/-- The sections of an image, in order. -/
def sections (bs : List Byte) : List (Nat × List Byte) := sectionsAt bs (numAt bs 6 2) 32

/-- The whole records of n bytes of a section's body. -/
def recordsOf (n : Nat) (body : List Byte) : List (List Byte) := (List.range (body.length / n)).map (fun k => (body.drop (k * n)).take n)

/-- The records of every section of a type of the booted image, in image order. -/
def imageRecords (s : State) (type n : Nat) : List (List Byte) :=
  match s.dev.image with
  | none => []
  | some bs => ((sections bs).filter (fun p => p.1 == type)).flatMap (fun p => recordsOf n p.2)

/-- The bits of a copy of a register that the image sets: N of a CKS-M is derived (R350), and DIV_F is a field of a CKS-M alone. -/
def imageBits (r : RegName) (i : Nat) : Nat :=
  match r with
  | .CKS_PLAN => if isM i then 0x30000 else imageMask r
  | .CKS_OUT0 | .CKS_OUT1 | .CKS_OUT2 | .CKS_OUT3 | .CKS_OUT4 | .CKS_OUT5 => if isM i then imageMask r else imageMask r &&& 0xFFC0FFFF
  | _ => imageMask r

/-- Whether a register holds one value for both windows (R433). -/
def sharedReg (r : RegName) : Bool :=
  match r with
  | .FPC_NODE | .PMC_THERM_CFG | .LKE_CFG | .LKE_TBL_SEL => true
  | _ => false

/-- A pair of a REGISTERS section: one that names no field of the image is skipped and counted (R374). -/
def applyPair (r8 : List Byte) (s : State) : State :=
  let skip := cntF F.CFG_STATUS.SKIPPED .east 0 1 s
  match regAt (numAt r8 0 4) with
  | none => skip
  | some (r, d, i) =>
    let m := imageBits r i
    if m = 0 then skip
    else if blockAbsent s (regPlace r).block d then s
    else
      let v := (rdReg s r d i &&& (0xFFFFFFFF ^^^ m)) ||| (numAt r8 4 4 &&& m)
      s |> wrReg r d i v |> onlyIf (sharedReg r) (wrReg r (otherDie d) i v)

/-- Take the population from the board straps, at RATE_SEL 3 (R377). -/
def strapPop (s : State) : State :=
  let t := s.dev.straps
  let v := t.popDen % 4 + 4 * (t.popRank % 2) + 8 * (t.pop3ds % 2) + 16 * 3
  each (diesPresent s) (fun d => each (List.range 6) (fun c => wrReg .CFE_POP d c v)) s

/-- The image is loaded: copy A, else copy B, else the factory defaults (R377). -/
def loadImage (s : State) : State :=
  let fl := s.dev.flash
  match imageFault s fl.imgA with
  | none =>
    { s with dev := { s.dev with image := some fl.imgA } } |> wfc F.CFG_STATUS.A_VALID 1 0 |> wfc F.CFG_STATUS.GENERATION (numAt fl.imgA 12 2) 0
  | some a =>
    let s1 := wfc F.CFG_STATUS.CHECKED 1 0 s
    match imageFault s fl.imgB with
    | none =>
      { s1 with dev := { s1.dev with image := some fl.imgB } } |> wfc F.CFG_STATUS.B_VALID 1 0 |> wfc F.DEV_STATUS.IMG_B 1 0
        |> wfc F.CFG_STATUS.GENERATION (numAt fl.imgB 12 2) 0
    | some b =>
      { s1 with dev := { s1.dev with image := none } } |> strapPop |> wfc F.DEV_STATUS.CFG_DEFAULTED 1 0
        |> post (seniorDie s) ⟨0x1002, sevUncorrected, locDie (seniorDie s),
             [it1 (Config.detailCode 0x1002 a), it1 (Config.detailCode 0x1002 b)], none, none⟩

/-! ### The repair area (R375) -/

/-- A repair area as its bytes give it. -/
def parseRepair (bs : List Byte) : RepairArea :=
  let n := numAt bs 8 2
  let recs := (List.range n).map (fun k => BitVec.ofNat 64 (numAt bs (16 + 8 * k) 8))
  ⟨decide (numAt bs 0 4 = 0x50524B4D) && decide (n ≤ 1024) && decide (16 + 8 * n ≤ bs.length) &&
    decide (crc32Std (bs.take 12 ++ (bs.drop 16).take (8 * n)) = numAt bs 12 4), numAt bs 4 4, recs⟩

/-- The repair area that the device takes: the valid one with the higher SEQUENCE. -/
def chooseRepair (fl : FlashSt) : Option RepairArea :=
  if fl.repA.valid ∧ (fl.repB.valid = false ∨ fl.repB.seq ≤ fl.repA.seq) then some fl.repA
  else if fl.repB.valid then some fl.repB else none

/-- The fuse map is loaded: the records that are valid (R120, R375). -/
def loadRepair (s : State) : State :=
  match chooseRepair s.dev.flash with
  | some a => { s with dev := { s.dev with fuse := a.recs.filter (fun v => v.toNat % 256 == 0x5A || v.toNat % 256 == 0x5B) } }
  | none =>
    { s with dev := { s.dev with fuse := [] } } |> wfc F.DEV_STATUS.REPAIR_EMPTY 1 0
      |> post (seniorDie s) ⟨0x1004, sevUncorrected, locDie (seniorDie s), [], none, none⟩

/-! ### The synthesizers at boot (R39, R349, R355) -/

/-- A rate above the limit of the population is replaced by the limit (R39, Table 2.2). -/
def clampRate (d : Die) (s : State) : State :=
  let sel := rf s F.CFE_POP.RATE_SEL d 0
  if rf s F.CFE_POP.RANKS d 0 = 1 ∧ rf s F.CFE_POP.PKG3DS d 0 = 0 ∧ sel < 2 then
    each (List.range 6) (fun c t => wf F.CFE_STATUS.RATE_CLAMPED d c 1 (wf F.CFE_POP.RATE_SEL d c 2 t)) s
      |> post d ⟨0x0A0A, sevInfo, locDie d, [it1 1, it1 0, it1 sel, it1 2], none, none⟩
  else s

/-- A synthesizer starts to lock at boot: a CKS-M at its THRIFT point first. A plan that the check of TRAIN entry will refuse is not
tried: the factory plan is (R349). -/
def bootSynth (d : Die) (m : Nat) (s : State) : State :=
  let point := b2n (isM m)
  let st := planStage (if (planFault s d m).isSome then setFactoryPlan d m s else s) d m point allOuts
  s |> onSynth d m (fun y => { y with n := st.n, pfd := st.pfd, outs := st.outs, sinceNs := s.nowNs })
    |> wf F.CKS_STATUS.POINT d m point |> setPhase d m (if (die s d).refLost then .off else .search 1)

/-- The plan check of TRAIN entry (R349). -/
def planCheck (d : Die) (m : Nat) (s : State) : State :=
  match planFault s d m with
  | none => s
  | some k =>
    s |> setFactoryPlan d m |> setFlag F.CKS_STATUS.REFUSED d m
      |> post d ⟨0x1044, sevInfo, locDie d, [it1 m, it1 (Config.detailCode 0x1044 k)], none, none⟩

/-! ### Boot (R377, Table 16.9) -/

/-- The firmware slot that boots: the one marked active, else the other. -/
def fwBoots (fl : FlashSt) : Option Nat :=
  let ok := fun (k : Nat) => if k = 0 then fl.fw0 else fl.fw1
  let a := fl.fwActive % 2
  if ok a then some a else if ok (1 - a) then some (1 - a) else none

/-- The Passage trains, the dies agree on its wrap key (Table 8.1), and each die claims by the strap that it has sampled (R384). -/
def passageUp (s : State) : State :=
  if partDual s.dev.part = false then s
  else
    let w := s.dev.straps.seniorWest
    { s with psg := { PsgSt.reset with claimEast := !w, claimWest := w, wrap := some (Config.agreement s.east.drbgSeeds) } }
      |> wf F.PSG_STATUS.SENIOR .east 0 (b2n (!w)) |> wf F.PSG_STATUS.SENIOR .west 0 (b2n w)
      |> each [Die.east, Die.west] (fun d => wf F.PSG_STATUS.LINK_UP d 0 1)

/-- The boot sequence starts: CKS-A locks; the firmware, the image and the repair area are loaded; CKS-C and both CKS-M lock. With
no firmware, or with TEST_EN = 1, the device stays in BOOT (R377, R453). The DRBGs are seeded, and the senior die derives its keys (R179,
R181). -/
def bootStart (s : State) : State :=
  let ds := diesPresent s
  let s1 := s |> each ds (fun d => each (List.range 4) (setFactoryPlan d)) |> each ds (fun d => bootSynth d 3) |> each ds drbgBoot
  if s.dev.straps.testEn then s1
  else match fwBoots s.dev.flash with
    | none => passageUp s1
    | some k =>
      { s1 with fw := { s1.fw with running := k } } |> passageUp |> deriveKeys (fwMeasure k) |> loadImage
        |> (fun t => each (imageRecords t 1 8) applyPair t) |> loadRepair
        |> each ds clampRate |> each ds (fun d => each [0, 1, 2] (bootSynth d))

/-- Whether the boot sequence has started since the last reset. -/
def booting (s : State) : Bool := decide ((synth s (seniorDie s) 3).phase ≠ .off)

/-- RATE128_EN at reset (R245). -/
def rateExt (p : Die) (s : State) : State :=
  let v := decide (2 ≤ rf s F.HPC_LINK_CFG.MAX_RATE p 0)
  onHpc p (fun h => { h with rate128En := v }) s

/-- What the interruption of a flash update leaves of the copy under way: its new contents, or none that is valid (R376). -/
def brokenFlash (fl : FlashSt) (whole : Bool) : FlashSt :=
  let area := fun (recs : List (BitVec 64)) (x : RepairArea) => if whole then ⟨true, x.seq + 1, recs⟩ else { x with valid := false }
  let img := fun (bs : List Byte) => if whole then bs else []
  let f := match fl.jobs with
    | .repair recs :: _ => if fl.half then { fl with repB := area recs fl.repB } else { fl with repA := area recs fl.repA }
    | .image bs :: _ => if fl.half then { fl with imgA := img bs } else { fl with imgB := img bs }
    | _ => fl
  { f with jobs := [], half := false }

/-- A device reset (R451): everything takes its reset state but what the silicon, the flash, the pins, the test access ports and the
straps hold. The free value says what becomes of a flash update under way. -/
def deviceReset (s : State) : State :=
  let (v, s0) := takeFree s
  let fl := if s.dev.flash.jobs = [] then { s.dev.flash with half := false } else brokenFlash s.dev.flash (v.toNat % 2 == 1)
  let old := s.dev.mode
  let keep := fun (x y : DieSt) => { x with drbgSeeds := y.drbgSeeds }
  let t := { State.reset with
    dev := { State.reset.dev with part := s.dev.part, straps := s.dev.straps, flash := fl, signKey := s.dev.signKey },
    east := keep DieSt.reset s.east, west := keep DieSt.reset s.west,
    nowNs := s.nowNs, tap := s.tap, pins := { s.pins with dramReset := true }, out := s.out, freeCtr := s0.freeCtr, seq := s.seq,
    pending := s.pending }
  let u := wfc F.DEV_STATUS.SENIOR_WEST (b2n s.dev.straps.seniorWest) 0 t
  if old = .boot then u
  else post (seniorDie u) ⟨0x1001, sevInfo, locDie (seniorDie u), [it1 (modeNum old), it1 0, it1 0], none, none⟩ u

/-- Whether the PERST pins hold the device in reset: both low, or the one of a single-die part (R451). -/
def perstReset (s : State) : Bool := s.pins.perst0 && (s.pins.perst1 || !(partDual s.dev.part))

/-- The flash as an external programmer has left it (R454). -/
def programmed (p : FlashProg) (fl : FlashSt) : FlashSt :=
  { fl with imgA := p.imgA, imgB := p.imgB, repA := parseRepair p.repA, repB := parseRepair p.repB, fw0 := p.fw0, fw1 := p.fw1,
            fwActive := p.fwActive }

/-- POWER_GOOD (R448, R453): the straps are sampled, and the boot sequence starts unless the PERST pins hold the device in reset. -/
def execPowerGood (seniorWest : Bool) (popDen : Nat) (popRank : Nat) (pop3ds : Nat) (testEn : Bool) (prog : Option FlashProg)
    (s : State) : Host.Outcome State Fault Refusal :=
  .next (if s.pins.pwrOk then s
    else
      let fl := match prog with
        | none => s.dev.flash
        | some p => programmed p s.dev.flash
      let s1 := { s with pins := { s.pins with pwrOk := true }, upNs := 0,
                         dev := { s.dev with straps := ⟨seniorWest, popDen, popRank, pop3ds, testEn⟩, flash := fl } }
        |> wfc F.DEV_STATUS.SENIOR_WEST (b2n seniorWest) 0
      settle (if perstReset s1 then s1 else bootStart s1))

/-- PWR_OK_FALL (R449, R451, R456). -/
def execPwrOkFall (s : State) : Host.Outcome State Fault Refusal :=
  .next (if s.pins.pwrOk then
      let t := deviceReset s
      { t with pins := { t.pins with pwrOk := false, thermTrip := false } }
    else s)

/-- Set PERSTn_N of a port. -/
def setPerst (p : Die) (low : Bool) (s : State) : State :=
  match p with
  | .east => { s with pins := { s.pins with perst0 := low } }
  | .west => { s with pins := { s.pins with perst1 := low } }

/-- PERSTn_N returns the function's configuration space to reset values (R452, R245). -/
def cfgReset (p : Die) (s : State) : State :=
  s |> onHpc p (fun h => { h with msixMask := [], msixPend := [], hdm := [], hdmErr := [], partner128 := false, rate128Lost := false })
    |> rateExt p

/-- PERST_ASSERT (R451, R452). While THERMTRIP_N is asserted the device stays FROZEN until PWR_OK falls (Table 21.9). -/
def execPerstAssert (port : Die) (s : State) : Host.Outcome State Fault Refusal :=
  .next (if diePresent s port = false then s
    else
      let s1 := setPerst port true s
      if perstReset s1 then (if s.pins.pwrOk ∧ s.pins.thermTrip = false then deviceReset s1 else s1)
      else settle (cfgReset port (portDown port 4 s1)))

/-- PERST_RELEASE (R451, R452): after a device reset the last rising edge starts the boot; else the port trains from Detect. -/
def execPerstRelease (port : Die) (s : State) : Host.Outcome State Fault Refusal :=
  .next (if diePresent s port = false ∨ perstLow s port = false then s
    else
      let s1 := setPerst port false s
      if s.dev.mode = .boot ∧ s.pins.pwrOk ∧ booting s1 = false then
        (if s1.pins.perst0 ∨ (partDual s.dev.part ∧ s1.pins.perst1) then s1 else settle (bootStart s1))
      else settle (wakeUp (trainPort port s1)))
where
  wakeUp (t : State) : State := if (die t port).hpc.training then wakeBy 9 t else t

/-! ### TRAIN (R121, R128, R134, R184, R349) -/

/-- A retirement record of the fuse map for a subchannel (Table 5.3): the spare that it names, 15 for none. -/
def retireRec (s : State) (d : Die) (i : Nat) : Option Nat :=
  (s.dev.fuse.find? (fun v => let n := v.toNat
    fld n 0 8 == 0x5B && fld n 8 1 == dieNum d && fld n 9 3 == i / 2 && fld n 12 1 == i % 2)).map (fun v => fld v.toNat 16 4)

/-- The subchannel that SRU_CFG names as the die's spare, and the one that a retirement record has placed. -/
def namedSpare (s : State) (d : Die) : Option Nat :=
  (List.range 12).find? (fun i => rfb s (ab F.SRU_CFG.SPARE_A F.SRU_CFG.SPARE_B i) d (i / 2))
def placedSpare (s : State) (d : Die) : Option Nat :=
  (List.range 12).findSome? (fun i => match retireRec s d i with
    | some sp => if sp < 12 then some sp else none
    | none => none)

/-- The positions of a die's live list, as the subchannels whose own they are (R134). -/
def livePositions (s : State) (d : Die) : List Nat :=
  let out := match placedSpare s d with
    | some sp => some sp
    | none => namedSpare s d
  (List.range 12).filter (fun i => out != some i)

/-- The subchannel that fills a position; none where a retirement record names no spare, or the subchannel is RETIRED (R134). -/
def fillOf (s : State) (d : Die) (i : Nat) : Option Nat :=
  let x := match retireRec s d i with
    | some sp => if sp < 12 then some sp else none
    | none => some i
  match x with
  | some j => if (sub s d j).st = .retired then none else some j
  | none => none

/-- A die enters TRAIN: subchannels that a record names are RETIRED and not trained (R128), and each channel's adjacency map is judged
(R82). -/
def dieTrain (d : Die) (s : State) : State :=
  let gone := (List.range 12).filter (fun i => (retireRec s d i).isSome)
  each gone (fun i t => onSub d i (fun b => { b with retCause := some (0x80, 0xFF) })
      (wfSub F.CFE_RESULT_A.RETIRED F.CFE_RESULT_B.RETIRED d i 1 (retireSub d i t))) s
    |> onSru d (fun u => { u with positions := (livePositions s d).length })
    |> each (List.range 4) (planCheck d)
    |> each (List.range 6) (fun c t => syncBusy d c (adjCheck d c t))

/-- A record of KEY_SLOTS: the slot, and the binding as bytes 12 to 15 of opcode 0x60 (Table 16.8). -/
def keySlot (r8 : List Byte) (s : State) : State := generateSlot (numAt r8 0 1) (numAt r8 4 4) 0 s

/-- The keys of TRAIN: the internal metadata key and the slots of the image, unless the senior die's DRBG has stopped (R181, R184). -/
def trainKeys (s : State) : State :=
  if (die s (seniorDie s)).drbgStopped then s
  else
    each (imageRecords s 2 8) keySlot (newMetaKey s)

/-- BOOT_DONE (R367, R377): firmware and image are loaded and CKS-C and both CKS-M are locked on every die. -/
def execBootDone (s : State) : Host.Outcome State Fault Refusal :=
  let ds := diesPresent s
  .next (if s.dev.mode ≠ .boot ∨ s.pins.pwrOk = false ∨ s.dev.straps.testEn ∨ perstReset s
      ∨ !(ds.all (fun d => [0, 1, 2].all (fun m => (synth s d m).phase == .locked))) then s
    else
      settle ({ s with pins := { s.pins with dramReset := false } } |> setMode .train 1 |> each ds dieTrain
        |> each ds (fun p t => trainPort0 p (rateExt p t)) |> trainKeys))
where
  trainPort0 (p : Die) (t : State) : State :=
    if portEn t p ∧ perstLow t p = false then onHpc p (fun h => { h with training := true }) t else t

/-! ### The exit from TRAIN (R134, R156, R367, R368, R461) -/

/-- Whether training has finished. -/
def trainFinished (s : State) : Bool := (diesPresent s).all (fun d => (List.range 12).all (bootTrained s d))

/-- The die's live list, its spare, and whether it serves memory (R134): the list, the spare held, whether DEG_SUBCH stands, and whether the
die has lost its memory. -/
structure LivePlan where
  list : List Nat
  spare : Option Nat
  degraded : Bool
  lost : Bool
  deriving DecidableEq, Repr

/-- The plan of R134 for a die. -/
def livePlan (s : State) (d : Die) : LivePlan :=
  let pos := livePositions s d
  let fills := pos.map (fillOf s d)
  let q := (fills.filter (·.isNone)).length
  let avail := match placedSpare s d, namedSpare s d with
    | none, some sp => if (sub s d sp).st = .retired then none else some sp
    | _, _ => none
  if q = 0 then ⟨fills.filterMap id, avail, false, false⟩
  else if q = 1 then
    match avail with
    | some sp => ⟨fills.map (fun x => x.getD sp), none, false, false⟩
    | none => if pos.length = 12 then ⟨fills.filterMap id, none, true, false⟩ else ⟨fills.filterMap id, none, false, true⟩
  else ⟨fills.filterMap id, none, false, true⟩

/-- A die forms its live list; blocks are uninitialised up to Qtop (R134, R156). -/
def formLive (d : Die) (s : State) : State :=
  let p := livePlan s d
  let loc := locDie d
  s |> onSru d (fun u => { u with liveList := p.list, spareSub := p.spare, memoryLost := p.lost })
    |> each (List.range 12) (fun i t =>
         if p.spare = some i then sleepSub d i (onSub d i (fun b => { b with st := .spare }) t)
         else if p.list.contains i then onSub d i (fun b => { b with st := .live, initW := qTop s d }) t else t)
    |> each (List.range 12) (fun i t => match (sub t d i).st, (sub t d i).retCause with
         | .retired, some (c, r) => post d ⟨0x0A08, sevUncorrected, locSub d i, [it1 c, it1 r], none, none⟩ t
         | _, _ => t)
    |> onlyIf p.degraded (degrade F.DEV_STATUS.DEG_SUBCH)
    |> onlyIf p.lost (fun t => t |> degrade F.DEV_STATUS.DEG_DIE |> post d ⟨0x0C0D, sevUncorrected, loc, [it1 (dieNum d)], none, none⟩)

/-- A die carves its areas; areas that do not fit are not carved (R14, R461). -/
def carve (d : Die) (s : State) : State :=
  if carveFits s d then s
  else
    s |> wfc F.DEV_STATUS.CARVE_SHORT 1 0
      |> post d ⟨0x0407, sevUncorrected, locDie d,
           [it1 (dieNum d), it4 ((remapLines s d + integrityLines s d + mapLines s d + 16383) / 16384), it4 (dieLines s d / 16384)], none, none⟩

/-- A record of PEERS: node, fabric port, payload size, peer MAC, peer port, enable (Table 16.8; the bytes' places are PRESUMED, log entry
30), applied as a write of FPC_PEER_CTRL. -/
def peerRecord (r : List Byte) (s : State) : State :=
  let d := dieOf (numAt r 2 1 % 2)
  if fabPresent s d ∧ numAt r 11 1 % 2 = 1 then
    peerEnable d (numAt r 0 2 % 4096) (numAt r 4 6) (numAt r 10 1 % 2) (numAt r 3 1 % 2 == 1) s
  else s

/-- The regions that the image enables. -/
def imageRegions (s : State) : List Nat :=
  (imageRecords s 4 8).flatMap (fun r => (List.range 64).filter (bitn (numAt r 0 8)))

/-- Training has finished: without an enabled host port the device stays in TRAIN (R368); else it enters SERVE or DEGRADED. -/
def trainExit (s : State) : State :=
  if s.dev.mode ≠ .train ∨ trainFinished s = false ∨ rfc s F.DEV_STATUS.NO_HOST 0 = 1 then s
  else
    let ds := diesPresent s
    if !(ds.any (portEn s)) then
      s |> wfc F.DEV_STATUS.NO_HOST 1 0
        |> post (seniorDie s) ⟨0x100C, sevUncorrected, locDie (seniorDie s), [it1 ds.length, it1 0], none, none⟩
    else
      let s1 := s |> each ds formLive |> each ds carve
        |> (fun t => each (imageRegions t) regionEnable t)
        |> syncHport |> (fun t => onlyIf (anyFabDown t) (degrade F.DEV_STATUS.DEG_FPORT) t)
      setMode (serveMode s1) 1 s1 |> (fun t => each (imageRecords t 3 16) peerRecord t)

/-- TRAIN_EXIT (R367, R368). -/
def execTrainExit (s : State) : Host.Outcome State Fault Refusal := .next (settle (trainExit s))

/-! ### Flash updates (R376, R377) -/

/-- COPY_B_CHECK (R377): the check of copy B in the background, after entry to SERVE or DEGRADED. -/
def execCopyBCheck (s : State) : Host.Outcome State Fault Refusal :=
  .next (if rfc s F.DEV_MODE.LOCKED 0 = 1 ∧ rfc s F.CFG_STATUS.CHECKED 0 = 0 then
      s |> wfc F.CFG_STATUS.B_VALID (b2n (imageFault s s.dev.flash.imgB).isNone) 0 |> wfc F.CFG_STATUS.CHECKED 1 0
    else s)

/-- Whether the senior die drives the flash (R454). -/
def flashLive (s : State) : Bool := s.pins.pwrOk && !s.dev.straps.testEn && !(s.dev.mode == .frozen)

/-- IMAGE_UPDATE (R376): a new image has come through the sideband, or through a session, which under LOCKDOWN must be an owner's. -/
def execImageUpdate (session : Option (Die × Nat)) (bytes : List Byte) (s : State) : Host.Outcome State Fault Refusal :=
  .next (match session with
    | none => if flashLive s then flashJob (.image (s.sbXfer ++ bytes)) { s with sbXfer := [] } else s
    | some (p, n) =>
      inSession p n (fun x t =>
        if flashLive t = false ∨ (rfc t F.SEC_POLICY.LOCKDOWN 0 = 1 ∧ x.owner = false) then spdmError p seInvalid t
        else flashJob (.image bytes) t) s)

/-- The jobs with the one to go on with in front: one half done, else the oldest repair update, else the oldest (Table 16.11). Firmware
has a command of its own. -/
def nextJobs (fl : FlashSt) : List FlashJob :=
  if fl.half then fl.jobs
  else
    let isRep := fun (j : FlashJob) => match j with
      | .repair _ => true
      | _ => false
    let isFw := fun (j : FlashJob) => match j with
      | .firmware _ => true
      | _ => false
    fl.jobs.filter isRep ++ fl.jobs.filter (fun j => !(isRep j) && !(isFw j)) ++ fl.jobs.filter isFw

/-- One copy of an area has been written and read back; `ok` is whether a read-back matched, the first or that of the rewrite. -/
def flashDone (ok : Bool) (s : State) : State :=
  let fl := s.dev.flash
  let jobs := nextJobs fl
  let put := fun (f : FlashSt) (js : List FlashJob) (half : Bool) =>
    wfc F.CFG_STATUS.UPDATING (b2n (!js.isEmpty)) 0 { s with dev := { s.dev with flash := { f with jobs := js, half := half } } }
  let bad := fun (copy area : Nat) => onlyIf (!ok) (post (seniorDie s) ⟨0x1003, sevUncorrected, locDie (seniorDie s),
    [it1 (Config.detailCode 0x1003 copy), it1 (Config.detailCode 0x1003 (2 + area))], none, none⟩)
  match jobs with
  | .repair recs :: js =>
    let n := max fl.repA.seq fl.repB.seq
    let x : RepairArea := ⟨ok, if fl.half then fl.repA.seq else n + 1, recs⟩
    if fl.half then bad 1 0 (put { fl with repB := x } js false) else bad 0 0 (put { fl with repA := x } jobs true)
  | .image bs :: js =>
    let x := if ok then bs else []
    if fl.half then bad 0 1 (put { fl with imgA := x } js false) else bad 1 1 (put { fl with imgB := x } jobs true)
  | .secrets _ _ :: js => bad 0 2 (put fl js false)
  | _ => s

/-- FLASH_UPDATE_DONE (R376). -/
def execFlashUpdateDone (ok : Bool) (s : State) : Host.Outcome State Fault Refusal := .next (if flashLive s then flashDone ok s else s)

end Sys2Proof.Machine
end

