-- ==== Sys2Proof/Machine/Sru.lean ====
section
/-!
DEFINITION. Sys2Proof/Machine/Sru.lean: the scrub and repair unit's commands (chapter 5).
-/

namespace Sys2Proof.Machine

/-! ### Lantern (R106, R107) -/

/-- A step falls due that cannot be issued: it is owed, and 65,535 owed steps are reported once a pass (R107). -/
def scrubOwe (d : Die) (i : Nat) (s : State) : State :=
  let z := (sub s d i).scrub
  let n := min 65535 (z.owed + 1)
  let s1 := onScrub d i (fun z => { z with owed := n }) s
  if n = 65535 then
    s1 |> setFlagSub F.SRU_STATUS.BEHIND_A F.SRU_STATUS.BEHIND_B d i
       |> onlyIf (!z.behindPosted) (fun t => t |> onScrub d i (fun z => { z with behindPosted := true })
            |> post d ⟨0x0C02, sevInfo, locSub d i, [it4 n, it4 (z.q + z.line * 2 ^ 29)], none, none⟩)
  else s1

/-- Lantern's step timer falls due (R106 to R108). -/
def scrubStep (d : Die) (i : Nat) (s : State) : State :=
  let b := sub s d i
  if rfb s F.SRU_SCRUB_CFG.EN d (i / 2) = false ∨ resting s ∨ b.st ≠ .live then s
  else
    let s1 := scrubPump d i s
    let z := (sub s1 d i).scrub
    if scrubHeld s1 d i ∨ 4 ≤ z.outstanding ∨ 0 < z.owed then scrubOwe d i s1 else scrubIssue d i s1

/-- SCRUB_STEP (R106). -/
def execScrubStep (d : Die) (sub : Nat) (s : State) : Host.Outcome State Fault Refusal := .next (scrubStep d sub s)

/-! ### Repairs -/

/-- A write of the SRU's own enters a write queue without a crossing, encoded on the way. -/
def sruWrite (d : Die) (i loc h cls : Nat) (l : LineData) (s : State) : State :=
  let e := encodeReq d (mkWrite .sru i loc h cls true 0xFF 0 l.line l.poison .post) s
  pushWrite d e.1 e.2

/-- A remap copy is done (R117): the line enters the write queue for its spare line, the entry becomes valid, 0x0C05. -/
def remapApplied (d : Die) (i k : Nat) (s : State) : State :=
  match (die s d).sru.remapCopies.find? (fun c => c.sub == i && c.entry == k), nget (sub s d i).remap k with
  | some c, some e =>
    (match c.got with
     | none => s
     | some l =>
       if 64 ≤ (sub s d i).wrq.length ∨ (chan s d (i / 2)).frozen.isSome then s
       else
         s |> onSub d i (fun b => { b with remap := nset b.remap k { e with valid := true } })
           |> each l.toList (sruWrite d i (spareLoc s d k) e.home (classOf s d i .sru 0))
           |> onSru d (fun u => { u with remapCopies := u.remapCopies.filter (fun x => x != c),
                                         drip := u.drip.filter (fun p => !(p.2.h == e.home && decide (p.2.st = .hard))) })
           |> post d ⟨0x0C05, sevCorrected, locSub d i, [it5 e.home, it1 k], none, none⟩)
  | _, _ => s

/-- REMAP_APPLIED (R117). -/
def execRemapApplied (d : Die) (sub : Nat) (entry : Nat) (_row : Unit) (s : State) : Host.Outcome State Fault Refusal :=
  .next (remapApplied d sub entry s)

/-- Send requests for a home line to a location. -/
def retarget (h loc : Nat) (q : List Req) : List Req := q.map (fun (r : Req) => if r.home = h then { r with loc := loc } else r)

/-- Encode a line for its home and put it into the array at a location: the row buffer's writes (R119). -/
def putLine (d : Die) (i loc h : Nat) (l : Line) (poison : Bool) (s : State) : State :=
  let (enc, s1) := encodeFor d i h l poison s
  onSub d i (fun b => { b with cells := nset b.cells loc enc }) s1

/-- Bring the lines of a row that use remap entries back to the row, and release the entries (R115); a spare line that is freed holds zeros
encoded for its own location (R118). -/
def releaseRemaps (d : Die) (i lo : Nat) (s : State) : State :=
  each ((sub s d i).remap.filter (fun p => p.2.valid)) (fun p t =>
    match placeOf t p.2.home with
    | some (_, _, loc) =>
      if lo ≤ loc ∧ loc < lo + 128 then
        let sp := spareLoc t d p.1
        let st := cellAt (sub t d i) sp p.2.home
        t |> onSub d i (fun b => { b with remap := nerase b.remap p.1, cells := nset b.cells loc st, rdq := retarget p.2.home loc b.rdq,
                                          wrq := retarget p.2.home loc b.wrq, retryq := retarget p.2.home loc b.retryq,
                                          replay := b.replay.map (fun e => if e.req.home = p.2.home then { e with req := { e.req with loc := loc } } else e) })
          |> putLine d i sp (homeOf t d i sp) 0 false
      else t
    | none => t) s

/-- The home line whose data a location holds. -/
def homeHeld (s : State) (d : Die) (i loc : Nat) : Nat :=
  match entryAt s d (sub s d i) loc with
  | some (_, e) => e.home
  | none => homeOf s d i loc

/-- Read and write back one line of a row under repair, with the faults that its read meets (R119, steps 2 and 4). A line that nothing has
written yet is left for its first write (R129, R131, R156). -/
def rowLine (d : Die) (i loc : Nat) (flips : Flips) (rowFree : Bool) (s : State) : State :=
  let b := sub s d i
  let h := homeHeld s d i loc
  if uninit b loc ∨ (b.fresh ≠ .none ∧ b.freshFrom ≤ loc / 4 ∧ (nget b.cells loc).isNone) then s
  else
    let rank := qRank s d (loc / 4)
    let dec := decodeLine h (markOf s d i rank) (cellAt b loc h ^^^ flips)
    s |> lineEffects d i rank h .sru false .copy rowFree none none dec |> putLine d i loc h dec.line (outcPoison dec.outc)
      |> onlyIf (dec.outc == .uncorrectable || dec.outc == .address) (fun t => countPoisoned d i (uePosted d i h (outcNum dec.outc) t))

/-- Whether a run-time row repair can be carried out now: its channel encodes, and no write to the row is between the bus and the array. -/
def rowReady (s : State) (d : Die) (i lo : Nat) : Bool :=
  (chan s d (i / 2)).frozen.isNone && !(chan s d (i / 2)).clockRec &&
    !((sub s d i).replay.any (fun e => decide (lo ≤ e.req.loc) && decide (e.req.loc < lo + 128)))

/-- A run-time row repair is done (R119): `flips` are the faults that the reads of its lines meet, by the line's place in the row. -/
def spareRowApplied (d : Die) (i rank bank : Nat) (rowFree : Bool) (flips : List (Nat × Flips)) (s : State) : State :=
  match (die s d).sru.rowRepairs.find? (fun r => r.sub == i && r.rank == rank && r.bg * 4 + r.bank == bank) with
  | none => s
  | some r =>
    let lo := 4 * rowFirstQ s d r.rank r.bg r.bank r.row
    if rowReady s d i lo = false then s
    else
      let s1 := each (List.range 128) (fun k => rowLine d i (lo + k) ((flips.lookup k).getD 0) rowFree) s
      let s2 := releaseRemaps d i lo s1
      let others := (die s2 d).sru.rowRepairs.filter (fun x => x != r)
      let busy := others.any (fun x => x.sub == i && x.rank == r.rank && x.bg == r.bg && x.bank == r.bank)
      s2 |> onSru d (fun u => { u with rowRepairs := others })
         |> onSub d i (onBank (bankKey r.rank r.bg r.bank) (fun b => { b with held := busy, row := none }))
         |> dripFree d (fun e => decide (e.st = .hard) && e.sub == i && e.dev == r.dev &&
              (match placeOf s e.h with
               | some (_, _, l) => let at_ := steer s d i l e.h; decide (lo ≤ at_) && decide (at_ < lo + 128)
               | none => false))
         |> onDrip d (fun m => nerase m r.drip)
         |> fuseAppend d i (fuseRec 0x5A d i r.rank (rfb s F.SRU_REPAIR_CFG.HARD_PPR d (i / 2)) r.dev r.bg r.bank r.row 1)
         |> post d ⟨0x0C06, sevCorrected, locSub d i, [it1 r.rank, it1 r.dev, it1 r.bg, it1 r.bank, it4 r.row], none, none⟩

/-! ### Device erasure (R123) -/

/-- The devices of a subchannel whose counts rose by THRESH in the window: rank and device. -/
def risen (s : State) (d : Die) (i : Nat) : List (Nat × Nat) :=
  let b := sub s d i
  (b.devcnt.filter (fun p => decide (rf s F.SRU_ERASE_CFG.THRESH d (i / 2) ≤ p.2 - ngetD b.devSnap p.1 0))).map
    (fun p => (p.1 / 16, p.1 % 16))

/-- An erasure window of a subchannel ends. -/
def eraseWindowSub (d : Die) (i : Nat) (s : State) : State :=
  let s1 := if rfb s F.SRU_ERASE_CFG.EN d (i / 2) then each (risen s d i) (fun p t => eraseRun d i p.1 p.2 1 t) s else s
  onSub d i (fun b => { b with devSnap := b.devcnt }) s1

/-- ERASE_WINDOW (R123). -/
def execEraseWindow (d : Die) (s : State) : Host.Outcome State Fault Refusal :=
  .next (each (List.range 12) (fun i t => if (Machine.sub t d i).st = .live then eraseWindowSub d i t else t) s)

/-! ### Evacuation (R125 to R127) -/

/-- A write of SRU_EVAC_CTRL: RATE and PRIO, and what START_A and START_B start. -/
def evacCtrl (d : Die) (c v : Nat) (s : State) : State :=
  each ((List.range 2).filter (bitn v)) (fun u t => startEvac d (2 * c + u) 2 t)
    (s |> wf F.SRU_EVAC_CTRL.RATE d c (fld v 8 8) |> wf F.SRU_EVAC_CTRL.PRIO d c (fld v 16 2))

/-- SRU_EVAC_START: SRU_EVAC_CTRL is written with START_A or START_B. -/
def execSruEvacStart (d : Die) (chan : Nat) (value : Word) (s : State) : Host.Outcome State Fault Refusal :=
  .next (barWrite .SRU d (evacCtrl d chan value.toNat) s)

/-- The class of an evacuation's copy requests. -/
def evacClass (s : State) (d : Die) (i : Nat) : Nat := rf s F.SRU_EVAC_CTRL.PRIO d (i / 2)

/-- How a line of the block to be copied is copied (R126): read; written as a blank line, where it is not yet initialised; or left as it is,
where nothing has written it since a take-over or a switch of mapping, which the spare then takes over. -/
inductive CopyKind where
  | read | blank | leave
  deriving DecidableEq, Repr

/-- The kind of a line. -/
def copyKind (s : State) (d : Die) (i loc : Nat) : CopyKind :=
  let h := homeOf s d i loc
  if uninit (sub s d i) loc then .blank
  else if (newestWrite s d i h).isNone ∧ (answerOf s d i loc h).isSome then .leave else .read

/-- The copy of a block begins: its reads are issued (R126). -/
def evacBegin (d : Die) (s : State) : State :=
  match (die s d).sru.evac with
  | none => s
  | some e =>
    let i := e.failing
    let of := fun (k : CopyKind) => (List.range 4).filter (fun l => decide (copyKind s d i (4 * e.q + l) = k))
    let s1 := onSru d (fun u => { u with evac := u.evac.map (fun x =>
      { x with begun := true, entered := false, left := of .read, got := (of .blank).map (fun l => (l, ⟨0, false⟩)) }) }) s
    each (of .read) (fun l => copyRead d (mkRead .sru i (4 * e.q + l) (homeOf s d i (4 * e.q + l)) (evacClass s d i) true 0xFF 0 LineMeta.blank (.evac l))) s1

/-- The remap spare area of a spare that is about to be swapped in: blank lines for the failing subchannel's position (R126). -/
def blankSpares (d : Die) (e : EvacSt) (s : State) : State :=
  each (List.range 32) (fun k => sruWrite d e.spare (spareLoc s d k) (homeOf s d e.spare (spareLoc s d k)) (evacClass s d e.failing) ⟨0, false⟩) s

/-- The lines of a block have come: they enter the spare's write queue, and the walk goes on (R126). After the last block the spare's
remap spare area follows. -/
def evacWrite (d : Die) (e : EvacSt) (s : State) : State :=
  let last := decide (qTop s d - 8 ≤ e.q + 1)
  if e.left ≠ [] ∨ 64 < (sub s d e.spare).wrq.length + (if last then 36 else 4) then s
  else
    s |> each e.got (fun p => sruWrite d e.spare (4 * e.q + p.1) (homeOf s d e.spare (4 * e.q + p.1)) (evacClass s d e.failing) p.2)
      |> onSru d (fun u => { u with evac := u.evac.map (fun x => { x with q := e.q + 1, begun := false, entered := false, got := [] }) })
      |> wf F.SRU_EVAC_POS.Q d (e.failing / 2) (e.q + 1)
      |> onlyIf last (blankSpares d e) |> onlyIf (!last) (evacBegin d)

/-- The next block of an evacuation is copied (R126): its reads are issued, and when its lines have come they are written and the next
block's reads follow. A remap copy of the subchannel completes first (Table 5.5), and nothing is encoded while a channel is FROZEN. -/
def evacCopy (d : Die) (s : State) : State :=
  match (die s d).sru.evac with
  | some e =>
    if e.rebuild ∨ qTop s d - 8 ≤ e.q ∨ (chan s d (e.failing / 2)).frozen.isSome ∨ (chan s d (e.spare / 2)).frozen.isSome ∨
        (die s d).sru.remapCopies.any (·.sub == e.failing) then s
    else if e.begun then evacWrite d e s else evacBegin d s
  | none => s

/-- Whether a subchannel's queues have drained. -/
def drained (s : State) (d : Die) (i : Nat) : Bool :=
  let b := sub s d i
  b.rdq.isEmpty && b.wrq.isEmpty && b.retryq.isEmpty && b.returning.isEmpty && b.replay.isEmpty && b.demandHeld.isEmpty

/-- The copy is complete and the queues have drained: the swap (R127). -/
def evacDone (d : Die) (s : State) : State :=
  match (die s d).sru.evac with
  | none => s
  | some e =>
    let i := e.failing
    let sp := e.spare
    if e.rebuild ∨ e.q < qTop s d - 8 ∨ drained s d i = false then s
    else
      let b := sub s d i
      let moved := (chan s d (i / 2)).mxin.filter (fun r => r.sub == i)
      s |> onChan d (i / 2) (fun c => { c with mxin := c.mxin.filter (fun r => r.sub != i) })
        |> onChan d (sp / 2) (fun c => { c with mxin := c.mxin ++ moved.map (fun (r : Req) => { r with sub := sp }) })
        |> onSub d sp (fun x => { x with st := .live, remap := [], fresh := b.fresh, freshFrom := b.freshFrom,
                                         scrub := { x.scrub with outstanding := b.scrub.outstanding, held := b.scrub.held.map (fun r => { r with sub := sp }) } })
        |> onSub d i (fun x => { x with remap := [], scrub := { x.scrub with outstanding := 0, held := [] } })
        |> onSru d (fun u => { u with liveList := u.liveList.map (fun x => if x = i then sp else x), spareSub := none, evac := none,
                                      drip := (u.drip.filter (fun p => !(p.2.sub == i && decide (p.2.st = .hard)))).map
                                        (fun p => if p.2.sub = i then (p.1, { p.2 with sub := sp }) else p) })
        |> retireSub d i |> postRetired d i 0x83 (rateInUse s d (i / 2)) |> evacActive d i 0
        |> spareRecord d i sp
        |> post d ⟨0x0C09, sevCorrected, locSub d i, [it4 e.poisoned], none, none⟩
        |> initEnded d s |> permPending d

/-! ### Salvage and the drip log's register -/

/-- SALVAGE_RELEASE: SRU_RETIRE_CTRL.RELEASE clears SALVAGE_HOLD (R130). -/
def execSalvageRelease (d : Die) (s : State) : Host.Outcome State Fault Refusal :=
  .next (barWrite .SRU d (each (List.range 6) (fun c t => wf F.SRU_RETIRE_CTRL.SALVAGE_HOLD d c 0 t)) s)

/-- The state code of an entry (Table 5.1). -/
def dripCode : DripState → Nat
  | .free => 0 | .seen => 1 | .watch => 2 | .hard => 3

/-- A drip log entry as 128 bits (Table 5.1). -/
def dripBits (e : DripEnt) : Nat :=
  fld e.h 0 36 + e.word % 8 * 2 ^ 36 + e.rank % 2 * 2 ^ 39 + e.dev % 16 * 2 ^ 40 + e.sub / 2 % 8 * 2 ^ 44 + e.sub % 2 * 2 ^ 47 +
    dripCode e.st * 2 ^ 48 + min 15 e.demand * 2 ^ 51 + fld e.firstMs 0 32 * 2 ^ 64 + fld e.lastMs 0 32 * 2 ^ 96

/-- DRIP_DATA_READ: the selected word; the read advances WORD, then ENTRY (R112). -/
def dripRead (d : Die) (c : Nat) (s : State) : State :=
  let e := rf s F.SRU_DRIP_SEL.ENTRY d c
  let w := rf s F.SRU_DRIP_SEL.WORD d c
  let v := match nget (die s d).sru.drip e with
    | some x => fld (dripBits x) (32 * w) 32
    | none => 0
  s |> send (.regData (regAddr .SRU_DRIP_DATA d c) (BitVec.ofNat 32 v))
    |> wf F.SRU_DRIP_SEL.WORD d c ((w + 1) % 4) |> onlyIf (w == 3) (wf F.SRU_DRIP_SEL.ENTRY d c ((e + 1) % 64))

/-- DRIP_DATA_READ (R112). -/
def execDripDataRead (d : Die) (chan : Nat) (s : State) : Host.Outcome State Fault Refusal := .next (dripRead d chan s)

end Sys2Proof.Machine
end

