-- ==== Sys2Proof/Machine/MemCmds.lean ====
section
/-!
DEFINITION. Sys2Proof/Machine/MemCmds.lean: the commands of channels, scheduler and word code that can end a request or begin a salvage,
so that what follows is done in the same step.
-/

namespace Sys2Proof.Machine

/-- MSC_ACCEPT (R61). -/
def execMscAccept (d : Die) (chan : Nat) (s : State) : Host.Outcome State Fault Refusal := .next (settle (mscAccept d chan s))

/-- DEMAND_WRITE_RELEASE (R159). -/
def execDemandWriteRelease (d : Die) (sub : Nat) (s : State) : Host.Outcome State Fault Refusal := .next (settle (demandRelease d sub s))

/-- COMMAND_ISSUE (R62). -/
def execCommandIssue (d : Die) (sub : Nat) (ready : List Nat) (parityBad : Bool) (s : State) :
    Host.Outcome State Fault Refusal := .next (settle (commandIssue d sub ready parityBad s))

/-- READ_DATA_RETURN: the data of an issued read of a subchannel return. -/
def execReadDataReturn (d : Die) (sub : Nat) (seq : Nat) (flips : Flips) (rowFree : Bool) (_again _nodes : Unit) (s : State) :
    Host.Outcome State Fault Refusal :=
  .next (settle (match (Machine.sub s d sub).returning.find? (fun r => r.seq == seq) with
    | some r => readReturn d r flips rowFree s
    | none => s))

/-- ALERT_N (R45). -/
def execAlertN (d : Die) (sub : Nat) (s : State) : Host.Outcome State Fault Refusal := .next (settle (alertN d sub s))

/-- RETRAIN_DONE (R54). -/
def execRetrainDone (d : Die) (sub : Nat) (rank : Nat) (edge : Bool) (res : TrainResult) (s : State) :
    Host.Outcome State Fault Refusal := .next (settle (retrainDone d sub rank edge res s))

/-- TRAINING_RANK_DONE (R49): a boot-time sequence of a rank at an operating point ends. -/
def execTrainingRankDone (d : Die) (sub : Nat) (rank : Nat) (point : Nat) (res : TrainResult) (s : State) :
    Host.Outcome State Fault Refusal :=
  .next (settle (if s.dev.mode = .train ∧ (Machine.sub s d sub).st ≠ .retired then
      syncBusy d (sub / 2) (rankTrained d sub rank point false false res s) else s))

/-- CHANNEL_THAWED (R397). -/
def execChannelThawed (d : Die) (chan : Nat) (s : State) : Host.Outcome State Fault Refusal := .next (settle (channelThawed d chan s))

/-- EVT_THAW: EVT_FRZ_CTRL is written with THAW bits; a channel not held ignores it (Table 17.11). -/
def execEvtThaw (d : Die) (mask : Nat) (s : State) : Host.Outcome State Fault Refusal :=
  .next (settle (barWrite .EVT d (each ((List.range 6).filter (bitn mask)) (fun c t => match (chan t d c).frozen with
    | some z => if z.held then thaw d c z t else t
    | none => t)) s))

/-- SPARE_ROW_APPLIED (R119): `bank` is 4 · bank group + bank. -/
def execSpareRowApplied (d : Die) (sub : Nat) (rank : Nat) (bank : Nat) (rowFree : Bool) (s : State) (flips : List (Nat × Flips) := []) :
    Host.Outcome State Fault Refusal := .next (settle (spareRowApplied d sub rank bank rowFree flips s))

/-- EVAC_DONE (R127). -/
def execEvacDone (d : Die) (s : State) : Host.Outcome State Fault Refusal := .next (settle (evacDone d s))

end Sys2Proof.Machine
end

