-- ==== Sys2Proof/Machine/RegionCmds.lean ====
section
/-!
DEFINITION. Sys2Proof/Machine/RegionCmds.lean: the commands of region descriptors, of the tiering engine, of keys and of the entropy
sources (chapters 6 and 8).
-/

namespace Sys2Proof.Machine

/-! ### Regions -/

/-- RGN_WRITE (R136): a write to descriptor `region`, inside SPDM session `sess` or not. -/
def execRgnWrite (region off : Nat) (value : Word) (sess : Option Nat) (s : State) : Host.Outcome State Fault Refusal :=
  .next (settle (barWriteS .RGN .east sess (rgWrite region off value.toNat) s))

/-- REGION_ENABLE (R137, R138): software writes RGN_CTRL.ENABLE = 1. -/
def execRegionEnable (region : Nat) (sess : Option Nat) (s : State) : Host.Outcome State Fault Refusal :=
  .next (if 64 ≤ region then s else settle (barWriteS .RGN .east sess (regionEnable region) s))

/-- REGION_FILL_DONE (R138). -/
def execRegionFillDone (region : Nat) (s : State) : Host.Outcome State Fault Refusal :=
  .next (if 64 ≤ region then s else settle (fillDone region s))

/-- REGION_DISABLE (R139): software writes RGN_CTRL.ENABLE = 0. -/
def execRegionDisable (region : Nat) (sess : Option Nat) (s : State) : Host.Outcome State Fault Refusal :=
  .next (if 64 ≤ region then s else settle (barWriteS .RGN .east sess (regionDisable region) s))

/-- REGION_DISABLE_DONE (R139). -/
def execRegionDisableDone (region : Nat) (s : State) : Host.Outcome State Fault Refusal :=
  .next (if 64 ≤ region then s else settle (disableDone region s))

/-! ### Tiering -/

/-- HEAT_EPOCH (R147). -/
def execHeatEpoch (d : Die) (s : State) : Host.Outcome State Fault Refusal := .next (nextEpoch d s)

/-- SWEEP_VISIT (R148): the sweep comes to the entry of the page at a DLA of a tiered region. -/
def execSweepVisit (d : Die) (region dla : Nat) (s : State) : Host.Outcome State Fault Refusal :=
  .next (settle (sweepVisit d region dla s))

/-- MOVE_COMMIT (R152). -/
def execMoveCommit (d : Die) (slot : Nat) (s : State) : Host.Outcome State Fault Refusal := .next (settle (commitMove d slot s))

/-- MOVE_DRAIN_DONE (R154). -/
def execMoveDrainDone (d : Die) (slot : Nat) (s : State) : Host.Outcome State Fault Refusal := .next (settle (drainMove d slot s))

/-- PROMOTE_WAIT_EXPIRE (R145). -/
def execPromoteWaitExpire (d : Die) (region dla : Nat) (s : State) : Host.Outcome State Fault Refusal :=
  .next (settle (promoteExpire d region dla s))

/-- INIT_FILL_BLOCK (R156), of a subchannel. -/
def execInitFillBlock (d : Die) (sub : Nat) (s : State) : Host.Outcome State Fault Refusal := .next (settle (initFill d sub s))

/-! ### Keys and entropy -/

/-- SANITIZE_DONE (R213). -/
def execSanitizeDone (s : State) : Host.Outcome State Fault Refusal := .next (settle (saniDone s))

/-- ROTATION_BLOCK (R202), of a slot. -/
def execRotationBlock (slot : Nat) (s : State) : Host.Outcome State Fault Refusal := .next (settle (rotBlock slot s))

/-- DRBG_RESEED (R181). -/
def execDrbgReseed (d : Die) (s : State) : Host.Outcome State Fault Refusal := .next (drbgReseed d s)

/-- ENTROPY_FAIL (R181). -/
def execEntropyFail (d : Die) (test : Nat) (s : State) : Host.Outcome State Fault Refusal := .next (entropyFail d test s)

/-- LOCKDOWN (R208): software sets SEC_POLICY.LOCKDOWN, which only reset clears. -/
def execLockdown (sess : Option Nat) (s : State) : Host.Outcome State Fault Refusal :=
  .next (barWriteS .SEC .east sess (wfc F.SEC_POLICY.LOCKDOWN 1 0) s)

end Sys2Proof.Machine
end

