-- ==== Sys2Proof/Machine/RingCmds.lean ====
section
/-!
DEFINITION. Sys2Proof/Machine/RingCmds.lean: the commands of the rings (chapter 12) and the opcodes of descriptors (Tables 6.9, 8.3,
11.9, 12.8, 13.6, 14.5, 18.4): each carries on with a started descriptor of its opcode.
-/

namespace Sys2Proof.Machine

/-- Carry on with a started descriptor of an opcode, where its unit may (R292, R293). -/
def runDesc (d : Die) (sq seq op : Nat) (f : Desc → State → State) (s : State) : State :=
  match descOf s d sq seq op with
  | some e => settle (f e s)
  | none => s

/-- Carry on with a started descriptor of the Queue Engine, in its turn (R332). -/
def runQue (d : Die) (sq seq op : Nat) (f : Desc → State → State) (s : State) : State :=
  runDesc d sq seq op (fun e => inTurn d e (f e)) s

/-! ### Rings -/

/-- SQ_TAIL_DOORBELL (R289, R290): a CXL.io write of `size` bytes of a submission ring's tail. -/
def execSqTailDoorbell (port : Die) (n value size : Nat) (s : State) : Host.Outcome State Fault Refusal :=
  .next (doorbell .sq port n value size s)

/-- CQ_HEAD_DOORBELL (R289, R290). -/
def execCqHeadDoorbell (port : Die) (n value size : Nat) (s : State) : Host.Outcome State Fault Refusal :=
  .next (doorbell .cq port n value size s)

/-- EQ_HEAD_DOORBELL (R289, R300). -/
def execEqHeadDoorbell (port : Die) (n value size : Nat) (s : State) : Host.Outcome State Fault Refusal :=
  .next (doorbell .eq port n value size s)

/-- DESCRIPTOR_FETCH (R291, R292): a turn of the CPR for a ring, with the descriptors that the host returns. -/
def execDescriptorFetch (d : Die) (sq : Nat) (lines : List (Option Line)) (s : State) : Host.Outcome State Fault Refusal :=
  .next (settle (fetchTurn d sq lines s))

/-- COMPLETION_WRITE (R295 to R297): the completion that waits longest for a ring is written. -/
def execCompletionWrite (d : Die) (cq : Nat) (ok : Bool) (s : State) : Host.Outcome State Fault Refusal :=
  .next (settle (writeComp d cq ok s))

/-- IRQ_TIME_EXPIRE (R298): TIME_US have passed since the first completion or event that no interrupt has told of. -/
def execIrqTimeExpire (d : Die) (event : Bool) (ring : Nat) (s : State) : Host.Outcome State Fault Refusal :=
  .next (if event then
      (if rfb s F.CPR_EQ_CTRL.IRQ_EN d ring && decide (0 < (eqOf s d ring).sinceIrq) then
        sendIrq d (rf s F.CPR_EQ_CTRL.VECTOR d ring) (onEq d ring (fun q => { q with sinceIrq := 0 }) s)
      else s)
    else if rfb s F.CPR_CQ_CTRL.IRQ_EN d ring && decide (0 < (cqOf s d ring).sinceIrq) then cqIrq d ring s else s)

/-- CQ_STALL (R296): a completion ring has been full for 1 ms; posted once until it drains. -/
def execCqStall (d : Die) (cq : Nat) (s : State) : Host.Outcome State Fault Refusal :=
  let q := cqOf s d cq
  .next (if q.fullNs.isSome && !q.stallPosted then
      s |> onCq d cq (fun x => { x with stallPosted := true })
        |> post d ⟨0x0F06, sevInfo, locDie d, [it2 cq, it4 q.waiting.length], none, none⟩
    else s)

/-- SQ_ENABLE (R285 to R287): software sets EN. -/
def execSqEnable (d : Die) (sq : Nat) (s : State) : Host.Outcome State Fault Refusal :=
  .next (barWrite .CPR d (ringEnable .sq d sq) s)

/-- SQ_DISABLE (R301). -/
def execSqDisable (d : Die) (sq : Nat) (s : State) : Host.Outcome State Fault Refusal :=
  .next (barWrite .CPR d (sqDisable d sq) s)

/-- CQ_ENABLE (R285 to R287, R295). -/
def execCqEnable (d : Die) (cq : Nat) (s : State) : Host.Outcome State Fault Refusal :=
  .next (barWrite .CPR d (ringEnable .cq d cq) s)

/-- CQ_DISABLE (R287, R301). -/
def execCqDisable (d : Die) (cq : Nat) (s : State) : Host.Outcome State Fault Refusal :=
  .next (barWrite .CPR d (cqDisable d cq) s)

/-- EQ_ENABLE (R285 to R287, R299). -/
def execEqEnable (d : Die) (eq : Nat) (s : State) : Host.Outcome State Fault Refusal :=
  .next (barWrite .CPR d (ringEnable .eq d eq) s)

/-- EQ_DISABLE (R301). -/
def execEqDisable (d : Die) (eq : Nat) (s : State) : Host.Outcome State Fault Refusal :=
  .next (barWrite .CPR d (eqDisable d eq) s)

/-! ### Opcodes -/

/-- NOP, opcode 0x00 (R293). -/
def execNop (d : Die) (sq seq : Nat) (s : State) : Host.Outcome State Fault Refusal :=
  .next (runDesc d sq seq 0x00 (opNop d) s)

/-- MEM_COPY, opcode 0x01 (R303). -/
def execMemCopy (d : Die) (sq seq : Nat) (host : List LineData) (s : State) : Host.Outcome State Fault Refusal :=
  .next (runDesc d sq seq 0x01 (fun e t => opMemCopy d e host t) s)

/-- MEM_FILL, opcode 0x02 (R303). -/
def execMemFill (d : Die) (sq seq : Nat) (s : State) : Host.Outcome State Fault Refusal :=
  .next (runDesc d sq seq 0x02 (opMemFill d) s)

/-- TIMESTAMP, opcode 0x03 (R293). -/
def execTimestamp (d : Die) (sq seq : Nat) (s : State) : Host.Outcome State Fault Refusal :=
  .next (runDesc d sq seq 0x03 (opTimestamp d) s)

/-- RING_QUERY, opcode 0x04 (R293). -/
def execRingQuery (d : Die) (sq seq : Nat) (s : State) : Host.Outcome State Fault Refusal :=
  .next (runDesc d sq seq 0x04 (opRingQuery d) s)

/-- EM_LOOKUP, opcode 0x10 (R312). -/
def execEmLookup (d : Die) (sq seq : Nat) (s : State) : Host.Outcome State Fault Refusal :=
  .next (runDesc d sq seq 0x10 (fun e t => opLookup d e (fun t => t.type == 0) t) s)

/-- EM_LOOKUP_BATCH, opcode 0x11 (R321). -/
def execEmLookupBatch (d : Die) (sq seq : Nat) (host : List LineData) (s : State) : Host.Outcome State Fault Refusal :=
  .next (runDesc d sq seq 0x11 (fun e t => opBatch d e (fun t => t.type == 0) host t) s)

/-- LPM_LOOKUP, opcode 0x12 (R317). -/
def execLpmLookup (d : Die) (sq seq : Nat) (s : State) : Host.Outcome State Fault Refusal :=
  .next (runDesc d sq seq 0x12 (fun e t => opLookup d e (fun t => t.type != 0) t) s)

/-- LPM_LOOKUP_BATCH, opcode 0x13 (R321). -/
def execLpmLookupBatch (d : Die) (sq seq : Nat) (host : List LineData) (s : State) : Host.Outcome State Fault Refusal :=
  .next (runDesc d sq seq 0x13 (fun e t => opBatch d e (fun t => t.type != 0) host t) s)

/-- EM_UPDATE, opcode 0x18 (R318). -/
def execEmUpdate (d : Die) (sq seq : Nat) (s : State) : Host.Outcome State Fault Refusal :=
  .next (runDesc d sq seq 0x18 (opEmUpdate d) s)

/-- LPM_UPDATE, opcode 0x19 (R318). -/
def execLpmUpdate (d : Die) (sq seq : Nat) (s : State) : Host.Outcome State Fault Refusal :=
  .next (runDesc d sq seq 0x19 (opLpmUpdate d) s)

/-- TABLE_CREATE, opcode 0x20 (R308). -/
def execTableCreate (d : Die) (sq seq : Nat) (s : State) : Host.Outcome State Fault Refusal :=
  .next (runDesc d sq seq 0x20 (opCreate d) s)

/-- TABLE_DESTROY, opcode 0x21 (R309). -/
def execTableDestroy (d : Die) (sq seq : Nat) (s : State) : Host.Outcome State Fault Refusal :=
  .next (runDesc d sq seq 0x21 (opDestroy d) s)

/-- TABLE_PUBLISH, opcode 0x22 (R319). -/
def execTablePublish (d : Die) (sq seq : Nat) (s : State) : Host.Outcome State Fault Refusal :=
  .next (runDesc d sq seq 0x22 (opPublish d) s)

/-- TABLE_QUERY, opcode 0x23 (R323). -/
def execTableQuery (d : Die) (sq seq : Nat) (s : State) : Host.Outcome State Fault Refusal :=
  .next (runDesc d sq seq 0x23 (opTableQuery d) s)

/-- POOL_CREATE, opcode 0x30 (R327). -/
def execPoolCreate (d : Die) (sq seq : Nat) (s : State) : Host.Outcome State Fault Refusal :=
  .next (runQue d sq seq 0x30 (opPoolCreate d) s)

/-- POOL_DESTROY, opcode 0x31 (R334). -/
def execPoolDestroy (d : Die) (sq seq : Nat) (s : State) : Host.Outcome State Fault Refusal :=
  .next (runQue d sq seq 0x31 (opPoolDestroy d) s)

/-- POOL_QUERY, opcode 0x32 (R334). -/
def execPoolQuery (d : Die) (sq seq : Nat) (s : State) : Host.Outcome State Fault Refusal :=
  .next (runQue d sq seq 0x32 (opPoolQuery d) s)

/-- QUEUE_SET, opcode 0x33 (R339). -/
def execQueueSet (d : Die) (sq seq : Nat) (s : State) : Host.Outcome State Fault Refusal :=
  .next (runQue d sq seq 0x33 (opQueueSet d) s)

/-- QUEUE_QUERY, opcode 0x34 (R334). -/
def execQueueQuery (d : Die) (sq seq : Nat) (s : State) : Host.Outcome State Fault Refusal :=
  .next (runQue d sq seq 0x34 (opQueueQuery d) s)

/-- ALLOCATE, opcode 0x38 (R335). -/
def execAllocate (d : Die) (sq seq : Nat) (s : State) : Host.Outcome State Fault Refusal :=
  .next (runQue d sq seq 0x38 (opAllocate d) s)

/-- FREE, opcode 0x39 (R338). -/
def execFree (d : Die) (sq seq : Nat) (host : List LineData) (s : State) : Host.Outcome State Fault Refusal :=
  .next (runQue d sq seq 0x39 (fun e t => opFree d e host t) s)

/-- ENQUEUE, opcode 0x3A (R336). -/
def execEnqueue (d : Die) (sq seq : Nat) (s : State) : Host.Outcome State Fault Refusal :=
  .next (runQue d sq seq 0x3A (opEnqueue d) s)

/-- DEQUEUE, opcode 0x3B (R337). -/
def execDequeue (d : Die) (sq seq : Nat) (s : State) : Host.Outcome State Fault Refusal :=
  .next (runQue d sq seq 0x3B (fun e t => opDequeue d e true t) s)

/-- PEEK, opcode 0x3C (R337). -/
def execPeek (d : Die) (sq seq : Nat) (s : State) : Host.Outcome State Fault Refusal :=
  .next (runQue d sq seq 0x3C (fun e t => opDequeue d e false t) s)

/-- FLUSH, opcode 0x3D (R340). -/
def execFlush (d : Die) (sq seq : Nat) (s : State) : Host.Outcome State Fault Refusal :=
  .next (runQue d sq seq 0x3D (opFlush d) s)

/-- REMOTE_ENQUEUE, opcode 0x3E (R342). -/
def execRemoteEnqueue (d : Die) (sq seq : Nat) (host : List LineData) (s : State) : Host.Outcome State Fault Refusal :=
  .next (runQue d sq seq 0x3E (fun e t => opRemoteEnqueue d e host t) s)

/-- MIGRATE, opcode 0x50 (R162). -/
def execMigrate (d : Die) (sq seq : Nat) (s : State) : Host.Outcome State Fault Refusal :=
  .next (runDesc d sq seq 0x50 (opMigrate d) s)

/-- QUERY_PAGE, opcode 0x51 (R162). -/
def execQueryPage (d : Die) (sq seq : Nat) (s : State) : Host.Outcome State Fault Refusal :=
  .next (runDesc d sq seq 0x51 (opQueryPage d) s)

/-- PIN, opcode 0x52 (R162). -/
def execPin (d : Die) (sq seq : Nat) (s : State) : Host.Outcome State Fault Refusal :=
  .next (runDesc d sq seq 0x52 (opPin d) s)

/-- KEY_GENERATE, opcode 0x60 (R183). -/
def execKeyGenerate (d : Die) (sq seq : Nat) (s : State) : Host.Outcome State Fault Refusal :=
  .next (runDesc d sq seq 0x60 (opKey d) s)

/-- KEY_ROTATE, opcode 0x61 (R201). -/
def execKeyRotate (d : Die) (sq seq : Nat) (s : State) : Host.Outcome State Fault Refusal :=
  .next (runDesc d sq seq 0x61 (opKey d) s)

/-- KEY_DESTROY, opcode 0x62 (R183). -/
def execKeyDestroy (d : Die) (sq seq : Nat) (s : State) : Host.Outcome State Fault Refusal :=
  .next (runDesc d sq seq 0x62 (opKey d) s)

/-- KEY_BIND, opcode 0x63 (R185). -/
def execKeyBind (d : Die) (sq seq : Nat) (s : State) : Host.Outcome State Fault Refusal :=
  .next (runDesc d sq seq 0x63 (opKey d) s)

/-- KEY_QUERY, opcode 0x64 (R183). -/
def execKeyQuery (d : Die) (sq seq : Nat) (s : State) : Host.Outcome State Fault Refusal :=
  .next (runDesc d sq seq 0x64 (opKey d) s)

/-- SANITIZE, opcode 0x65 (R211). -/
def execSanitize (d : Die) (sq seq : Nat) (s : State) : Host.Outcome State Fault Refusal :=
  .next (runDesc d sq seq 0x65 (opSanitize d) s)

/-- PMC_SNAPSHOT, opcode 0x80 (R418). -/
def execPmcSnapshot (d : Die) (sq seq : Nat) (s : State) : Host.Outcome State Fault Refusal :=
  .next (runDesc d sq seq 0x80 (opSnapshot d) s)

/-- PMC_TELEMETRY, opcode 0x81 (R418). -/
def execPmcTelemetry (d : Die) (sq seq : Nat) (s : State) : Host.Outcome State Fault Refusal :=
  .next (runDesc d sq seq 0x81 (opTelemetry d) s)

/-- REMOTE_READ, opcode 0x90 (R277). -/
def execRemoteRead (d : Die) (sq seq : Nat) (s : State) : Host.Outcome State Fault Refusal :=
  .next (runDesc d sq seq 0x90 (opRemoteRead d) s)

/-- REMOTE_WRITE, opcode 0x91 (R277). -/
def execRemoteWrite (d : Die) (sq seq : Nat) (host : List LineData) (s : State) : Host.Outcome State Fault Refusal :=
  .next (runDesc d sq seq 0x91 (fun e t => opRemoteWrite d e host t) s)

/-- PEER_QUERY, opcode 0x92 (R276). -/
def execPeerQuery (d : Die) (sq seq : Nat) (s : State) : Host.Outcome State Fault Refusal :=
  .next (runDesc d sq seq 0x92 (opPeerQuery d) s)

/-- PEER_RESET, opcode 0x93 (R280). -/
def execPeerReset (d : Die) (sq seq : Nat) (s : State) : Host.Outcome State Fault Refusal :=
  .next (runDesc d sq seq 0x93 (opPeerReset d) s)

/-! ### What the engines do on their own -/

/-- TABLE_FILL_DONE (R308): the zero fill of a new table has been accepted. -/
def execTableFillDone (table : Nat) (s : State) : Host.Outcome State Fault Refusal := .next (settle (tableFilled table s))

/-- LKE_CLEANUP (R320). -/
def execLkeCleanup (table : Nat) (s : State) : Host.Outcome State Fault Refusal := .next (settle (cleanupRun table s))

/-- FLUSH_DONE (R340): the walk of a FLUSH ends. -/
def execFlushDone (d : Die) (sq seq : Nat) (s : State) : Host.Outcome State Fault Refusal :=
  .next (runQue d sq seq 0x3D (fun e t => if e.phase = 1 then flushDone d e t else t) s)

/-- STACK_FILL (R328), of a pool of the die that owns it. -/
def execStackFill (owner : Die) (pool : Nat) (s : State) : Host.Outcome State Fault Refusal := .next (settle (poolFill owner pool s))

/-- STACK_SPILL (R328). -/
def execStackSpill (owner : Die) (pool : Nat) (s : State) : Host.Outcome State Fault Refusal := .next (settle (poolSpill owner pool s))

/-- READ_AHEAD (R333). -/
def execReadAhead (owner : Die) (queue : Nat) (s : State) : Host.Outcome State Fault Refusal := .next (settle (queueAhead owner queue s))

end Sys2Proof.Machine
end

