-- ==== Sys2Proof/Machine/Sideband.lean ====
section
/-!
DEFINITION. Sys2Proof/Machine/Sideband.lean: the I3C sideband (R442, R455, Table 21.5).
-/

namespace Sys2Proof.Machine

/-- Whether the sideband may read a register (R442). -/
def sidebandReads (r : RegName) : Bool :=
  match (regPlace r).block with
  | .IDENT | .DEV | .CFG => true
  | _ => [RegName.PMC_TJ_A, .PMC_TJ_B, .PMC_TJ_SUM, .PMC_THROTTLE, .PMC_PWR_A, .PMC_PWR_B, .PMC_PWR_C, .PMC_PWR_DIE, .EVT_STATUS].contains r

/-- What command 0x01 reads at an offset: zero outside the registers of R442. -/
def sidebandWord (s : State) (a : Nat) : Word :=
  match regAt a with
  | some (r, _, _) => if sidebandReads r then readWord s a else 0
  | none => 0

/-- Whether the senior die's management core answers: not before power good. -/
def sidebandUp (s : State) : Bool := s.pins.pwrOk

/-- SIDEBAND_READ (R442, Table 21.5). -/
def execSidebandRead (offset : Nat) (s : State) : Host.Outcome State Fault Refusal :=
  .next (if sidebandUp s then send (.sideband (leBytes 4 (sidebandWord s offset).toNat)) s else s)

/-- REQ_SERVE through the sideband wakes a device that is in HOLD or on its way there (R382). -/
def sidebandServe (s : State) : State :=
  if s.dev.trans = some .toHold ∨ (s.dev.mode = .hold ∧ s.dev.trans.isNone) then wakeBy 3 s else modeRequest .serve 3 s

/-- A write of DEV_MODE_CTRL through the sideband reaches REQ_SERVE and REQ_FREEZE and no other field (R442). -/
def sidebandCtrl (v : Nat) (s : State) : State :=
  s |> onlyIf (bitn v 3) (modeRequest .freeze 3) |> onlyIf (bitn v 1) sidebandServe

/-- SIDEBAND_WRITE (R442, Table 21.5). -/
def execSidebandWrite (offset : Nat) (value : Word) (s : State) : Host.Outcome State Fault Refusal :=
  .next (if sidebandUp s ∧ offset = regAddr .DEV_MODE_CTRL .east 0 then settle (sidebandCtrl value.toNat s) else s)

/-- The oldest unread record of the buffer, which is thereby read; 32 zero bytes where none is unread. -/
def sidebandNext (s : State) : State :=
  match s.sideband with
  | [] => send (.sideband (List.replicate 32 0)) s
  | r :: rs => send (.sideband (eventBytes r false)) { s with sideband := rs }

/-- SIDEBAND_EVENT (R391, Table 21.5). -/
def execSidebandEvent (s : State) : Host.Outcome State Fault Refusal := .next (if sidebandUp s then sidebandNext s else s)

/-- A firmware image has come whole through the sideband: its slot holds it where its signature verifies (R377). -/
def sidebandFirmware (slot : Nat) (signed : Bool) (s : State) : State :=
  if flashLive s = false ∨ 2 ≤ slot then s
  else
    let fl := s.dev.flash
    { s with sbXfer := [], dev := { s.dev with flash := { fl with fw0 := if slot = 0 then signed else fl.fw0, fw1 := if slot = 1 then signed else fl.fw1 } } }

/-- SIDEBAND_TRANSFER: bytes of an image or of firmware (Table 21.5). The transfer commands' own protocol is not in the spec: the bytes are
collected, an image is taken up by IMAGE_UPDATE, and a firmware image by the end that the operand gives. -/
def execSidebandTransfer (code : Nat) (bytes : List Byte) (fin : XferEnd) (s : State) : Host.Outcome State Fault Refusal :=
  .next (if sidebandUp s = false ∨ code < 0x20 ∨ 0x2F < code then s
    else
      let s1 := { s with sbXfer := s.sbXfer ++ bytes }
      match fin with
      | .more => s1
      | .firmware slot signed => sidebandFirmware slot signed s1)

end Sys2Proof.Machine
end

