-- ==== Sys2Proof/Machine/RegWrite.lean ====
section
/-!
DEFINITION. Sys2Proof/Machine/RegWrite.lean: writes through BAR0 at an offset (R249, R430 to R440): the registers that only store what is
written, by their access types, and the others, whose effects are those of their own commands.
-/

namespace Sys2Proof.Machine

/-! ### Rings (chapter 12) -/

/-- The fields of a ring's control register that are writable only while EN = 0, and the others. -/
def ringLocked : RingKind → List Fld
  | .sq => [F.CPR_SQ_CTRL.LOG2SIZE, F.CPR_SQ_CTRL.CQ, F.CPR_SQ_CTRL.DOMAIN, F.CPR_SQ_CTRL.KEY_ADMIN]
  | .cq => [F.CPR_CQ_CTRL.LOG2SIZE]
  | .eq => [F.CPR_EQ_CTRL.LOG2SIZE]
def ringFree : RingKind → List Fld
  | .sq => []
  | .cq => [F.CPR_CQ_CTRL.IRQ_EN, F.CPR_CQ_CTRL.VECTOR]
  | .eq => [F.CPR_EQ_CTRL.IRQ_EN, F.CPR_EQ_CTRL.VECTOR, F.CPR_EQ_CTRL.SEV_MASK]

/-- Software clears EN of a ring (R301). -/
def ringDisable (k : RingKind) (d : Die) (n : Nat) (s : State) : State :=
  match k with
  | .sq => sqDisable d n s
  | .cq => cqDisable d n s
  | .eq => eqDisable d n s

/-- A write of a ring's control register: a change of a field that EN = 1 locks is refused with REASON 6. -/
def ringCtrl (k : RingKind) (d : Die) (n v : Nat) (s : State) : State :=
  let s1 := putFields (ringFree k) d n v s
  if rfb s (ringEn k) d n then
    let bad := (ringLocked k).any (fun (f : Fld) => fld v f.lo f.w != rf s f d n)
    s1 |> onlyIf bad (ringRefuse k d n 6) |> onlyIf (!(bitn v 0)) (ringDisable k d n)
  else s1 |> putFields (ringLocked k) d n v |> onlyIf (bitn v 0) (ringEnable k d n)

/-- A write of a ring's base: refused with REASON 6 where it would change it while EN = 1. -/
def ringBaseWrite (k : RingKind) (r : RegName) (d : Die) (n v : Nat) (s : State) : State :=
  if rfb s (ringEn k) d n = false then plainWrite r d n v s
  else if wordWritten r false (rdReg s r d n) v = rdReg s r d n then s
  else ringRefuse k d n 6 s

/-! ### Other registers with effects -/

/-- A write of SRU_RETIRE_CTRL, which acts for the whole die (R130). -/
def retireCtrl (d : Die) (v : Nat) : State → State :=
  each (List.range 6) (fun c t => t |> putFields [F.SRU_RETIRE_CTRL.SALVAGE_HOLD, F.SRU_RETIRE_CTRL.SALVAGE_MS] d c v
    |> onlyIf (bitn v 1) (wf F.SRU_RETIRE_CTRL.SALVAGE_HOLD d c 0))

/-- A write of CWU_INJ_CTRL: the settings, ARM and DISARM (R102, R104). -/
def injCtrl (d : Die) (c v : Nat) (s : State) : State :=
  s |> putFields [F.CWU_INJ_CTRL.SUB, F.CWU_INJ_CTRL.WORD, F.CWU_INJ_CTRL.FLIP_EN, F.CWU_INJ_CTRL.SKEW_EN, F.CWU_INJ_CTRL.MATCH_EN, F.CWU_INJ_CTRL.SKEW] d c v
    |> onlyIf (bitn v 0) (injArm d c) |> onlyIf (bitn v 1) (injDisarm d c)

/-- A write of CWU_DEVCNT_SEL. -/
def devcntSel (d : Die) (c v : Nat) (s : State) : State :=
  s |> putFields [F.CWU_DEVCNT_SEL.DEV, F.CWU_DEVCNT_SEL.RANK, F.CWU_DEVCNT_SEL.SUB] d c v |> onlyIf (bitn v 8) (devcntClear d c v)

/-- A write of CFE_TRAIN_CTRL: REFUSED is cleared by 1 first. -/
def trainCtrl (d : Die) (c v : Nat) (s : State) : State :=
  s |> onlyIf (bitn v 9) (wf F.CFE_TRAIN_CTRL.REFUSED d c 0) |> retrainRequest d c v

/-- A write of HPC_LINK_CTRL (Table 10.6). -/
def linkCtrl (p : Die) (v : Nat) (s : State) : State :=
  s |> onlyIf (bitn v 0 && !(coreBypass s p)) (retrainPort p 2 false) |> onlyIf (bitn v 1) (portDown p 2) |> onlyIf (bitn v 2) (trainPort p)

/-- A write of HPC_INJ_CTRL. -/
def hpcInjCtrl (p : Die) (v : Nat) (s : State) : State :=
  s |> putFields [F.HPC_INJ_CTRL.MODE, F.HPC_INJ_CTRL.KIND, F.HPC_INJ_CTRL.EXEMPT, F.HPC_INJ_CTRL.RATE] p 0 v
    |> onlyIf (bitn v 0) (hpcArm p v) |> onlyIf (bitn v 1) (wf F.HPC_INJ_CTRL.ARMED p 0 0)

/-- A write of FPC_INJ_CTRL. -/
def fpcInjCtrl (d : Die) (v : Nat) (s : State) : State :=
  s |> putFields [F.FPC_INJ_CTRL.MODE, F.FPC_INJ_CTRL.KIND, F.FPC_INJ_CTRL.DIR, F.FPC_INJ_CTRL.RATE, F.FPC_INJ_CTRL.DELAY_US] d 0 v
    |> onlyIf (bitn v 0) (fpcArm d v) |> onlyIf (bitn v 1) (wf F.FPC_INJ_CTRL.ARMED d 0 0)

/-- A write of FPC_PORT_CFG: clearing EN takes the port's link down, and DEG_FPORT follows EN (Table 16.4). -/
def fabCfgWrite (d : Die) (v : Nat) (s : State) : State :=
  let off := rfb s F.FPC_PORT_CFG.EN d 0 && !(bitn v 0)
  let s1 := plainWrite .FPC_PORT_CFG d 0 v (onlyIf off (ethDown d) s)
  if anyFabDown s1 then (if rfc s1 F.DEV_STATUS.DEG_FPORT 0 = 1 then s1 else degrade F.DEV_STATUS.DEG_FPORT s1)
  else undegrade F.DEV_STATUS.DEG_FPORT s1

/-- A write of CKS_PLAN: N of a CKS-M is derived, and its fields are read only (R350). -/
def planWrite (d : Die) (m v : Nat) (s : State) : State :=
  plainWrite .CKS_PLAN d m (if isM m then setFld v 0 16 (fld (rdReg s .CKS_PLAN d m) 0 16) else v) s

/-- A write of DEV_MODE_CTRL: THRIFT_X8, the flag, and the requests, FREEZE first. -/
def modeCtrl (v : Nat) (s : State) : State :=
  s |> wfc F.DEV_MODE_CTRL.THRIFT_X8 (fld v 4 1) 0 |> onlyIf (bitn v 8) (wfc F.DEV_MODE_CTRL.REFUSED 0 0)
    |> onlyIf (bitn v 3) (modeRequest .freeze 2) |> onlyIf (bitn v 2) (modeRequest .hold 2)
    |> onlyIf (bitn v 0) (modeRequest .thrift 2) |> onlyIf (bitn v 1) (modeRequest .serve 2)

/-- A write of EVT_FRZ_CTRL: FREEZE bits, then THAW bits for channels that are held (R394, R397). -/
def frzCtrl (d : Die) (v : Nat) (s : State) : State :=
  s |> each ((List.range 6).filter (bitn v)) (fun c => freezeChan d c ⟨4, 255, 0, none, 255, 255, 0, 0, []⟩ none)
    |> each ((List.range 6).filter (fun c => bitn v (8 + c))) (fun c t => match (chan t d c).frozen with
         | some z => if z.held then thaw d c z t else t
         | none => t)

/-- A write of PMC_CNT_CFG of counter n: CHAIN is reserved on even counters. -/
def cntCfgWrite (d : Die) (n v : Nat) : State → State :=
  let w := fld v 0 21 + fld v 24 1 * 2 ^ 24 + (if n % 2 = 1 then fld v 25 1 * 2 ^ 25 else 0) + fld v 26 1 * 2 ^ 26
  onPmc d (fun p => { p with cfg := if w = 0 then nerase p.cfg n else nset p.cfg n w })

/-- A write of CTRG_CTRL: a snapshot comes before CLEAR_ALL (Table 18.5). -/
def ctrgCtrl (v : Nat) (s : State) : State :=
  s |> wfc F.CTRG_CTRL.TRIG_EN (fld v 2 1) 0 |> wfc F.CTRG_CTRL.TRIG_CODE (fld v 16 16) 0 |> freezeCounters (fld v 1 1)
    |> onlyIf (bitn v 0) requestSnap |> onlyIf (bitn v 3) clearCounters

/-- A write of SEC_POLICY: LOCKDOWN can only be set (R208). -/
def policyWrite (v : Nat) (s : State) : State := s |> onlyIf (bitn v 0) (wfc F.SEC_POLICY.LOCKDOWN 1 0) |> plainWrite .SEC_POLICY .east 0 v

/-! ### Dispatch on the register -/

/-- The effect of an accepted write on a register: copy i of it, in a die's window. -/
def regEffect (r : RegName) (d : Die) (i v : Nat) (s : State) : State :=
  match r with
  | .RGN_RANGE => rgWrite i 0 v s
  | .RGN_ATTR => rgWrite i 4 v s
  | .RGN_PLACE => rgWrite i 8 v s
  | .RGN_MAP => rgWrite i 12 v s
  | .RGN_CTRL => rgWrite i 16 v s
  | .SEC_POLICY => policyWrite v s
  | .CFE_TRAIN_CTRL => trainCtrl d i v s
  | .CWU_ERASE => eraseWrite d i v s
  | .CWU_INJ_CTRL => injCtrl d i v s
  | .CWU_DEVCNT_SEL => devcntSel d i v s
  | .SRU_EVAC_CTRL => evacCtrl d i v s
  | .SRU_RETIRE_CTRL => retireCtrl d v s
  | .CDR_AGENT_MAP => agentMapWrite d v s
  | .CDR_PROBE_HI => probeWrite d v s
  | .HPC_LINK_CFG => linkCfgWrite d v s
  | .HPC_LINK_CTRL => linkCtrl d v s
  | .HPC_INJ_CTRL => hpcInjCtrl d v s
  | .FPC_NODE => sharedWrite .FPC_NODE d v s
  | .FPC_PORT_CFG => fabCfgWrite d v s
  | .FPC_PEER_MAC_LO => peerMacWrite d v s
  | .FPC_PEER_CTRL => peerCtrlWrite d v s
  | .FPC_INJ_CTRL => fpcInjCtrl d v s
  | .CPR_SQ_BASE_LO => ringBaseWrite .sq r d i v s
  | .CPR_SQ_BASE_HI => ringBaseWrite .sq r d i v s
  | .CPR_CQ_BASE_LO => ringBaseWrite .cq r d i v s
  | .CPR_CQ_BASE_HI => ringBaseWrite .cq r d i v s
  | .CPR_EQ_BASE_LO => ringBaseWrite .eq r d i v s
  | .CPR_EQ_BASE_HI => ringBaseWrite .eq r d i v s
  | .CPR_SQ_CTRL => ringCtrl .sq d i v s
  | .CPR_CQ_CTRL => ringCtrl .cq d i v s
  | .CPR_EQ_CTRL => ringCtrl .eq d i v s
  | .LKE_TBL_SEL => sharedWrite .LKE_TBL_SEL d v s
  | .CKS_PLAN => planWrite d i v s
  | .CKS_OUT2 | .CKS_OUT3 | .CKS_OUT4 | .CKS_OUT5 => if isM i then plainWrite r d i v s else s
  | .CKS_COMMIT => cksCommit d i v s
  | .CKS_INJ => s |> onlyIf (bitn v 0) (wf F.CKS_INJ.ARMED d i 1) |> onlyIf (bitn v 1) (wf F.CKS_INJ.ARMED d i 0)
  | .DEV_MODE_CTRL => modeCtrl v s
  | .EVT_FRZ_CTRL => frzCtrl d v s
  | .PMC_THERM_CFG => sharedWrite .PMC_THERM_CFG d v s
  | .PMC_CNT_CFG => cntCfgWrite d i v s
  | .PMC_CNT_LO => reprogram d i v s
  | .PMC_CNT_HI => stageWrite d i v s
  | .CTRG_CTRL => ctrgCtrl v s
  | _ => plainWrite r d i v s

/-! ### The write -/

/-- Whether a register has a W1C field. -/
def hasFlags (r : RegName) : Bool := (regFields r).any (fun (f : Fld) => f.acc == .W1C)

/-- A write of one word at a BAR0 offset (R430, R436, R438). In FROZEN it clears W1C flags anywhere (Table 20.4). -/
def writeWord (a v : Nat) (sess : Option Nat) (s : State) : State :=
  match regAt a with
  | none => if a < 0x800000 ∧ diePresent s (winOf a).1 ∧ unreachable s (winOf a).1 then countRefused .unreach s else s
  | some (r, d, i) =>
    match verdict s (regPlace r).block d (sessOwner s sess) with
    | .take => regEffect r d i v s
    | .locked => if hasFlags r then clearWrite r d i v s else countRefused .locked s
    | x => countRefused x s

/-- A write of a host port is carried out: 4 or 8 bytes, aligned; a smaller one is reported (R249). -/
def barNow (p : Die) (a : Nat) (v : BitVec 64) (size : Nat) (sess : Option Nat) (s : State) : State :=
  if size < 4 then
    s |> setFlag F.HPC_STATUS.BAD_ACC p 0 |> postLim p 0 ⟨0x010B, sevInfo, locDie p, [it1 0, it4 a, it1 size], none, none⟩ []
  else if a % size ≠ 0 then s
  else if size = 4 then writeWord a (fld v.toNat 0 32) sess s
  else if size = 8 then s |> writeWord a (fld v.toNat 0 32) sess |> writeWord (a + 4) (fld v.toNat 32 32) sess
  else s

/-- The die that answers a BAR0 offset: the window's, and the senior die for the common window (R431). -/
def barDie (s : State) (a : Nat) : Die := if a < 0x800000 then (winOf a).1 else seniorDie s

/-- A write through BAR0 on a host port. One that crosses the Passage waits for the end of a Passage reset, and the later ones of its port wait behind
it (R432, R440). -/
def barStore (p : Die) (a : Nat) (v : BitVec 64) (size : Nat) (sess : Option Nat) (s : State) : State :=
  if portAlive s p = false then s
  else if s.psg.resetting && (barDie s a != p || s.psg.barHeld.any (fun x => x.port == p)) then
    { s with psg := { s.psg with barHeld := s.psg.barHeld ++ [⟨p, a, v, size, sess⟩] } }
  else barNow p a v size sess s

/-- The register writes that have waited are carried out, in order (R385, R432). -/
def barGo (s : State) : State :=
  each s.psg.barHeld (fun x => barNow x.port x.addr x.value x.size x.sess) { s with psg := { s.psg with barHeld := [] } }

/-- REGISTER_WRITE (R249, R434). -/
def execRegisterWrite (port : Die) (offset : Nat) (value : BitVec 64) (size : Nat) (sess : Option Nat) (s : State) :
    Host.Outcome State Fault Refusal := .next (settle (barStore port offset value size sess s))

end Sys2Proof.Machine
end

