-- ==== Sys2Proof/Machine/Passage.lean ====
section
/-!
DEFINITION. Sys2Proof/Machine/Passage.lean: seniority and the Passage (R384 to R386, Table 16.10).
-/

namespace Sys2Proof.Machine

/-- Change the Passage's state. -/
def onPsg (f : PsgSt → PsgSt) (s : State) : State := { s with psg := f s.psg }

/-- Whether a die claims SENIOR. -/
def claims (s : State) (d : Die) : Bool :=
  match d with
  | .east => s.psg.claimEast
  | .west => s.psg.claimWest

/-- Whether a die takes part in heartbeats (R384): none in HOLD, none from a fenced die, none on a single-die part. -/
def beating (s : State) (d : Die) : Bool :=
  partDual s.dev.part && s.pins.pwrOk && !(s.psg.lost) && !(s.dev.mode == .hold) && !(fenced s d)

/-- Both ends of the Passage. -/
def bothDies : List Die := [.east, .west]

/-- A Passage reset is forced (R385): the link retrains. -/
def passageReset (d : Die) (cause : Nat) (s : State) : State :=
  s |> onPsg (fun p => { p with resetting := true })
    |> each bothDies (fun x t => t |> wf F.PSG_STATUS.LINK_UP x 0 0 |> setFlag F.PSG_STATUS.RESET_SEEN x 0 |> cntF F.PSG_COUNT.RESETS x 0 1)
    |> post d ⟨0x1006, sevCorrected, locDie d, [it1 (Config.detailCode 0x1006 cause)], none, none⟩

/-- PASSAGE_HEARTBEAT_SEND (R384): a die's claim goes onto the Passage. -/
def execPassageHeartbeatSend (d : Die) (s : State) : Host.Outcome State Fault Refusal :=
  .next (if beating s d then onPsg (fun p => { p with fly := p.fly ++ [(d, claims s d)] }) s else s)

/-- The dies disagree (Table 16.10): BAR0 writes are refused, and a Passage reset is forced; found in three Passage resets within a second
it is FATAL. -/
def disagreement (d : Die) (claim : Bool) (s : State) : State :=
  let found := (s.psg.found.filter (fun t => decide (s.nowNs < t + 1000000000))) ++ [s.nowNs]
  let s1 := s |> onPsg (fun p => { p with disagree := true, found := found }) |> wfc F.DEV_STATUS.DISAGREE 1 0
    |> post d ⟨0x1005, sevUncorrected, locDie d, [it1 (Config.detailCode 0x1005 (b2n claim))], none, none⟩
  if 3 ≤ found.length then
    s1 |> post (seniorDie s) ⟨0x100B, sevFatal, locDie (seniorDie s), [], none, none⟩ |> freezeDevice 6 true
  else passageReset (seniorDie s) 0 s1

/-- A heartbeat arrives at a die: the oldest that the other die has sent. One that fails its check counts as a claim of SENIOR
(R384). -/
def heartbeatIn (d : Die) (ok : Bool) (s : State) : State :=
  match s.psg.fly.find? (fun p => p.1 == otherDie d) with
  | none => s
  | some b =>
    if beating s d = false ∨ s.psg.resetting then s
    else
      let claim := b.2 || !ok
      let s1 := s |> onPsg (fun p => { p with fly := p.fly.erase b }) |> wf F.PSG_STATUS.MISSED d 0 0
      if claim = claims s d then disagreement d claim s1 else onPsg (fun p => { p with disagree := false }) s1

/-- PASSAGE_HEARTBEAT (R384, R385). -/
def execPassageHeartbeat (d : Die) (ok : Bool) (s : State) : Host.Outcome State Fault Refusal := .next (settle (heartbeatIn d ok s))

/-- A die has missed three heartbeats in a row with the link up: it forces a Passage reset (Table 16.10). -/
def heartbeatMissed (d : Die) (s : State) : State :=
  if beating s d = false ∨ s.psg.resetting ∨ rfb s F.PSG_STATUS.LINK_UP d 0 = false then s
  else passageReset d 1 (wf F.PSG_STATUS.MISSED d 0 3 s)

/-- HEARTBEAT_MISSED (R385). -/
def execHeartbeatMissed (d : Die) (s : State) : Host.Outcome State Fault Refusal := .next (settle (heartbeatMissed d s))

/-- The dies sample the straps again: each is what a die has read for SENIOR_WEST. Where they agree, that is the configuration
(R384, Table 16.10). -/
def resample (east west : Bool) (s : State) : State :=
  let s1 := onPsg (fun p => { p with claimEast := !east, claimWest := west }) s
  let s2 := if east = west then { s1 with dev := { s1.dev with straps := { s1.dev.straps with seniorWest := west } } } else s1
  s2 |> wfc F.DEV_STATUS.SENIOR_WEST (b2n s2.dev.straps.seniorWest) 0
     |> each bothDies (fun d => wf F.PSG_STATUS.SENIOR d 0 (b2n (seniorDie s2 == d)))

/-- What has waited for the Passage goes on, in order: the requests toward either die, then the register writes (R385, R432, R440). -/
def crossingsGo (s : State) : State :=
  s |> each bothDies (fun d t => each (die t d).psgHeld present (onDie d (fun x => { x with psgHeld := [] }) t)) |> barGo

/-- The Passage has trained again: the crossings go on, and the cycle counters are aligned (R385, R414). -/
def passageBack (east west : Bool) (s : State) : State :=
  if s.psg.resetting = false ∨ s.psg.lost then s
  else
    s |> onPsg (fun p => { p with resetting := false }) |> each bothDies (fun d => wf F.PSG_STATUS.LINK_UP d 0 1)
      |> onlyIf s.psg.disagree (resample east west)
      |> (fun t => onDie (otherDie (seniorDie t)) (fun x => { x with cyc := (die t (seniorDie t)).cyc }) t)
      |> crossingsGo

/-- PASSAGE_RESET_DONE (R385). -/
def execPassageResetDone (strapEast : Bool) (strapWest : Bool) (s : State) : Host.Outcome State Fault Refusal :=
  .next (settle (passageBack strapEast strapWest s))

/-- The Passage is lost: the senior goes on in DEGRADED, and the junior fences itself (R385, R386). -/
def passageGone (linkDown : Bool) (s : State) : State :=
  if partDual s.dev.part = false ∨ s.pins.pwrOk = false ∨ s.psg.lost then s
  else
    let d := seniorDie s
    s |> onPsg (fun p => { p with lost := true, resetting := false, fly := [] }) |> each bothDies (fun x => wf F.PSG_STATUS.LINK_UP x 0 0)
      |> post d ⟨0x1007, sevUncorrected, locDie d, [it1 (Config.detailCode 0x1007 (b2n linkDown))], none, none⟩
      |> degrade F.DEV_STATUS.DEG_PASSAGE |> fence (otherDie d) 1 |> crossingsGo

/-- PASSAGE_LOST (R385). -/
def execPassageLost (linkDown : Bool) (s : State) : Host.Outcome State Fault Refusal := .next (settle (passageGone linkDown s))

end Sys2Proof.Machine
end

