-- ==== Sys2Proof/Machine/SruCmds.lean ====
section
/-!
DEFINITION. Sys2Proof/Machine/SruCmds.lean: the copying back of mirrored lines, the end of salvage, and re-homing (R129 to R131, R155).
-/

namespace Sys2Proof.Machine

/-- EVAC_COPY (R126). -/
def execEvacCopy (d : Die) (s : State) : Host.Outcome State Fault Refusal := .next (settle (evacCopy d s))

/-! ### Mirrored lines copied back (R129, Table 5.4) -/

/-- Whether a die still answers some lines by R129 or R131. -/
def dieFresh (s : State) (d : Die) : Bool := (liveSubs s d).any (fun i => (sub s d i).fresh != .none)

/-- Whether a line on a die has not been written since the takeover or the switch. -/
def lineFresh (s : State) (d : Die) (h : Nat) : Bool :=
  match placeOf s h with
  | none => false
  | some (_, i, loc) =>
    let b := sub s d i
    b.fresh != .none && decide (b.freshFrom ≤ loc / 4) && (nget b.cells (steer s d i loc h)).isNone && (newestWrite s d i h).isNone

/-- The DLAs of a region's lines that a die holds other than as blank lines: those in its arrays and those on their way there. -/
def writtenLines (s : State) (d : Die) (n : Nat) : List Nat :=
  let hs := (liveSubs s d).flatMap (fun i =>
    let b := sub s d i
    b.cells.map (fun c => cellHome s d i c.1) ++
      (b.wrq ++ b.demandHeld ++ b.replay.map (·.req) ++ (chan s d (i / 2)).mxin).filterMap (fun (r : Req) => if r.write then some r.home else none))
  hs.filterMap (fun h => match flatOf s h with
    | some (m, dla) => if m = n then some dla else none
    | none => none)

/-- Read one line of the other die's copy, with the faults that the read meets, as the line of the copy that is to be written (R99, R129,
Table 5.4): poison where it cannot be read there. -/
def rebuildRead (d : Die) (n dla : Nat) (flips : Flips) (s : State) : LineData × State :=
  let e := otherDie d
  let a := rgAttr s n
  let h := flatHome s n e dla
  match placeOf s h with
  | none => (poisoned, s)
  | some (_, i, loc) =>
    if belowBad s e n dla ∨ (answerOf s e i loc h).any (· != .zeros) then (poisoned, s)
    else
      let rank := qRank s e (loc / 4)
      let raw := if (answerOf s e i loc h).isSome then encodeLine h 0 false none else newestStored s e i loc h ^^^ flips
      let dec := decodeLine h (markOf s e i rank) raw
      let s1 := lineEffects e i rank h .sru false .copy false (some dla) (some (bindOf s a)) dec (crossings d e s)
      if outcPoison dec.outc then (poisoned, s1)
      else if macOk s n a h (metaOf s h) dec.line then (⟨openLine s n a h (metaOf s h) dec.line, false⟩, s1) else (poisoned, macFail e i n dla h s1)

/-- Copy one line from the other die where this die has none: a line that cannot be read there is written as poison. -/
def rebuildLine (d : Die) (n : Nat) (flips : List (Nat × Flips)) (dla : Nat) (s : State) : State :=
  let a := rgAttr s n
  let h := flatHome s n d dla
  if lineFresh s d h = false ∨ aboveTop s h then s
  else
    match placeOf s h with
    | none => s
    | some (_, i, loc) =>
      let (l, s1) := rebuildRead d n dla ((flips.lookup (rgLine s n dla)).getD 0) s
      let c := sealLine s n a h l.line
      putLine d i (steer s d i loc h) h c l.poison (stampMeta n a h c s1)

/-- The rebuild after a takeover ends with the last mirrored region: the 0x5B record is written (R129). -/
def rebuildEnd (d : Die) (s : State) : State :=
  match (die s d).sru.evac with
  | some e =>
    if e.rebuild ∧ (mirrorRegions s).all (fun n => (die s d).sru.rebuilt.contains n) then
      s |> onSru d (fun u => { u with evac := none }) |> evacActive d e.failing 0 |> spareRecord d e.failing e.spare
    else s
  | none => s

/-- The lines of a mirrored region have all been copied from the other die, by reads that meet the faults given, by line of the region; no
line is encoded while its channel is FROZEN (Table 4.4). -/
def mirrorRebuilt (d : Die) (n : Nat) (flips : List (Nat × Flips)) (s : State) : State :=
  let u := (die s d).sru
  if dieFresh s d = false ∨ u.memoryLost ∨ fenced s d ∨ (List.range 6).any (fun c => (chan s d c).frozen.isSome) then s
  else if (mirrorRegions s).contains n = false ∨ u.rebuilt.contains n then rebuildEnd d s
  else
    each (writtenLines s (otherDie d) n) (rebuildLine d n flips) s
      |> onSru d (fun u => { u with rebuilt := u.rebuilt ++ [n] })
      |> post d ⟨0x0C0B, sevInfo, locDie d, [it1 n], none, none⟩
      |> rebuildEnd d

/-- MIRROR_REBUILT (R129, Table 5.4). -/
def execMirrorRebuilt (d : Die) (region : Nat) (s : State) (flips : List (Nat × Flips) := []) : Host.Outcome State Fault Refusal :=
  .next (settle (mirrorRebuilt d region flips s))

/-! ### The end of salvage (R130, R131) -/

/-- Whether a die's subchannels and crossings have nothing under way. -/
def dieQuiet (s : State) (d : Die) : Bool :=
  (List.range 12).all (drained s d) && (List.range 6).all (fun c => (chan s d c).mxin.isEmpty && (chan s d c).frozen.isNone) && (tme s d).moves.isEmpty

/-- A subchannel takes its part of the new mapping: every line unwritten, the remap table empty (Table 5.4). -/
def SubSt.remapped (b : SubSt) : SubSt :=
  { b with cells := [], fresh := .switched, freshFrom := 0, remap := [], initW := 0, demand := [],
           banks := b.banks.map (fun p => (p.1, { p.2 with held := false, row := none })) }

/-- The ciphertext of a line of a staged copy as it is read back: of a host buffer what was written there (log entry 134), of the other die what its memory
holds, or none where that is poison. -/
def stageRead (s : State) (d : Die) (p : StageCopy) (x : Nat) : Option Line :=
  if p.host then nget p.sent x
  else
    let h := stageHome d p x
    match placeOf s h with
    | none => none
    | some (o, i, loc) =>
      if (answerOf s o i loc h).isSome then none
      else
        let dec := decodeLine h (markOf s o i (qRank s o (loc / 4))) (newestStored s o i loc h)
        if outcPoison dec.outc then none else some dec.line

/-- The entries of a line of a staged copy: LOST where it cannot be read or fails its check. -/
def stageEntries (s : State) (d : Die) (p : StageCopy) (x : Nat) : List (Nat × PageEnt) :=
  let got := match stageRead s d p x with
    | some c => if nget p.tags x = some (stageTag s x c) then some (decMeta s (stageHome d p x) c) else none
    | none => none
  (stageKeys p.runs x).zipIdx.filterMap (fun q => q.1.map (fun key => (key, match got with
    | some l => pageOf (lineNum l (16 * q.2) 16)
    | none => { PageEnt.blank with tier := tLost })))

/-- The page map that a staged copy tells, an entry that it does not list being blank. -/
def stagePages (s : State) (d : Die) (p : StageCopy) : NMap PageEnt :=
  (p.tags.flatMap (fun t => stageEntries s d p t.1)).foldl (fun m e => if e.2 = PageEnt.blank then m else nset m e.1 e.2) []

/-- The page map after the switch: rebuilt from the staged copy, or every page LOST; the frame bitmaps are clear, and the cache is empty. What
REHOME_DONE is to report is kept: pages kept, pages LOST, regions lost. -/
def remapPages (d : Die) (copy : Option StageCopy) (s : State) : State :=
  let ns := tieredOn s d
  let total := tieredPages s d
  let clear := fun (t : TmeSt) => { t with frames := [], opened := [], staged := none, cached := [], unread := [] }
  match copy with
  | some p =>
    let ps := stagePages s d p
    let lost := (ps.filter (fun p => p.2.tier == tLost)).length
    s |> onTme d (fun t => { clear t with pages := ps, lostRuns := [], rehome := some (total - lost, lost, []) })
      |> each ((ps.map (fun e => e.1 / 4)).eraseDups) (fun k => writeEntry d (4 * k))
      |> (fun t => each (((tme t d).pool.map (fun q => q.1 / 512)).eraseDups) (fun k => putPoolBit d (512 * k)) t)
  | none =>
    onTme d (fun t => { clear t with pages := [], pool := [], lostRuns := ns.map (sliceOf s), rehome := some (0, total, ns) }) s

/-- A drip log entry under the new mapping: its line becomes the one that its location holds there; none where its subchannel has gone
(Table 5.5: what salvage has logged is repaired after the switch). -/
def DripEnt.moved (s0 s1 : State) (d : Die) (e : DripEnt) : Option DripEnt :=
  match placeOf s0 e.h with
  | some (_, i, loc) =>
    if (die s1 d).sru.liveList.contains i then some { e with h := homeOf s1 d i (steer s0 d i loc e.h) } else none
  | none => none

/-- Whether salvage may end: SALVAGE_HOLD is 0, SALVAGE_MS has passed, the staging is over, no evacuation runs, and nothing is under way on
the die (R130). -/
def salvageOver (s : State) (d : Die) (z : SalvageSt) : Bool :=
  !((List.range 6).any (fun c => rfb s F.SRU_RETIRE_CTRL.SALVAGE_HOLD d c)) &&
    decide (z.startNs + rf s F.SRU_RETIRE_CTRL.SALVAGE_MS d 0 * 1000000 ≤ s.nowNs) && (tme s d).staged.isSome &&
    !((die s d).sru.evac.any (fun e => !e.rebuild)) && dieQuiet s d

/-- Salvage ends: the die switches to L = 11, and what the drip log holds HARD is repaired (R130, R131, Tables 5.4 and 5.5). A die that an
evacuation has left with fewer than 11 positions serves no memory (R132). `rowFree` is whether failing devices report a free spare row. -/
def dieRemapped (d : Die) (rowFree : Bool) (s : State) : State :=
  match (die s d).sru.salvage with
  | none => s
  | some z =>
    let live := (die s d).sru.liveList.filter (· != z.sub)
    if salvageOver s d z = false then s
    else if live.length < 11 then memoryLost d s
    else
      let s0 := s |> onSru d (fun u => { u with salvage := none, liveList := live, rowRepairs := [], remapCopies := [], rebuilt := [] })
      let s1 := s0 |> onDrip d (fun m => m.filterMap (fun p => (p.2.moved s s0 d).map (fun e => (p.1, e))))
                  |> each (List.range 6) (fun c t => wf F.SRU_RETIRE_CTRL.SALVAGE d c 0 t)
                  |> each live (fun i => onSub d i SubSt.remapped)
                  |> onDie d (fun x => { x with lmeta := [], badNodes := [], nodes := [], ctrs := [] })
                  |> carve d
      remapPages d (if carveFits s1 d then ((tme s d).staged.getD none) else none) s1
        |> initEnded d s
        |> post d ⟨0x0C0A, sevUncorrected, locSub d z.sub, [it1 z.sub, it1 live.length], none, none⟩
        |> (fun t => each ((dripLive t d).filter (fun p => decide (p.2.st = .hard))) (fun p => startRepair d p.1 rowFree) t)
        |> wakeStarved d

/-- DIE_REMAPPED (R130, R131). -/
def execDieRemapped (d : Die) (s : State) (rowFree : Bool := false) : Host.Outcome State Fault Refusal := .next (settle (dieRemapped d rowFree s))

/-- Re-homing is done (R155): 0x0605, and 0x0609 where regions have lost every page. -/
def rehomeDone (d : Die) (s : State) : State :=
  match (tme s d).rehome with
  | none => s
  | some (kept, lost, gone) =>
    s |> onTme d (fun t => { t with rehome := none }) |> wf F.TME_STATUS.REHOME d 0 0 |> setFlag F.TME_STATUS.REHOME_DONE d 0
      |> post d ⟨0x0605, sevInfo, locDie d, [it4 kept, it4 lost], none, none⟩
      |> onlyIf (!gone.isEmpty) (post d ⟨0x0609, sevUncorrected, locDie d, gone.map it1, none, none⟩)

/-- REHOME_DONE (R155). -/
def execRehomeDone (d : Die) (s : State) : Host.Outcome State Fault Refusal := .next (settle (rehomeDone d s))

end Sys2Proof.Machine
end

