-- ==== Sys2Proof/Machine/Tap.lean ====
section
/-!
DEFINITION. Sys2Proof/Machine/Tap.lean: the test access port of each die (R457, R458, Table 21.6).
-/

namespace Sys2Proof.Machine

/-- The TAP of a die. -/
def tapOf (s : State) (d : Die) : TapSt := ngetD s.tap (dieNum d) TapSt.reset

/-- The length of a die's boundary-scan register, which its silicon fixes. -/
def scanLen : Nat := (Config.silicon 4).toNat

/-- An instruction is loaded on a present die: the TAP takes its code, what it makes of the pins and its cells, and the register that it
selects captures a value. -/
def tapLoad (d : Die) (ir : Nat) (drive : TapDrive) (cells : Nat) (bits value : Nat) (s : State) : State :=
  if diePresent s d then send (.tdo d bits (value % 2 ^ bits)) { s with tap := nset s.tap (dieNum d) ⟨ir, cells, drive⟩ } else s

/-- BYPASS: a register of one bit that captures 0. -/
def tapBypass (d : Die) (s : State) : State := tapLoad d 0xFF .normal (tapOf s d).cells 1 0 s

/-- One of the instructions 0x03 to 0x07: BYPASS unless TEST_EN was 1 at the last sampling (R458). -/
def tapTest (d : Die) (ir : Nat) (drive : TapDrive) (bits value : Nat) (s : State) : State :=
  if s.dev.straps.testEn then tapLoad d ir drive (tapOf s d).cells bits value s else tapBypass d s

/-- The IDCODE of a die: {IDENT_DIE.STEPPING[15:12], IDENT_DIE.DIE_CODE, 0x76B} (R457). -/
def idcodeOf (d : Die) : Nat := stepping d / 16 * 2 ^ 28 + 0x4B16 * 2 ^ 12 + 0x76B

/-- IDCODE (Table 21.6). -/
def execIdcode (d : Die) (s : State) : Host.Outcome State Fault Refusal := .next (tapLoad d 1 .normal (tapOf s d).cells 32 (idcodeOf d) s)

/-- SAMPLE_PRELOAD: the pins are captured, and the cells take what is shifted in (Table 21.6). -/
def execSamplePreload (d : Die) (pins : Nat) (cells : Nat) (s : State) : Host.Outcome State Fault Refusal :=
  .next (tapLoad d 2 .normal (cells % 2 ^ scanLen) scanLen pins s)

/-- EXTEST: the cells drive the pins (R458). -/
def execExtest (d : Die) (pins : Nat) (s : State) : Host.Outcome State Fault Refusal := .next (tapTest d 3 .cells scanLen pins s)

/-- CLAMP: the cells hold the pins, with the bypass register selected (R458). -/
def execClamp (d : Die) (s : State) : Host.Outcome State Fault Refusal := .next (tapTest d 4 .clamp 1 0 s)

/-- HIGHZ: the pins are at high impedance, with the bypass register selected (R458). -/
def execHighz (d : Die) (s : State) : Host.Outcome State Fault Refusal := .next (tapTest d 5 .highz 1 0 s)

/-- EXTEST_PULSE (R458): lanes and reference clocks. -/
def execExtestPulse (d : Die) (pins : Nat) (s : State) : Host.Outcome State Fault Refusal := .next (tapTest d 6 .pulse scanLen pins s)

/-- EXTEST_TRAIN (R458): lanes. -/
def execExtestTrain (d : Die) (pins : Nat) (s : State) : Host.Outcome State Fault Refusal := .next (tapTest d 7 .train scanLen pins s)

/-- BYPASS, and every unassigned code (Table 21.6). -/
def execBypass (d : Die) (s : State) : Host.Outcome State Fault Refusal := .next (tapBypass d s)

end Sys2Proof.Machine
end

