-- ==== Sys2Proof/Machine/Thermal.lean ====
section
/-!
DEFINITION. Sys2Proof/Machine/Thermal.lean: the thermal request and the thermal trip (R422 to R424).
-/

namespace Sys2Proof.Machine

/-- The dies whose temperatures the senior sees. -/
def thermDies (s : State) : List Die := (diesPresent s).filter (fun d => !(unreachable s d))

/-- The hotter of two dies' values, the first among equals. -/
def hotDie (f : Die → Int) : List Die → Option (Die × Int)
  | [] => none
  | d :: ds => match hotDie f ds with
    | none => some (d, f d)
    | some q => if f d < q.2 then some q else some (d, f d)

/-- TJ_MAX of a die. -/
def tjMax (s : State) (d : Die) : Int := unsbyte (rf s F.PMC_TJ_SUM.TJ_MAX d 0)

/-- Store the thermal request's fields on both dies. -/
def putThrottle (request byTj byDram : Bool) (s : State) : State :=
  each (diesPresent s) (fun d t => t |> wf F.PMC_THROTTLE.REQUEST d 0 (b2n request) |> wf F.PMC_THROTTLE.BY_TJ d 0 (b2n byTj)
    |> wf F.PMC_THROTTLE.BY_DRAM d 0 (b2n byDram)) s

/-- The seconds under the thermal request since reset. -/
def putSeconds (s : State) : State :=
  let ns := s.therm.underNs + (match s.therm.since with
    | some t => s.nowNs - t
    | none => 0)
  each (diesPresent s) (fun d => wf F.PMC_THROTTLE.THROTTLE_S d 0 (min 65535 (ns / 1000000000))) s

/-- The thermal request arises: a device in SERVE or DEGRADED enters THRIFT, after a transition that runs (R422, Table 18.5). -/
def thermArise (d : Die) (kind : Nat) (t : Int) (s : State) : State :=
  { s with therm := { s.therm with since := some s.nowNs, cool := 0, waits := s.dev.trans.isSome } }
    |> post d ⟨0x1060, sevInfo, locDie d, [it1 (dieNum d), it1 kind, it1 (sbyte t)], none, none⟩
    |> (fun u => if (u.dev.mode = .serve ∨ u.dev.mode = .degraded) ∧ u.dev.trans.isNone then
        enterThrift 4 { u with therm := { u.therm with took := true } } else u)

/-- The thermal request is released. -/
def thermRelease (since : Nat) (s : State) : State :=
  let n := s.nowNs - since
  { s with therm := { s.therm with since := none, cool := 0, underNs := s.therm.underNs + n, waits := false } }
    |> putThrottle false false false
    |> post (seniorDie s) ⟨0x1061, sevInfo, locDie (seniorDie s), [it4 n], none, none⟩ |> thermNext

/-- One comparison of the temperatures with the limits (R422). -/
def thermalEval (s : State) : State :=
  match hotDie (tjMax s) (thermDies s), hotDie (fun d => (dramMax s d).temp) (thermDies s) with
  | some tj, some dr =>
    let byTj := decide ((throtC s : Int) ≤ tj.2)
    let byDram := decide ((dramC s : Int) ≤ dr.2)
    putSeconds (match s.therm.since with
      | none =>
        let s1 := putThrottle (rfb s F.PMC_THERM_CFG.EN .east 0 && (byTj || byDram)) byTj byDram s
        if rfb s F.PMC_THERM_CFG.EN .east 0 ∧ byTj then thermArise tj.1 0 tj.2 s1
        else if rfb s F.PMC_THERM_CFG.EN .east 0 ∧ byDram then thermArise dr.1 1 dr.2 s1
        else s1
      | some t0 =>
        let old := fun (f : Fld) => rfb s f (seniorDie s) 0
        let s1 := putThrottle true (old F.PMC_THROTTLE.BY_TJ || byTj) (old F.PMC_THROTTLE.BY_DRAM || byDram) s
        if tj.2 ≤ (throtC s : Int) - hystC s ∧ dr.2 ≤ (dramC s : Int) - hystC s then
          (if 1000 ≤ s.therm.cool + 1 then thermRelease t0 s1 else { s1 with therm := { s1.therm with cool := s.therm.cool + 1 } })
        else { s1 with therm := { s1.therm with cool := 0 } })
  | _, _ => s

/-- THERMAL_EVAL (R422). -/
def execThermalEval (s : State) : Host.Outcome State Fault Refusal := .next (settle (if s.pins.pwrOk then thermalEval s else s))

/-- A good sensor has reached 115 °C: THERMTRIP_N is asserted, and the device enters FROZEN (R423). -/
def thermalTrip (d : Die) (k : Nat) (t : Int) (s : State) : State :=
  if diePresent s d = false ∨ s.pins.pwrOk = false ∨ 8 ≤ k ∨ t < 115 ∨ sensorBad s d k ∨ rfb s F.PMC_THROTTLE.TRIPPED d 0 then s
  else
    { s with pins := { s.pins with thermTrip := true } } |> wf F.PMC_THROTTLE.TRIPPED d 0 1
      |> post d ⟨0x1062, sevFatal, locDie d, [it1 (dieNum d), it1 k, it1 (sbyte t)], none, none⟩
      |> freezeDevice 6 true

/-- THERMAL_TRIP (R423). -/
def execThermalTrip (d : Die) (sensor : Nat) (temp : Int) (s : State) : Host.Outcome State Fault Refusal :=
  .next (settle (thermalTrip d sensor temp s))

end Sys2Proof.Machine
end

