-- ==== Sys2Proof/Machine/Dispatch.lean ====
section
/-!
DEFINITION. Sys2Proof/Machine/Dispatch.lean: one arm per command, each one direct call of its meaning.
-/

namespace Sys2Proof.Machine

/-- The effect of a command on everything but the queue. -/
def exec (i : Instr) (s : State) : Host.Outcome State Fault Refusal :=
  match i with
  | .hostMemRead port tag hpa metaV snp ideBad => Sys2Proof.Machine.execHostMemRead port tag hpa metaV snp ideBad s
  | .hostMemWrite port tag hpa data poison mask metaV ideBad nodes => Sys2Proof.Machine.execHostMemWrite port tag hpa data poison mask metaV ideBad nodes s
  | .hostMemInv port tag hpa ideBad => Sys2Proof.Machine.execHostMemInv port tag hpa ideBad s
  | .mscAccept d chan => Sys2Proof.Machine.execMscAccept d chan s
  | .commandIssue d sub ready parityBad => Sys2Proof.Machine.execCommandIssue d sub ready parityBad s
  | .ageCapReached d sub seq => Sys2Proof.Machine.execAgeCapReached d sub seq s
  | .neighbourRefresh d sub rank bank method => Sys2Proof.Machine.execNeighbourRefresh d sub rank bank method s
  | .refTick d sub rank => Sys2Proof.Machine.execRefTick d sub rank s
  | .refIssue d sub rank => Sys2Proof.Machine.execRefIssue d sub rank s
  | .mr4Poll d sub rank temp => Sys2Proof.Machine.execMr4Poll d sub rank temp s
  | .echoClear d sub rank => Sys2Proof.Machine.execEchoClear d sub rank s
  | .readDataReturn d sub seq flips rowFree again nodes => Sys2Proof.Machine.execReadDataReturn d sub seq flips rowFree again nodes s
  | .alertN d sub => Sys2Proof.Machine.execAlertN d sub s
  | .replayWindowClose d sub seq => Sys2Proof.Machine.execReplayWindowClose d sub seq s
  | .trainingRankDone d sub rank point res => Sys2Proof.Machine.execTrainingRankDone d sub rank point res s
  | .driftMeasure d sub rank dev drift => Sys2Proof.Machine.execDriftMeasure d sub rank dev drift s
  | .retrainRequest d chan value => Sys2Proof.Machine.execRetrainRequest d chan value s
  | .retrainDone d sub rank edge res => Sys2Proof.Machine.execRetrainDone d sub rank edge res s
  | .trecDataRead d chan => Sys2Proof.Machine.execTrecDataRead d chan s
  | .cwuEraseWrite d chan value => Sys2Proof.Machine.execCwuEraseWrite d chan value s
  | .cwuInjArm d chan value => Sys2Proof.Machine.execCwuInjArm d chan value s
  | .cwuInjDisarm d chan => Sys2Proof.Machine.execCwuInjDisarm d chan s
  | .devcntClear d chan value => Sys2Proof.Machine.execDevcntClear d chan value s
  | .scrubStep d sub => Sys2Proof.Machine.execScrubStep d sub s
  | .remapApplied d sub entry row => Sys2Proof.Machine.execRemapApplied d sub entry row s
  | .spareRowApplied d sub rank bank rowFree flips => Sys2Proof.Machine.execSpareRowApplied d sub rank bank rowFree s flips
  | .eraseWindow d => Sys2Proof.Machine.execEraseWindow d s
  | .sruEvacStart d chan value => Sys2Proof.Machine.execSruEvacStart d chan value s
  | .evacCopy d => Sys2Proof.Machine.execEvacCopy d s
  | .evacDone d => Sys2Proof.Machine.execEvacDone d s
  | .mirrorRebuilt d region flips => Sys2Proof.Machine.execMirrorRebuilt d region s flips
  | .dieRemapped d rowFree => Sys2Proof.Machine.execDieRemapped d s rowFree
  | .salvageRelease d => Sys2Proof.Machine.execSalvageRelease d s
  | .rgnWrite region off value sess => Sys2Proof.Machine.execRgnWrite region off value sess s
  | .regionEnable region sess => Sys2Proof.Machine.execRegionEnable region sess s
  | .regionFillDone region => Sys2Proof.Machine.execRegionFillDone region s
  | .regionDisable region sess => Sys2Proof.Machine.execRegionDisable region sess s
  | .regionDisableDone region => Sys2Proof.Machine.execRegionDisableDone region s
  | .heatEpoch d => Sys2Proof.Machine.execHeatEpoch d s
  | .sweepVisit d region dla => Sys2Proof.Machine.execSweepVisit d region dla s
  | .moveCommit d slot => Sys2Proof.Machine.execMoveCommit d slot s
  | .moveDrainDone d slot => Sys2Proof.Machine.execMoveDrainDone d slot s
  | .promoteWaitExpire d region dla => Sys2Proof.Machine.execPromoteWaitExpire d region dla s
  | .rehomeDone d => Sys2Proof.Machine.execRehomeDone d s
  | .initFillBlock d sub => Sys2Proof.Machine.execInitFillBlock d sub s
  | .demandWriteRelease d sub => Sys2Proof.Machine.execDemandWriteRelease d sub s
  | .migrate d sq seq => Sys2Proof.Machine.execMigrate d sq seq s
  | .queryPage d sq seq => Sys2Proof.Machine.execQueryPage d sq seq s
  | .pin d sq seq => Sys2Proof.Machine.execPin d sq seq s
  | .keyGenerate d sq seq => Sys2Proof.Machine.execKeyGenerate d sq seq s
  | .keyRotate d sq seq => Sys2Proof.Machine.execKeyRotate d sq seq s
  | .keyDestroy d sq seq => Sys2Proof.Machine.execKeyDestroy d sq seq s
  | .keyBind d sq seq => Sys2Proof.Machine.execKeyBind d sq seq s
  | .keyQuery d sq seq => Sys2Proof.Machine.execKeyQuery d sq seq s
  | .sanitize d sq seq => Sys2Proof.Machine.execSanitize d sq seq s
  | .sanitizeDone => Sys2Proof.Machine.execSanitizeDone s
  | .rotationBlock slot => Sys2Proof.Machine.execRotationBlock slot s
  | .drbgReseed d => Sys2Proof.Machine.execDrbgReseed d s
  | .entropyFail d test => Sys2Proof.Machine.execEntropyFail d test s
  | .lockdown sess => Sys2Proof.Machine.execLockdown sess s
  | .ideKmKeyProg port session key offers => Sys2Proof.Machine.execIdeKmKeyProg port session key offers s
  | .mkaFrame d node joined => Sys2Proof.Machine.execMkaFrame d node joined s
  | .sakRekey d => Sys2Proof.Machine.execSakRekey d s
  | .spdmGetVersion port => Sys2Proof.Machine.execSpdmGetVersion port s
  | .spdmGetCapabilities port limit => Sys2Proof.Machine.execSpdmGetCapabilities port limit s
  | .spdmNegotiateAlgorithms port asym hash dhe aead => Sys2Proof.Machine.execSpdmNegotiateAlgorithms port asym hash dhe aead s
  | .spdmGetDigests port => Sys2Proof.Machine.execSpdmGetDigests port s
  | .spdmGetCertificate port slot offset len => Sys2Proof.Machine.execSpdmGetCertificate port slot offset len s
  | .spdmChallenge port slot nonce => Sys2Proof.Machine.execSpdmChallenge port slot nonce s
  | .spdmGetMeasurements port index signed => Sys2Proof.Machine.execSpdmGetMeasurements port index signed s
  | .spdmKeyExchange port session slot => Sys2Proof.Machine.execSpdmKeyExchange port session slot s
  | .spdmFinish port session valid root => Sys2Proof.Machine.execSpdmFinish port session valid root s
  | .spdmHeartbeat port session => Sys2Proof.Machine.execSpdmHeartbeat port session s
  | .spdmKeyUpdate port session op tag => Sys2Proof.Machine.execSpdmKeyUpdate port session op tag s
  | .spdmEndSession port session => Sys2Proof.Machine.execSpdmEndSession port session s
  | .spdmGetCsr port => Sys2Proof.Machine.execSpdmGetCsr port s
  | .spdmSetCertificate port session slot chain => Sys2Proof.Machine.execSpdmSetCertificate port session slot chain s
  | .spdmChunkSend port handle seq last bytes => Sys2Proof.Machine.execSpdmChunkSend port handle seq last bytes s
  | .spdmChunkGet port handle seq => Sys2Proof.Machine.execSpdmChunkGet port handle seq s
  | .vendorDefinedRequest port session desc => Sys2Proof.Machine.execVendorDefinedRequest port session desc s
  | .cakInstall port session cak => Sys2Proof.Machine.execCakInstall port session cak s
  | .debugToken port session signed => Sys2Proof.Machine.execDebugToken port session signed s
  | .snoopAnswer port agent hpa ans pend => Sys2Proof.Machine.execSnoopAnswer port agent hpa ans pend s
  | .awaitWbTimeout d dla => Sys2Proof.Machine.execAwaitWbTimeout d dla s
  | .snoopTimeout d dla agent => Sys2Proof.Machine.execSnoopTimeout d dla agent s
  | .biconflict port hpa => Sys2Proof.Machine.execBiconflict port hpa s
  | .cdrRetry d port set => Sys2Proof.Machine.execCdrRetry d port set s
  | .agentsDropped d port => Sys2Proof.Machine.execAgentsDropped d port s
  | .agentMapWrite d value => Sys2Proof.Machine.execAgentMapWrite d value s
  | .cdrProbe d value => Sys2Proof.Machine.execCdrProbe d value s
  | .flitRetry port same hit x8 => Sys2Proof.Machine.execFlitRetry port same hit x8 s
  | .retrainAbandon port => Sys2Proof.Machine.execRetrainAbandon port s
  | .fallbackAbandon port => Sys2Proof.Machine.execFallbackAbandon port s
  | .portUp port cxl3 rate ext lo x8 => Sys2Proof.Machine.execPortUp port cxl3 rate ext lo x8 s
  | .reupTimer port => Sys2Proof.Machine.execReupTimer port s
  | .linkCtrlRetrain port x8 => Sys2Proof.Machine.execLinkCtrlRetrain port x8 s
  | .linkCtrlDown port => Sys2Proof.Machine.execLinkCtrlDown port s
  | .linkCtrlReup port => Sys2Proof.Machine.execLinkCtrlReup port s
  | .linkCfgEn port value => Sys2Proof.Machine.execLinkCfgEn port value s
  | .viralRx port => Sys2Proof.Machine.execViralRx port s
  | .hpcInjArm port value => Sys2Proof.Machine.execHpcInjArm port value s
  | .hpcInjDisarm port => Sys2Proof.Machine.execHpcInjDisarm port s
  | .cdatTableAccess port handle => Sys2Proof.Machine.execCdatTableAccess port handle s
  | .identify port => Sys2Proof.Machine.execIdentify port s
  | .getEventRecords port log => Sys2Proof.Machine.execGetEventRecords port log s
  | .clearEventRecords port log all handles => Sys2Proof.Machine.execClearEventRecords port log all handles s
  | .getEventInterruptPolicy port => Sys2Proof.Machine.execGetEventInterruptPolicy port s
  | .setEventInterruptPolicy port policy => Sys2Proof.Machine.execSetEventInterruptPolicy port policy s
  | .getFwInfo port => Sys2Proof.Machine.execGetFwInfo port s
  | .transferFw port slot => Sys2Proof.Machine.execTransferFw port slot s
  | .transferFwDone signed => Sys2Proof.Machine.execTransferFwDone signed s
  | .activateFw port slot online => Sys2Proof.Machine.execActivateFw port slot online s
  | .getTimestamp port => Sys2Proof.Machine.execGetTimestamp port s
  | .setTimestamp port ns => Sys2Proof.Machine.execSetTimestamp port ns s
  | .getSupportedLogs port => Sys2Proof.Machine.execGetSupportedLogs port s
  | .getLog port log offset len => Sys2Proof.Machine.execGetLog port log offset len s
  | .identifyMemoryDevice port => Sys2Proof.Machine.execIdentifyMemoryDevice port s
  | .getHealthInfo port => Sys2Proof.Machine.execGetHealthInfo port s
  | .getAlertConfiguration port => Sys2Proof.Machine.execGetAlertConfiguration port s
  | .setAlertConfiguration port config => Sys2Proof.Machine.execSetAlertConfiguration port config s
  | .getPoisonList port dla len => Sys2Proof.Machine.execGetPoisonList port dla len s
  | .injectPoison port dla => Sys2Proof.Machine.execInjectPoison port dla s
  | .clearPoison port dla data => Sys2Proof.Machine.execClearPoison port dla data s
  | .mailboxUnsupported port opcode => Sys2Proof.Machine.execMailboxUnsupported port opcode s
  | .readReq d f sciOk macBad => Sys2Proof.Machine.execReadReq d f sciOk macBad s
  | .readResp d f sciOk macBad => Sys2Proof.Machine.execReadResp d f sciOk macBad s
  | .writeReq d f sciOk macBad => Sys2Proof.Machine.execWriteReq d f sciOk macBad s
  | .writeResp d f sciOk macBad => Sys2Proof.Machine.execWriteResp d f sciOk macBad s
  | .enqReq d f sciOk macBad => Sys2Proof.Machine.execEnqReq d f sciOk macBad s
  | .enqResp d f sciOk macBad => Sys2Proof.Machine.execEnqResp d f sciOk macBad s
  | .t2Put d f sciOk macBad => Sys2Proof.Machine.execT2Put d f sciOk macBad s
  | .t2PutResp d f sciOk macBad => Sys2Proof.Machine.execT2PutResp d f sciOk macBad s
  | .t2Get d f sciOk macBad => Sys2Proof.Machine.execT2Get d f sciOk macBad s
  | .t2GetResp d f sciOk macBad => Sys2Proof.Machine.execT2GetResp d f sciOk macBad s
  | .ack d f sciOk macBad => Sys2Proof.Machine.execAck d f sciOk macBad s
  | .hello d f sciOk macBad => Sys2Proof.Machine.execHello d f sciOk macBad s
  | .helloAck d f sciOk macBad => Sys2Proof.Machine.execHelloAck d f sciOk macBad s
  | .heartbeat d f sciOk macBad => Sys2Proof.Machine.execHeartbeat d f sciOk macBad s
  | .retransmitTimeout d node => Sys2Proof.Machine.execRetransmitTimeout d node s
  | .ackDelayExpire d node => Sys2Proof.Machine.execAckDelayExpire d node s
  | .helloTimer d node => Sys2Proof.Machine.execHelloTimer d node s
  | .heartbeatSend d node => Sys2Proof.Machine.execHeartbeatSend d node s
  | .peerSilence d node => Sys2Proof.Machine.execPeerSilence d node s
  | .probeTimer d node => Sys2Proof.Machine.execProbeTimer d node s
  | .ethLinkDown d => Sys2Proof.Machine.execEthLinkDown d s
  | .ethLinkUp d => Sys2Proof.Machine.execEthLinkUp d s
  | .macsecScLost d node => Sys2Proof.Machine.execMacsecScLost d node s
  | .remoteRead d sq seq => Sys2Proof.Machine.execRemoteRead d sq seq s
  | .remoteWrite d sq seq host => Sys2Proof.Machine.execRemoteWrite d sq seq host s
  | .peerQuery d sq seq => Sys2Proof.Machine.execPeerQuery d sq seq s
  | .peerReset d sq seq => Sys2Proof.Machine.execPeerReset d sq seq s
  | .peerCtrlReset d value => Sys2Proof.Machine.execPeerCtrlReset d value s
  | .peerEnable d value => Sys2Proof.Machine.execPeerEnable d value s
  | .peerDisable d value => Sys2Proof.Machine.execPeerDisable d value s
  | .nodeWrite d value => Sys2Proof.Machine.execNodeWrite d value s
  | .fpcInjArm d value => Sys2Proof.Machine.execFpcInjArm d value s
  | .fpcInjDisarm d => Sys2Proof.Machine.execFpcInjDisarm d s
  | .reorderHoldExpire d => Sys2Proof.Machine.execReorderHoldExpire d s
  | .injDelayExpire d => Sys2Proof.Machine.execInjDelayExpire d s
  | .sqTailDoorbell port n value size => Sys2Proof.Machine.execSqTailDoorbell port n value size s
  | .cqHeadDoorbell port n value size => Sys2Proof.Machine.execCqHeadDoorbell port n value size s
  | .eqHeadDoorbell port n value size => Sys2Proof.Machine.execEqHeadDoorbell port n value size s
  | .descriptorFetch d sq lines => Sys2Proof.Machine.execDescriptorFetch d sq lines s
  | .completionWrite d cq ok => Sys2Proof.Machine.execCompletionWrite d cq ok s
  | .irqTimeExpire d event ring => Sys2Proof.Machine.execIrqTimeExpire d event ring s
  | .cqStall d cq => Sys2Proof.Machine.execCqStall d cq s
  | .sqEnable d sq => Sys2Proof.Machine.execSqEnable d sq s
  | .sqDisable d sq => Sys2Proof.Machine.execSqDisable d sq s
  | .cqEnable d cq => Sys2Proof.Machine.execCqEnable d cq s
  | .cqDisable d cq => Sys2Proof.Machine.execCqDisable d cq s
  | .eqEnable d eq => Sys2Proof.Machine.execEqEnable d eq s
  | .eqDisable d eq => Sys2Proof.Machine.execEqDisable d eq s
  | .nop d sq seq => Sys2Proof.Machine.execNop d sq seq s
  | .memCopy d sq seq host => Sys2Proof.Machine.execMemCopy d sq seq host s
  | .memFill d sq seq => Sys2Proof.Machine.execMemFill d sq seq s
  | .timestamp d sq seq => Sys2Proof.Machine.execTimestamp d sq seq s
  | .ringQuery d sq seq => Sys2Proof.Machine.execRingQuery d sq seq s
  | .emLookup d sq seq => Sys2Proof.Machine.execEmLookup d sq seq s
  | .emLookupBatch d sq seq host => Sys2Proof.Machine.execEmLookupBatch d sq seq host s
  | .lpmLookup d sq seq => Sys2Proof.Machine.execLpmLookup d sq seq s
  | .lpmLookupBatch d sq seq host => Sys2Proof.Machine.execLpmLookupBatch d sq seq host s
  | .emUpdate d sq seq => Sys2Proof.Machine.execEmUpdate d sq seq s
  | .lpmUpdate d sq seq => Sys2Proof.Machine.execLpmUpdate d sq seq s
  | .tableCreate d sq seq => Sys2Proof.Machine.execTableCreate d sq seq s
  | .tableFillDone table => Sys2Proof.Machine.execTableFillDone table s
  | .tableDestroy d sq seq => Sys2Proof.Machine.execTableDestroy d sq seq s
  | .tablePublish d sq seq => Sys2Proof.Machine.execTablePublish d sq seq s
  | .tableQuery d sq seq => Sys2Proof.Machine.execTableQuery d sq seq s
  | .lkeCleanup table => Sys2Proof.Machine.execLkeCleanup table s
  | .poolCreate d sq seq => Sys2Proof.Machine.execPoolCreate d sq seq s
  | .poolDestroy d sq seq => Sys2Proof.Machine.execPoolDestroy d sq seq s
  | .poolQuery d sq seq => Sys2Proof.Machine.execPoolQuery d sq seq s
  | .queueSet d sq seq => Sys2Proof.Machine.execQueueSet d sq seq s
  | .queueQuery d sq seq => Sys2Proof.Machine.execQueueQuery d sq seq s
  | .allocate d sq seq => Sys2Proof.Machine.execAllocate d sq seq s
  | .free d sq seq host => Sys2Proof.Machine.execFree d sq seq host s
  | .enqueue d sq seq => Sys2Proof.Machine.execEnqueue d sq seq s
  | .dequeue d sq seq => Sys2Proof.Machine.execDequeue d sq seq s
  | .peek d sq seq => Sys2Proof.Machine.execPeek d sq seq s
  | .flush d sq seq => Sys2Proof.Machine.execFlush d sq seq s
  | .flushDone d sq seq => Sys2Proof.Machine.execFlushDone d sq seq s
  | .remoteEnqueue d sq seq host => Sys2Proof.Machine.execRemoteEnqueue d sq seq host s
  | .stackFill owner pool => Sys2Proof.Machine.execStackFill owner pool s
  | .stackSpill owner pool => Sys2Proof.Machine.execStackSpill owner pool s
  | .readAhead owner queue => Sys2Proof.Machine.execReadAhead owner queue s
  | .cksCommit d m value => Sys2Proof.Machine.execCksCommit d m value s
  | .delayStep d m out => Sys2Proof.Machine.execDelayStep d m out s
  | .lockDeclared d m band => Sys2Proof.Machine.execLockDeclared d m band s
  | .outputRelease d m => Sys2Proof.Machine.execOutputRelease d m s
  | .cksLockLost d m => Sys2Proof.Machine.execCksLockLost d m s
  | .ckmQuiesceDone d m => Sys2Proof.Machine.execCkmQuiesceDone d m s
  | .storedBandTimeout d m => Sys2Proof.Machine.execStoredBandTimeout d m s
  | .cksFullSearch d m band temp => Sys2Proof.Machine.execCksFullSearch d m band temp s
  | .cksInjArm d m => Sys2Proof.Machine.execCksInjArm d m s
  | .cksInjDisarm d m => Sys2Proof.Machine.execCksInjDisarm d m s
  | .refclkLost => Sys2Proof.Machine.execRefclkLost s
  | .refclkPresent => Sys2Proof.Machine.execRefclkPresent s
  | .refclkFailTimer => Sys2Proof.Machine.execRefclkFailTimer s
  | .frefLost d => Sys2Proof.Machine.execFrefLost d s
  | .powerGood seniorWest popDen popRank pop3ds testEn prog => Sys2Proof.Machine.execPowerGood seniorWest popDen popRank pop3ds testEn prog s
  | .pwrOkFall => Sys2Proof.Machine.execPwrOkFall s
  | .perstAssert port => Sys2Proof.Machine.execPerstAssert port s
  | .perstRelease port => Sys2Proof.Machine.execPerstRelease port s
  | .bootDone => Sys2Proof.Machine.execBootDone s
  | .trainExit => Sys2Proof.Machine.execTrainExit s
  | .copyBCheck => Sys2Proof.Machine.execCopyBCheck s
  | .reqThrift => Sys2Proof.Machine.execReqThrift s
  | .reqServe => Sys2Proof.Machine.execReqServe s
  | .reqHold => Sys2Proof.Machine.execReqHold s
  | .reqFreeze => Sys2Proof.Machine.execReqFreeze s
  | .modeTransitionDone => Sys2Proof.Machine.execModeTransitionDone s
  | .holdDrainTimeout => Sys2Proof.Machine.execHoldDrainTimeout s
  | .l1Exit port => Sys2Proof.Machine.execL1Exit port s
  | .passageHeartbeatSend d => Sys2Proof.Machine.execPassageHeartbeatSend d s
  | .passageHeartbeat d ok => Sys2Proof.Machine.execPassageHeartbeat d ok s
  | .heartbeatMissed d => Sys2Proof.Machine.execHeartbeatMissed d s
  | .passageResetDone strapEast strapWest => Sys2Proof.Machine.execPassageResetDone strapEast strapWest s
  | .passageLost linkDown => Sys2Proof.Machine.execPassageLost linkDown s
  | .imageUpdate session bytes => Sys2Proof.Machine.execImageUpdate session bytes s
  | .flashUpdateDone ok => Sys2Proof.Machine.execFlashUpdateDone ok s
  | .channelThawed d chan => Sys2Proof.Machine.execChannelThawed d chan s
  | .evtFreeze d mask => Sys2Proof.Machine.execEvtFreeze d mask s
  | .evtThaw d mask => Sys2Proof.Machine.execEvtThaw d mask s
  | .freezeDataRead d => Sys2Proof.Machine.execFreezeDataRead d s
  | .postingIntervalEnd d code scope => Sys2Proof.Machine.execPostingIntervalEnd d code scope s
  | .counterWrap d n past => Sys2Proof.Machine.execCounterWrap d n past s
  | .ctrgSnap => Sys2Proof.Machine.execCtrgSnap s
  | .snapshotCopy d => Sys2Proof.Machine.execSnapshotCopy d s
  | .counterFreeze => Sys2Proof.Machine.execCounterFreeze s
  | .counterUnfreeze => Sys2Proof.Machine.execCounterUnfreeze s
  | .clearAll => Sys2Proof.Machine.execClearAll s
  | .pmcSnapshot d sq seq => Sys2Proof.Machine.execPmcSnapshot d sq seq s
  | .pmcTelemetry d sq seq => Sys2Proof.Machine.execPmcTelemetry d sq seq s
  | .counterLoRead d n => Sys2Proof.Machine.execCounterLoRead d n s
  | .counterStageWrite d n value => Sys2Proof.Machine.execCounterStageWrite d n value s
  | .reprogrammingWrite d n value => Sys2Proof.Machine.execReprogrammingWrite d n value s
  | .sensorSample d temps failed => Sys2Proof.Machine.execSensorSample d temps failed s
  | .thermalEval => Sys2Proof.Machine.execThermalEval s
  | .thermalTrip d sensor temp => Sys2Proof.Machine.execThermalTrip d sensor temp s
  | .powerEstimate d rails => Sys2Proof.Machine.execPowerEstimate d rails s
  | .registerWrite port offset value size sess => Sys2Proof.Machine.execRegisterWrite port offset value size sess s
  | .sidebandRead offset => Sys2Proof.Machine.execSidebandRead offset s
  | .sidebandWrite offset value => Sys2Proof.Machine.execSidebandWrite offset value s
  | .sidebandEvent => Sys2Proof.Machine.execSidebandEvent s
  | .sidebandTransfer code bytes fin => Sys2Proof.Machine.execSidebandTransfer code bytes fin s
  | .idcode d => Sys2Proof.Machine.execIdcode d s
  | .samplePreload d pins cells => Sys2Proof.Machine.execSamplePreload d pins cells s
  | .extest d pins => Sys2Proof.Machine.execExtest d pins s
  | .clamp d => Sys2Proof.Machine.execClamp d s
  | .highz d => Sys2Proof.Machine.execHighz d s
  | .extestPulse d pins => Sys2Proof.Machine.execExtestPulse d pins s
  | .extestTrain d pins => Sys2Proof.Machine.execExtestTrain d pins s
  | .bypass d => Sys2Proof.Machine.execBypass d s
  | .dripDataRead d chan => Sys2Proof.Machine.execDripDataRead d chan s
  | .hdmDecoderCommit port dec base size ways gran skip isp => Sys2Proof.Machine.execHdmDecoderCommit port dec base size ways gran skip isp s
  | .linkLayerTimeout port x8 => Sys2Proof.Machine.execLinkLayerTimeout port x8 s
  | .linkControlRetrain port rate => Sys2Proof.Machine.execLinkControlRetrain port rate s
  | .linkRetrainL0 port => Sys2Proof.Machine.execLinkRetrainL0 port s

end Sys2Proof.Machine
end

