-- ==== Sys2Proof/Machine/Tick.lean ====
section
/-!
DEFINITION. Sys2Proof/Machine/Tick.lean: what happens when no command waits: the 200 MHz management clock advances
(R389), and with it the cycle counters of the dies (R413) and the counters that count cycles (Table 18.1). Everything
else that time brings is a command of the table.
-/

namespace Sys2Proof.Machine

/-- The cycles of a clock of `mhz` / `den` MHz that end in the 5 ns after `now`. -/
def cyclesIn (now mhz den : Nat) : Nat := (now + 5) * mhz / (1000 * den) - now * mhz / (1000 * den)

/-- The controller cycles of a channel in the 5 ns after now: none while its clock is gated. -/
def ctlTick (s : State) (d : Die) (c : Nat) : Nat :=
  if rfb s F.CKS_STATUS.GATED d (chanSynth c) then 0 else cyclesIn s.nowNs (ckThirds s d c) 12

/-- The cycle signals of a subchannel: read queue entries and write mode. -/
def subTick (d : Die) (i : Nat) (s : State) : State :=
  let n := ctlTick s d (i / 2)
  let b := sub s d i
  s |> onlyIf (!b.rdq.isEmpty) (signalSub d i 0x0985 (n * b.rdq.length)) |> onlyIf b.writeMode (signalSub d i 0x0986 n)

/-- A die's share of a cycle of the management clock. For how many of its core cycles the host port's ingress held a request for
lack of credit downstream is a free value (signal 0x0182 of Table 18.1, log entry 103). -/
def dieTick (d : Die) (s : State) : State :=
  let n := if s.dev.mode = .hold then 0 else cyclesIn s.nowNs (coreMhz s d) 1
  let v := takeFree s
  v.2 |> onDie d (fun x => { x with cyc := (x.cyc + n) % 2 ^ 64 })
    |> onlyIf (s.dev.mode == .thrift) (signalDie d 0x1080 n)
    |> signalDie d 0x0182 (v.1.toNat % (n + 1))
    |> each (List.range 12) (subTick d)

/-- One cycle of the management clock (log entry 2). -/
def tick (s : State) : State :=
  let t := each (diesPresent s) dieTick s
  { t with nowNs := s.nowNs + 5, upNs := s.upNs + 5 }

end Sys2Proof.Machine
end

