-- ==== Sys2Proof/Safety.lean ====
section
/-!
DEFINITION. Sys2Proof/Safety.lean: what a safe run is, in the terms that the statements use: a step that answers, and the state between
steps.
-/

namespace Sys2Proof.Machine

/-- The outcome is a next state. -/
def Answers (o : Host.Outcome State Fault Refusal) : Prop := ∃ t, o = .next t

/-- The outcome is a next state that has a property. -/
def AnswersWith (o : Host.Outcome State Fault Refusal) (p : State → Prop) : Prop := ∃ t, o = .next t ∧ p t

/-- Nothing that an earlier step began is left for this one to finish: no work is left to be done, no die is in salvage (R130), and no
SANITIZE runs (R211). -/
abbrev State.Idle (s : State) : Prop :=
  s.todo = [] ∧ s.sani = none ∧ s.east.sru.salvage = none ∧ s.west.sru.salvage = none

/-- A die without what a posting may change: its counts, posting limits, counters, CXL logs, pending interrupts and event rings. -/
def DieSt.quiet (x : DieSt) : DieSt :=
  { x with counts := [], posts := [], pmc := { x.pmc with cnt := [] }, hpc := { x.hpc with logs := [], msixPend := [] }, cpr := { x.cpr with eqs := [] } }

/-- The state without what a posting may change: that of its dies, the registers, what has been sent, the sideband buffer, and a snapshot's
target. -/
def State.quiet (s : State) : State :=
  { s with regs := [], out := [], sideband := [], snapTarget := none, east := s.east.quiet, west := s.west.quiet }

/-- What a command on a subchannel leaves alone: everything but the subchannel, apart from what a posting may change. -/
def butSub (d : Die) (i : Nat) (s : State) : State := onDie d (fun x => { x with subs := nerase x.subs i }) s.quiet

/-- What a command on a channel leaves alone: everything but the channel and its two subchannels, apart from what a posting may change. -/
def butChan (d : Die) (c : Nat) (s : State) : State :=
  onDie d (fun x => { x with chans := nerase x.chans c, subs := x.subs.filter (fun p => p.1 / 2 != c) }) s.quiet

/-- What a command on a die leaves alone: everything but the die, apart from what a posting may change. -/
def butDie (d : Die) (s : State) : State := onDie d (fun _ => DieSt.reset) s.quiet

/-- What a descriptor's completion leaves alone: everything but the rings of its die, apart from what a posting may change. -/
def butRings (d : Die) (s : State) : State := onDie d (fun x => { x with cpr := ⟨[], [], []⟩ }) s.quiet

/-- The unit of an opcode may carry on with a started descriptor (R292, R293) whose completion will be written: its rings are in order, and it
asks for one (R296). -/
abbrev State.Runs (s : State) (d : Die) (e : Desc) (op : Nat) : Prop :=
  s.Idle ∧ descOf s d e.sq e.seq op = some e ∧ e.quiet = false ∧ rfb s F.CPR_SQ_CTRL.ERROR d e.sq = false ∧
    rfb s F.CPR_CQ_CTRL.EN d (sqCq s d e.sq) = true ∧ rfb s F.CPR_CQ_CTRL.ERROR d (sqCq s d e.sq) = false

/-- A step has put a descriptor's completion, with its status and results, behind those that wait for its completion ring, and the
descriptor is no longer started (R295 to R297). -/
abbrev Completed (s t : State) (d : Die) (e : Desc) (st r0 r1 : Nat) : Prop :=
  (cqOf t d (sqCq s d e.sq)).waiting.take ((cqOf s d (sqCq s d e.sq)).waiting.length + 1) =
      (cqOf s d (sqCq s d e.sq)).waiting ++ [⟨e.sq, e.seq, e.tag, st, r0 % 2 ^ 32, r1 % 2 ^ 64, false, e.irqNow⟩] ∧
    ((sqOf s d e.sq).fetched = [] → startedDesc t d e.sq e.seq = none)

/-- A CXL.mem request of a host port for an address is bound: the port is in L0, its core runs and nothing crosses a Passage reset, no mode or
viral signal bars it, decoder k of the port covers the address, and the region n of its DLA is bound to the port (R12, R19, R185). -/
abbrev State.HostBinds (s : State) (p : Die) (hpa k : Nat) (x : HdmDec) (n : Nat) : Prop :=
  s.Idle ∧ portUp s p = true ∧ diePresent s p = true ∧ coreBypass s p = false ∧ linkHeld s p = false ∧ s.psg.resetting = false ∧ s.dev.mode ≠ .hold ∧
    hostBarred s p = false ∧ hdmFind s p hpa = some (k, x) ∧
    regionOf s (x.toDla hpa / 64 * 64) = some n ∧ bitn (bindOf s (rgAttr s n)) (dieNum p) = true

/-- A fabric port of a die may take a frame now, and nothing that an injection holds or arms is in its way (R205, R283). -/
abbrev State.FabOpen (s : State) (d : Die) (node : Nat) : Prop :=
  s.Idle ∧ canSend s d node = true ∧ (die s d).fpc.swapped = none ∧ rfb s F.FPC_INJ_CTRL.ARMED d 0 = false

/-- A frame of an UP context's session that passes the checks of R267 arrives, the core not on the bypass. -/
abbrev State.Hears (s : State) (d : Die) (f : Frame) : Prop :=
  s.FabOpen d (f.src % 4096) ∧ coreBypass s d = false ∧ badFrame s d f true = none ∧ ctxUp s d (f.src % 4096) = true ∧ f.session = (ctx s d (f.src % 4096)).session

/-- The frame is the one that the context expects, nothing is held behind it, and no frame of the device awaits an acknowledgement (R272). -/
abbrev State.Expects (s : State) (d : Die) (f : Frame) : Prop :=
  s.Hears d f ∧ f.seq = (ctx s d (f.src % 4096)).expect ∧ (ctx s d (f.src % 4096)).unacked = [] ∧ (ctx s d (f.src % 4096)).waiting = [] ∧
    (ctx s d (f.src % 4096)).held = []

/-- The state when an expected frame is taken: it is counted, its peer has been heard, and the context expects the next number (R272, R278). -/
def heardSeq (d : Die) (f : Frame) (s : State) : State :=
  onCtx d (f.src % 4096) (fun c => { c with heardNs := s.nowNs, expect := (c.expect + 1) % 2 ^ 24 }) (addCount d .FPC 1 1 s)

/-- Some frame that a port has sent whole has a property. -/
abbrev SentFrame (t : State) (d : Die) (p : Frame → Bool) : Prop :=
  t.out.any (fun m => match m with | .frame q g c _ => q == d && !c && p g | _ => false) = true

/-- What a step has put into the sideband's buffer, which keeps the last 64 records (R391), includes a record that has a property. -/
def ToldBy (s t : State) (p : EventRec → Bool) : Prop :=
  ∃ new, t.sideband = (s.sideband ++ new).drop ((s.sideband ++ new).length - 64) ∧ new.any p = true

/-- The step has posted an event of a code at a severity. -/
abbrev Told (s t : State) (code sev : Nat) : Prop := ToldBy s t (fun r => r.code == code && r.sev == sev)

/-- A port's contexts have no request in flight or waiting. -/
abbrev State.NoReqs (s : State) (d : Die) : Prop := (die s d).fpc.outq = [] ∧ (die s d).fpc.ctxs.all (fun p => decide (p.2.reqs = [])) = true

/-- How many copies of a register a window holds: one for each channel, or the count of its map. -/
def regCopies (r : RegName) : Nat := if blockChannel (regPlace r).block then 6 else (regPlace r).count

/-- A stored line whose symbol i of word w a fault has changed by e. -/
def flipSym (w i : Nat) (e : Byte) (x : Stored) : Stored := x ^^^ (e.zeroExtend 704 <<< (88 * w + 8 * i))

/-- A decoded word has an outcome, and its data symbols are those of word w of a line. -/
abbrev WordDec.Gives (r : WordDec) (o : Outc) (l : Line) (w : Nat) : Prop := r.outc = o ∧ r.data.take 8 = lineWord l w

end Sys2Proof.Machine
end

