-- ==== Sys2Proof/Certificates/Slice0/Obligations.lean ====
section
/-!
DEFINITION. Sys2Proof/Certificates/Slice0/Obligations.lean: the statements for the provers. Each says, for every state and operands that
meet what is before the arrows, what the device's step answers.
-/

open Sys2Proof Sys2Proof.Machine

/-- Chapter 3, Refresh and The echo table: a tick of the interval timer of a rank that runs owes one more REF, or makes one due where eight are owed; a rank in
self-refresh, in RETRAIN or absent has no tick. A REF issued to a rank pays a forced one first, then a due one, then an owed one where no request to the rank waits or
POSTPONE = 0; the rank's rows are closed before it (those of every rank where a command error asks for it). A REF to a rank in RETRAIN pays nothing. At 16,384 ticks the
echo tables of the rank are emptied. -/
def Obligations.RefreshTicksAndRefs : Prop :=
  (∀ (d : Die) (i r : Nat) (s : State),
      rankThere s d r = true →
      (rankOf (sub s d i) r).selfRefresh = false →
      (rankOf (sub s d i) r).retrain = none →
      (rankOf (sub s d i) r).owed < 8 →
      exec (.refTick d i r) s = .next (onSub d i (onRank r (fun x => { x with ticks := x.ticks + 1, owed := x.owed + 1, nextNs := s.nowNs + x.interval })) s)) ∧
  (∀ (d : Die) (i r : Nat) (s : State),
      rankThere s d r = true →
      (rankOf (sub s d i) r).selfRefresh = false →
      (rankOf (sub s d i) r).retrain = none →
      8 ≤ (rankOf (sub s d i) r).owed →
      exec (.refTick d i r) s = .next (onSub d i (onRank r (fun x => { x with ticks := x.ticks + 1, due := x.due + 1, nextNs := s.nowNs + x.interval })) s)) ∧
  (∀ (d : Die) (i r : Nat) (s : State),
      rankThere s d r = false ∨ (rankOf (sub s d i) r).selfRefresh = true ∨ (rankOf (sub s d i) r).retrain.isSome = true →
      exec (.refTick d i r) s = .next s) ∧
  (∀ (d : Die) (i r : Nat) (s : State),
      i < 12 →
      rankThere s d r = true →
      (rankOf (sub s d i) r).selfRefresh = false →
      (rankOf (sub s d i) r).retrain = none →
      0 < (rankOf (sub s d i) r).forced →
      AnswersWith (exec (.refIssue d i r) s) (fun t => rankOf (sub t d i) r = { rankOf (sub s d i) r with forced := (rankOf (sub s d i) r).forced - 1 } ∧
        (sub t d i).banks = (sub s d i).banks.map (fun p => if (sub s d i).preaDue = true ∨ p.1 / 32 = r then (p.1, { p.2 with row := none }) else p) ∧
        (sub t d i).cells = (sub s d i).cells ∧ (sub t d i).rdq = (sub s d i).rdq ∧ (sub t d i).wrq = (sub s d i).wrq ∧ butChan d (i / 2) t = butChan d (i / 2) s)) ∧
  (∀ (d : Die) (i r : Nat) (s : State),
      i < 12 →
      rankThere s d r = true →
      (rankOf (sub s d i) r).selfRefresh = false →
      (rankOf (sub s d i) r).retrain = none →
      (rankOf (sub s d i) r).forced = 0 →
      0 < (rankOf (sub s d i) r).due →
      AnswersWith (exec (.refIssue d i r) s) (fun t => rankOf (sub t d i) r = { rankOf (sub s d i) r with due := (rankOf (sub s d i) r).due - 1 } ∧
        (sub t d i).banks = (sub s d i).banks.map (fun p => if (sub s d i).preaDue = true ∨ p.1 / 32 = r then (p.1, { p.2 with row := none }) else p) ∧
        (sub t d i).cells = (sub s d i).cells ∧ (sub t d i).rdq = (sub s d i).rdq ∧ (sub t d i).wrq = (sub s d i).wrq ∧ butChan d (i / 2) t = butChan d (i / 2) s)) ∧
  (∀ (d : Die) (i r : Nat) (s : State),
      i < 12 →
      rankThere s d r = true →
      (rankOf (sub s d i) r).selfRefresh = false →
      (rankOf (sub s d i) r).retrain = none →
      (rankOf (sub s d i) r).forced = 0 →
      (rankOf (sub s d i) r).due = 0 →
      0 < (rankOf (sub s d i) r).owed →
      rankWaited s d i r = false ∨ postpones s d (i / 2) = false →
      AnswersWith (exec (.refIssue d i r) s) (fun t => rankOf (sub t d i) r = { rankOf (sub s d i) r with owed := (rankOf (sub s d i) r).owed - 1 } ∧
        (sub t d i).banks = (sub s d i).banks.map (fun p => if (sub s d i).preaDue = true ∨ p.1 / 32 = r then (p.1, { p.2 with row := none }) else p) ∧
        (sub t d i).cells = (sub s d i).cells ∧ (sub t d i).rdq = (sub s d i).rdq ∧ (sub t d i).wrq = (sub s d i).wrq ∧ butChan d (i / 2) t = butChan d (i / 2) s)) ∧
  (∀ (d : Die) (i r : Nat) (s : State),
      i < 12 →
      rankThere s d r = true →
      (rankOf (sub s d i) r).selfRefresh = false →
      (rankOf (sub s d i) r).retrain.isSome = true →
      AnswersWith (exec (.refIssue d i r) s) (fun t => sub t d i = sub s d i ∧ butChan d (i / 2) t = butChan d (i / 2) s)) ∧
  (∀ (d : Die) (i r : Nat) (s : State),
      16384 ≤ (rankOf (sub s d i) r).ticks →
      AnswersWith (exec (.echoClear d i r) s) (fun t => rankOf (sub t d i) r = { rankOf (sub s d i) r with ticks := (rankOf (sub s d i) r).ticks - 16384 } ∧
        (∀ k, k / 32 = r → (bankOf (sub t d i) k).echo = [] ∧ (bankOf (sub t d i) k).mitig = (bankOf (sub s d i) k).mitig ∧
          (bankOf (sub t d i) k).row = (bankOf (sub s d i) k).row) ∧
        (∀ k, k / 32 ≠ r → bankOf (sub t d i) k = bankOf (sub s d i) k) ∧
        (sub t d i).cells = (sub s d i).cells ∧ (sub t d i).rdq = (sub s d i).rdq ∧ (sub t d i).wrq = (sub s d i).wrq ∧
        t.regs = s.regs ∧ t.out = s.out ∧ butSub d i t = butSub d i s))

/-- Chapter 3, Refresh (R71 to R74, R77): a reading above 85 °C makes a cool rank hot: its owed count is doubled, at most 8 with the rest forced, and the time left
of its interval is halved; a reading of 83 °C or below makes a hot rank cool: what is owed and forced is halved and rounded up, and the time
left is doubled; any other reading keeps class and counts. A rank that has just left self-refresh starts a whole interval where its class changes. The rank is awake, not retraining, and the reading is within
TEMP_DELTA of its record (a larger difference asks for a retrain). -/
def Obligations.HotRanksRefreshTwice : Prop :=
  (∀ (d : Die) (i r : Nat) (temp : Int) (s : State),
      i < 12 →
      rankThere s d r = true →
      (rankOf (sub s d i) r).selfRefresh = false →
      (rankOf (sub s d i) r).retrain = none →
      tempDrift s d i r temp = false →
      (rankOf (sub s d i) r).hot = false →
      85 < temp →
      AnswersWith (exec (.mr4Poll d i r temp) s) (fun t => rankOf (sub t d i) r = { rankOf (sub s d i) r with hot := true, temp := temp, mr4Wanted := false, woke := false, owed := min 8 (2 * (rankOf (sub s d i) r).owed), forced := (rankOf (sub s d i) r).forced + (2 * (rankOf (sub s d i) r).owed - 8), nextNs := if (rankOf (sub s d i) r).woke then s.nowNs + RankSt.interval { rankOf (sub s d i) r with hot := true } else s.nowNs + ((rankOf (sub s d i) r).nextNs - s.nowNs) / 2 } ∧ butChan d (i / 2) t = butChan d (i / 2) s)) ∧
  (∀ (d : Die) (i r : Nat) (temp : Int) (s : State),
      i < 12 →
      rankThere s d r = true →
      (rankOf (sub s d i) r).selfRefresh = false →
      (rankOf (sub s d i) r).retrain = none →
      tempDrift s d i r temp = false →
      (rankOf (sub s d i) r).hot = true →
      temp ≤ 83 →
      AnswersWith (exec (.mr4Poll d i r temp) s) (fun t => rankOf (sub t d i) r = { rankOf (sub s d i) r with hot := false, temp := temp, mr4Wanted := false, woke := false, owed := ((rankOf (sub s d i) r).owed + (rankOf (sub s d i) r).forced + 1) / 2, forced := 0, nextNs := if (rankOf (sub s d i) r).woke then s.nowNs + RankSt.interval { rankOf (sub s d i) r with hot := false } else s.nowNs + ((rankOf (sub s d i) r).nextNs - s.nowNs) * 2 } ∧ butChan d (i / 2) t = butChan d (i / 2) s)) ∧
  (∀ (d : Die) (i r : Nat) (temp : Int) (s : State),
      i < 12 →
      rankThere s d r = true →
      (rankOf (sub s d i) r).selfRefresh = false →
      (rankOf (sub s d i) r).retrain = none →
      tempDrift s d i r temp = false →
      ((rankOf (sub s d i) r).hot = false ∧ temp ≤ 85) ∨ ((rankOf (sub s d i) r).hot = true ∧ 83 < temp) →
      AnswersWith (exec (.mr4Poll d i r temp) s) (fun t => rankOf (sub t d i) r = { rankOf (sub s d i) r with temp := temp, mr4Wanted := false, woke := false } ∧
        t.regs = s.regs ∧ t.out = s.out ∧ butChan d (i / 2) t = butChan d (i / 2) s))

/-- Chapter 3, Arbitration and The echo table (R61, R63, R80): the request at the front of a channel's crossing enters the read or write queue of its subchannel when the queue has
room, with the next place in the order of entry; a queued request that reaches AGE_CAP is marked; a mitigation queued at a bank is carried out, by directed
refresh management or by opening and closing the victim rows, and is gone from the bank's queue. -/
def Obligations.QueuesTakeAndAgeRequests : Prop :=
  (∀ (d : Die) (c : Nat) (q : Req) (rest : List Req) (s : State),
      s.Idle →
      (chan s d c).mxin = q :: rest →
      (chan s d c).clockRec = false →
      copyHolds s d q = false →
      isCopy q = false →
      q.write = false →
      (sub s d q.sub).demandHeld.any (fun x => x.home == q.home) = false →
      answerOf s d q.sub q.loc q.home = none →
      (sub s d q.sub).rdq.length < 64 →
      exec (.mscAccept d c) s = .next (onSub d q.sub (fun b => { b with rdq := b.rdq ++ [{ q with seq := s.seq + 1, loc := steer s d q.sub q.loc q.home, enterNs := s.nowNs }] })
        (onChan d c (fun x => { x with mxin := rest }) { s with seq := s.seq + 1 }))) ∧
  (∀ (d : Die) (c : Nat) (q : Req) (rest : List Req) (s : State),
      s.Idle →
      c < 6 →
      (chan s d c).mxin = q :: rest →
      (chan s d c).clockRec = false →
      copyHolds s d q = false →
      q.write = true →
      q.why = .post →
      q.port ≠ .sru →
      (sub s d q.sub).st ≠ .retired →
      (die s d).sru.memoryLost = false →
      fenced s d = false →
      uninit (sub s d q.sub) q.loc = false →
      (sub s d q.sub).demandHeld.any (fun x => x.loc / 4 == q.loc / 4) = false →
      evacTwin s d q.sub q.loc = none →
      (sub s d q.sub).wrq.length < 64 →
      AnswersWith (exec (.mscAccept d c) s) (fun t =>
        (sub t d q.sub).wrq = (sub s d q.sub).wrq ++ [{ q with seq := s.seq + 1, loc := steer s d q.sub q.loc q.home, enterNs := s.nowNs }] ∧
        (sub t d q.sub).writeMode = ((sub s d q.sub).writeMode || decide (wrHi s d (q.sub / 2) ≤ (sub s d q.sub).wrq.length + 1)) ∧
        (sub t d q.sub).cells = (sub s d q.sub).cells ∧ t.regs = s.regs ∧ t.out = s.out)) ∧
  (∀ (d : Die) (i n : Nat) (s : State),
      AnswersWith (exec (.ageCapReached d i n) s) (fun t =>
        (sub t d i).rdq = (sub s d i).rdq.map (fun q => { q with capped := q.capped || q.seq == n }) ∧
        (sub t d i).wrq = (sub s d i).wrq.map (fun q => { q with capped := q.capped || q.seq == n }) ∧
        (sub t d i).retryq = (sub s d i).retryq.map (fun q => { q with capped := q.capped || q.seq == n }) ∧
        (sub t d i).banks = (sub s d i).banks ∧ (sub t d i).cells = (sub s d i).cells ∧ t.regs = s.regs ∧ t.out = s.out ∧ butSub d i t = butSub d i s)) ∧
  (∀ (d : Die) (i r k row : Nat) (rest : List Nat) (s : State),
      (bankOf (sub s d i) (r * 32 + k)).mitig = row :: rest →
      mitigHeld s d i r = false →
      directed s d (i / 2) = true →
      (bankOf (sub s d i) (r * 32 + k)).mitigDone < 64 →
      AnswersWith (exec (.neighbourRefresh d i r k) s) (fun t =>
        bankOf (sub t d i) (r * 32 + k) = { bankOf (sub s d i) (r * 32 + k) with row := none, mitig := rest, mitigDone := (bankOf (sub s d i) (r * 32 + k)).mitigDone + 1 } ∧
        rf t (ab F.MSC_ECHO_COUNT.COUNT_A F.MSC_ECHO_COUNT.COUNT_B i) d (i / 2) =
          min (rf s (ab F.MSC_ECHO_COUNT.COUNT_A F.MSC_ECHO_COUNT.COUNT_B i) d (i / 2) + 1) (2 ^ (ab F.MSC_ECHO_COUNT.COUNT_A F.MSC_ECHO_COUNT.COUNT_B i).w - 1) ∧
        (∀ j, j ≠ r * 32 + k → bankOf (sub t d i) j = bankOf (sub s d i) j) ∧
        (sub t d i).cells = (sub s d i).cells ∧ t.out = s.out ∧ butChan d (i / 2) t = butChan d (i / 2) s)) ∧
  (∀ (d : Die) (i r k row : Nat) (rest : List Nat) (s : State),
      (bankOf (sub s d i) (r * 32 + k)).mitig = row :: rest →
      mitigHeld s d i r = false →
      directed s d (i / 2) = false →
      (bankOf (sub s d i) (r * 32 + k)).mitigDone < 64 →
      AnswersWith (exec (.neighbourRefresh d i r k) s) (fun t =>
        bankOf (sub t d i) (r * 32 + k) = (victims s d (i / 2) row).foldl (fun y v => echoAct s d i (r * 32 + k) v y)
          { bankOf (sub s d i) (r * 32 + k) with row := none, mitig := rest, mitigDone := (bankOf (sub s d i) (r * 32 + k)).mitigDone + 1 } ∧
        (∀ j, j ≠ r * 32 + k → bankOf (sub t d i) j = bankOf (sub s d i) j) ∧
        (sub t d i).cells = (sub s d i).cells ∧ butChan d (i / 2) t = butChan d (i / 2) s))

/-- Chapter 3, Arbitration, and chapter 2, Command path and Write CRC (R41, R43, R62, R64): with a request picked, COMMAND_ISSUE issues its next command. An ACT opens its row; a PRE closes the bank; a RD takes the
read out of its queue, with the bits that its location holds on their way back; a WR moves the write to the replay buffer with its window open. A command that fails its parity check reaches neither the array nor the replay buffer: later commands of the subchannel are held, the channel freezes, and CAPAR is set. -/
def Obligations.SchedulerIssuesThePickedCommand : Prop :=
  (∀ (d : Die) (i : Nat) (ready : List Nat) (q : Req) (s : State),
      s.Idle →
      i < 12 →
      pick s d i ready = some q →
      q.sub = i →
      nextCmd s d q = .act →
      AnswersWith (exec (.commandIssue d i ready false) s) (fun t => (bankOf (sub t d i) (reqBank s d q)).row = some (qRowOf s d (q.loc / 4)) ∧
        (∀ k, k ≠ reqBank s d q → bankOf (sub t d i) k = bankOf (sub s d i) k) ∧ (sub t d i).returning = (sub s d i).returning ∧
        (sub t d i).replay = (sub s d i).replay ∧ (sub t d i).cells = (sub s d i).cells ∧ butChan d (i / 2) t = butChan d (i / 2) s)) ∧
  (∀ (d : Die) (i : Nat) (ready : List Nat) (q : Req) (s : State),
      s.Idle →
      i < 12 →
      pick s d i ready = some q →
      q.sub = i →
      nextCmd s d q = .pre →
      AnswersWith (exec (.commandIssue d i ready false) s) (fun t => (bankOf (sub t d i) (reqBank s d q)).row = none ∧
        (∀ k, k ≠ reqBank s d q → bankOf (sub t d i) k = bankOf (sub s d i) k) ∧ (sub t d i).cells = (sub s d i).cells ∧
        butChan d (i / 2) t = butChan d (i / 2) s)) ∧
  (∀ (d : Die) (i : Nat) (ready : List Nat) (q : Req) (s : State),
      s.Idle →
      i < 12 →
      pick s d i ready = some q →
      q.sub = i →
      nextCmd s d q = .rd →
      AnswersWith (exec (.commandIssue d i ready false) s) (fun t =>
        (sub t d i).returning = (sub s d i).returning ++ [{ q with enc := some (cellAt (sub s d i) q.loc q.home) }] ∧
        (∀ x ∈ (sub t d i).rdq, x.seq ≠ q.seq) ∧ (sub t d i).cells = (sub s d i).cells ∧ (sub t d i).replay = (sub s d i).replay ∧
        butChan d (i / 2) t = butChan d (i / 2) s)) ∧
  (∀ (d : Die) (i : Nat) (ready : List Nat) (q : Req) (s : State),
      s.Idle →
      i < 12 →
      pick s d i ready = some q →
      q.sub = i →
      nextCmd s d q = .wr →
      AnswersWith (exec (.commandIssue d i ready false) s) (fun t => (sub t d i).replay = (sub s d i).replay ++ [⟨q, 0, true⟩] ∧
        (∀ x ∈ (sub t d i).wrq, x.seq ≠ q.seq) ∧ (sub t d i).lastWrNs = s.nowNs ∧ (sub t d i).cells = (sub s d i).cells ∧
        butChan d (i / 2) t = butChan d (i / 2) s)) ∧
  (∀ (d : Die) (i : Nat) (ready : List Nat) (q : Req) (s : State),
      s.Idle →
      i < 12 →
      pick s d i ready = some q →
      q.sub = i →
      (sub s d i).permanent = true ∨ (sub s d i).permFails.length + 1 < rf s F.EVT_PERM_CFG.COUNT d 0 →
      AnswersWith (exec (.commandIssue d i ready true) s) (fun t => (sub t d i).cmdHeld = true ∧ (chan t d (i / 2)).frozen.isSome = true ∧
        rf t (ab F.CFE_ERR_STATUS.CAPAR_A F.CFE_ERR_STATUS.CAPAR_B i) d (i / 2) = 1 ∧ (sub t d i).returning = (sub s d i).returning ∧
        (sub t d i).replay = (sub s d i).replay ∧ (sub t d i).cells = (sub s d i).cells))

/-- Chapter 2, Write CRC and ALERT_N (R43, R45, R47, R48): when the window of a write closes with no ALERT_N, and no older write of its line is in the buffer, the write leaves the replay
buffer and its line holds its bits; ALERT_N with windows open stops new writes and counts a retry for each of them; with none open it is recorded as
unexplained; from ranks in training it is ignored. -/
def Obligations.WritesReachTheArrayOrReplay : Prop :=
  (∀ (d : Die) (i : Nat) (e : Replay) (x : Stored) (s : State),
      (sub s d i).replay.find? (fun z => z.req.seq == e.req.seq) = some e →
      (sub s d i).isolating = none →
      e.req.enc = some x →
      (sub s d i).replay.any (fun z => z.req.home == e.req.home && decide (z.req.seq < e.req.seq)) = false →
      AnswersWith (exec (.replayWindowClose d i e.req.seq) s) (fun t => nget (sub t d i).cells e.req.loc = some x ∧
        (∀ l, l ≠ e.req.loc → nget (sub t d i).cells l = nget (sub s d i).cells l) ∧
        (sub t d i).replay = (sub s d i).replay.filter (fun z => z.req.seq != e.req.seq) ∧ (sub t d i).isolating = none ∧
        (sub t d i).rdq = (sub s d i).rdq ∧ (sub t d i).banks = (sub s d i).banks ∧ t.regs = s.regs ∧ t.out = s.out ∧ butSub d i t = butSub d i s)) ∧
  (∀ (d : Die) (i : Nat) (s : State),
      s.Idle →
      i < 12 →
      alertIgnored s (sub s d i) = false →
      (sub s d i).isolating = none →
      (sub s d i).replay.any (fun e => e.open_) = true →
      (sub s d i).replay.all (fun e => !e.open_ || decide (e.retries < maxRetry s d (i / 2))) = true →
      AnswersWith (exec (.alertN d i) s) (fun t =>
        (sub t d i).replay = (sub s d i).replay.map (fun e => if e.open_ then { e with retries := e.retries + 1 } else e) ∧ (sub t d i).replaying = true ∧
        (sub t d i).cells = (sub s d i).cells ∧ rf t (ab F.CFE_ERR_STATUS.WCRC_RETRY_A F.CFE_ERR_STATUS.WCRC_RETRY_B i) d (i / 2) = 1 ∧
        butSub d i t = butSub d i s)) ∧
  (∀ (d : Die) (i : Nat) (s : State),
      s.Idle →
      i < 12 →
      alertIgnored s (sub s d i) = false →
      (sub s d i).isolating = none →
      (sub s d i).replay.any (fun e => e.open_) = false →
      AnswersWith (exec (.alertN d i) s) (fun t => (sub t d i).replay = (sub s d i).replay ∧ (sub t d i).replaying = (sub s d i).replaying ∧
        (sub t d i).cells = (sub s d i).cells ∧ rf t (ab F.CFE_ERR_STATUS.ALERT_UNEXPL_A F.CFE_ERR_STATUS.ALERT_UNEXPL_B i) d (i / 2) = 1 ∧
        butSub d i t = butSub d i s)) ∧
  (∀ (d : Die) (i : Nat) (s : State),
      s.Idle →
      alertIgnored s (sub s d i) = true →
      exec (.alertN d i) s = .next s)

/-- Chapter 4 (R98, R99): the bits that return for a read of a host, decoded for the home of the line with no word in error, are delivered decrypted by
the key of the region to the host that asked, without poison, with the completion that was due; the operation is at an end. With a line outcome of
POISON the data are delivered as they were read, with poison. -/
def Obligations.ReturnedReadsAreDeliveredDecrypted : Prop :=
  (∀ (d : Die) (q : Req) (o : OpSt) (p : Die) (tag n : Nat) (x : Stored) (flips : Flips) (free : Bool) (s : State),
      s.Idle →
      q.sub < 12 →
      (sub s d q.sub).returning = [q] →
      q.enc = some x →
      q.why = .op n 0 →
      (sub s d q.sub).st ≠ .retired →
      nget s.ops n = some o →
      o.job = .read →
      o.asker = .host p tag →
      o.want = [0] →
      o.track = none →
      o.page = none →
      linkHeld s p = false →
      atMirror o.attr = false →
      atInteg o.attr = 0 →
      (decodeLine q.home (markOf s d q.sub (qRank s d (q.loc / 4))) (x ^^^ flips)).outc = .none →
      AnswersWith (exec (.readDataReturn d q.sub q.seq flips free) s) (fun t =>
        t.out.getLast? = some (.hostCpl p tag (some ⟨openLine s o.region o.attr q.home q.expect
          (decodeLine q.home (markOf s d q.sub (qRank s d (q.loc / 4))) (x ^^^ flips)).line, false⟩) o.cmp) ∧
        nget t.ops n = none ∧ (sub t d q.sub).returning = [] ∧ (sub t d q.sub).cells = (sub s d q.sub).cells)) ∧
  (∀ (d : Die) (q : Req) (o : OpSt) (p : Die) (tag n : Nat) (x : Stored) (flips : Flips) (free : Bool) (s : State),
      s.Idle →
      q.sub < 12 →
      (sub s d q.sub).returning = [q] →
      q.enc = some x →
      q.why = .op n 0 →
      (sub s d q.sub).st ≠ .retired →
      nget s.ops n = some o →
      o.job = .read →
      o.asker = .host p tag →
      o.want = [0] →
      o.track = none →
      o.page = none →
      linkHeld s p = false →
      atMirror o.attr = false →
      (chan s d (q.sub / 2)).clockRec = false →
      (decodeLine q.home (markOf s d q.sub (qRank s d (q.loc / 4))) (x ^^^ flips)).outc = .poison →
      AnswersWith (exec (.readDataReturn d q.sub q.seq flips free) s) (fun t =>
        t.out.getLast? = some (.hostCpl p tag (some ⟨openLine s o.region o.attr q.home q.expect
          (decodeLine q.home (markOf s d q.sub (qRank s d (q.loc / 4))) (x ^^^ flips)).line, true⟩) o.cmp) ∧ nget t.ops n = none ∧ (sub t d q.sub).returning = [] ∧
        rf t (ab F.CWU_STATUS.POISON_A F.CWU_STATUS.POISON_B q.sub) d (q.sub / 2) = 1))

/-- Chapter 2, Training, Training records and Retraining (R49, R53, R54, Table 2.8): the boot-time training of a rank with nothing failing keeps its record and marks the rank trained; a drift of RETRAIN or more, and a write of
CFE_TRAIN_CTRL, put an idle rank into RETRAIN; a quick retrain that found an edge at its limit goes on as a full one, and a retrain with nothing failing ends with a new record; a read of CFE_TREC_DATA
sends the word selected and moves on. -/
def Obligations.TrainingRecordsAndRetrains : Prop :=
  (∀ (d : Die) (i r point : Nat) (res : TrainResult) (s : State),
      s.Idle →
      i < 12 →
      s.dev.mode = .train →
      (sub s d i).st ≠ .retired →
      judge (critOf s d (i / 2)) false res = ⟨false, none, []⟩ →
      markOf s d i r = none →
      s.dev.fuse = [] →
      (sub s d (2 * (i / 2))).trainFail = none →
      (sub s d (2 * (i / 2) + 1)).trainFail = none →
      AnswersWith (exec (.trainingRankDone d i r point res) s) (fun t => (rankOf (sub t d i) r).trained = true ∧ (rankOf (sub t d i) r).temp = res.temp ∧
        nget (sub t d i).trec (r * 2 + recPoint s d (i / 2) point) = some (trecBytes s d i r (recPoint s d (i / 2) point) false res) ∧ (sub t d i).st = (sub s d i).st ∧
        rf t F.CFE_STATUS.ZQ_PU d (i / 2) = res.zqPu % 2 ^ F.CFE_STATUS.ZQ_PU.w ∧ butChan d (i / 2) t = butChan d (i / 2) s)) ∧
  (∀ (d : Die) (i r dev drift : Nat) (s : State),
      i < 12 →
      rf s F.CFE_DRIFT_CFG.PERIOD d (i / 2) ≠ 0 →
      rf s F.CFE_DRIFT_CFG.RETRAIN d (i / 2) ≤ drift →
      (rankOf (sub s d i) r).retrain = none →
      (rankOf (sub s d i) r).retrainWanted = none →
      retrainBarred s d (i / 2) = false →
      chanRetrains s d (i / 2) = false →
      (rankOf (sub s d i) r).selfRefresh = false →
      AnswersWith (exec (.driftMeasure d i r dev drift) s) (fun t => (rankOf (sub t d i) r).retrain = some .quick ∧ (rankOf (sub t d i) r).retrainWanted = none ∧
        (chan t d (i / 2)).rowSave = some ⟨i, r, trainingRow s d i r⟩ ∧ rf t (ab F.CFE_ERR_STATUS.DRIFT_RT_A F.CFE_ERR_STATUS.DRIFT_RT_B i) d (i / 2) = 1 ∧
        rf t F.CFE_TRAIN_CTRL.BUSY d (i / 2) = 1 ∧ butChan d (i / 2) t = butChan d (i / 2) s)) ∧
  (∀ (d : Die) (i r dev drift : Nat) (s : State),
      rf s F.CFE_DRIFT_CFG.PERIOD d (i / 2) = 0 ∨ drift < rf s F.CFE_DRIFT_CFG.RETRAIN d (i / 2) →
      exec (.driftMeasure d i r dev drift) s = .next s) ∧
  (∀ (d : Die) (c u r : Nat) (v : Word) (s : State),
      c < 6 →
      u < 2 →
      r < popRanks s d →
      r < 2 →
      verdict s .CFE d false = .take →
      bitn v.toNat u = true →
      bitn v.toNat (1 - u) = false →
      fld v.toNat 4 2 = 2 ^ r →
      (sub s d (2 * c + u)).st ≠ .retired →
      chanRetrains s d c = false →
      retrainBarred s d c = false →
      (rankOf (sub s d (2 * c + u)) r).selfRefresh = false →
      (rankOf (sub s d (2 * c + u)) r).retrainWanted = none →
      AnswersWith (exec (.retrainRequest d c v) s) (fun t => (rankOf (sub t d (2 * c + u)) r).retrain = some (if bitn v.toNat 2 then .full else .quick) ∧
        rf t F.CFE_TRAIN_CTRL.BUSY d c = 1 ∧ (chan t d c).rowSave = some ⟨2 * c + u, r, trainingRow s d (2 * c + u) r⟩ ∧ t.out = s.out ∧ butChan d c t = butChan d c s)) ∧
  (∀ (d : Die) (i r : Nat) (res : TrainResult) (s : State),
      s.Idle →
      (sub s d i).st ≠ .retired →
      (rankOf (sub s d i) r).retrain = some .quick →
      exec (.retrainDone d i r true res) s = .next (onSub d i (onRank r (fun x => { x with retrain := some .full })) s)) ∧
  (∀ (d : Die) (i r : Nat) (edge : Bool) (k : RetrainKind) (res : TrainResult) (s : State),
      s.Idle →
      i < 12 →
      s.dev.mode ≠ .train →
      (rankOf (sub s d i) r).retrain = some k →
      k = .full ∨ edge = false →
      (sub s d i).st ≠ .retired →
      judge (critOf s d (i / 2)) (k == .quick) res = ⟨false, none, []⟩ →
      markOf s d i r = none →
      (sub s d (2 * (i / 2))).trainFail = none →
      (sub s d (2 * (i / 2) + 1)).trainFail = none →
      (rankOf (sub s d i) r).mr4Wanted = false →
      chanRetrains (onSub d i (onRank r (fun x => { x with retrain := none })) s) d (i / 2) = false →
      [(2 * (i / 2), 0), (2 * (i / 2), 1), (2 * (i / 2) + 1, 0), (2 * (i / 2) + 1, 1)].all (fun p => (rankOf (sub s d p.1) p.2).retrainWanted.isNone) = true →
      AnswersWith (exec (.retrainDone d i r edge res) s) (fun t => (rankOf (sub t d i) r).retrain = none ∧ (rankOf (sub t d i) r).trained = true ∧ (rankOf (sub t d i) r).temp = res.temp ∧
        nget (sub t d i).trec (r * 2 + recPoint s d (i / 2) (pointInUse s d (i / 2))) =
          some (trecBytes s d i r (recPoint s d (i / 2) (pointInUse s d (i / 2))) (k == .quick) res) ∧ rf t F.CFE_TRAIN_CTRL.BUSY d (i / 2) = 0)) ∧
  (∀ (d : Die) (c : Nat) (s : State),
      exec (.trecDataRead d c) s = .next (wf F.CFE_TREC_SEL.WORD d c (if rf s F.CFE_TREC_SEL.WORD d c < 143 then rf s F.CFE_TREC_SEL.WORD d c + 1 else 0)
        (send (.regData (regAddr .CFE_TREC_DATA d c) (BitVec.ofNat 32 (fromLe (((trecOf s d (2 * c + rf s F.CFE_TREC_SEL.SUB d c) (rf s F.CFE_TREC_SEL.RANK d c)
          (rf s F.CFE_TREC_SEL.POINT d c)).drop (4 * rf s F.CFE_TREC_SEL.WORD d c)).take 4)))) s)))

/-- Chapter 17, The freeze–retry–poison–retire ladder (R394, R396 to R398): EVT_FRZ_CTRL.FREEZE puts a channel that is not frozen into FROZEN with cause 4; when its capture has ended it thaws and the read
that joined is retried first, with class 3 and hint CLOSE, unless HOLD keeps it; THAW ends a held freeze; a read of EVT_FRZ_DATA sends the word selected and
moves on. -/
def Obligations.ChannelsFreezeAndThaw : Prop :=
  (∀ (d : Die) (c : Nat) (s : State),
      c < 6 →
      verdict s .EVT d false = .take →
      (chan s d c).frozen = none →
      AnswersWith (exec (.evtFreeze d (2 ^ c)) s) (fun t => (chan t d c).frozen.map (·.cause) = some 4 ∧ bitn (rf t F.EVT_FRZ_CTRL.FROZEN d 0) c = true ∧
        rf t F.EVT_STATUS.FROZE d 0 = 1 ∧ (∀ k, k ≠ c → chan t d k = chan s d k) ∧ (die t d).subs = (die s d).subs ∧ t.ops = s.ops)) ∧
  (∀ (d : Die) (c : Nat) (z : FrzSt) (q : Req) (s : State),
      s.Idle →
      c < 6 →
      (chan s d c).frozen = some z →
      z.held = false →
      rfb s F.EVT_FRZ_CFG.HOLD d 0 = false →
      z.joined = [q] →
      z.cmdErrs = [] →
      (sub s d q.sub).st ≠ .retired →
      q.sub / 2 = c →
      z.sub / 2 = c →
      (chan s d c).clockRec = false →
      AnswersWith (exec (.channelThawed d c) s) (fun t => (chan t d c).frozen = none ∧
        (sub t d q.sub).retryq.getLast?.map (fun x => (x.home, x.loc, x.cls, x.close, x.why)) = some (q.home, q.loc, 3, true, .retry 1 (whyOp q.why)) ∧
        t.ops = s.ops ∧ butChan d c { t with seq := s.seq, dev := s.dev } = butChan d c (onDie d (fun x => { x with frz := (die t d).frz }) s))) ∧
  (∀ (d : Die) (c : Nat) (z : FrzSt) (s : State),
      s.Idle →
      (chan s d c).frozen = some z →
      z.held = false →
      rfb s F.EVT_FRZ_CFG.HOLD d 0 = true →
      exec (.channelThawed d c) s = .next (onDie d (fun x => { x with frz := nupd x.frz z.slot (fun r => { r with held := true }) })
        (onChan d c (fun x => { x with frozen := some { z with held := true } }) s))) ∧
  (∀ (d : Die) (c : Nat) (z : FrzSt) (q : Req) (s : State),
      s.Idle →
      c < 6 →
      verdict s .EVT d false = .take →
      (chan s d c).frozen = some z →
      z.held = true →
      z.joined = [q] →
      z.cmdErrs = [] →
      (sub s d q.sub).st ≠ .retired →
      q.sub / 2 = c →
      z.sub / 2 = c →
      (chan s d c).clockRec = false →
      AnswersWith (exec (.evtThaw d (2 ^ c)) s) (fun t => (chan t d c).frozen = none ∧
        (sub t d q.sub).retryq.getLast?.map (fun x => (x.home, x.loc, x.cls, x.close, x.why)) = some (q.home, q.loc, 3, true, .retry 1 (whyOp q.why)) ∧ t.ops = s.ops)) ∧
  (∀ (d : Die) (s : State),
      exec (.freezeDataRead d) s = .next (wf F.EVT_FRZ_SEL.WORD d 0 (if rf s F.EVT_FRZ_SEL.WORD d 0 < 511 then rf s F.EVT_FRZ_SEL.WORD d 0 + 1 else 0)
        (send (.regData (regAddr .EVT_FRZ_DATA d 0) (BitVec.ofNat 32 (fromLe (((((nget (die s d).frz (rf s F.EVT_FRZ_SEL.SLOT d 0)).map (·.bytes)).getD []).drop (4 * rf s F.EVT_FRZ_SEL.WORD d 0)).take 4)))) s)))

/-- Chapter 4, Erasure marks, Testing the checker and CWU registers (R101, R102, R104): a write of CWU_ERASE with VALID = 1 marks a device of a rank that carries no mark, and is refused on a rank that carries another mark; ARM keeps the
settings of CWU_INJ_CTRL and the masks as they stand; DISARM drops them and leaves DONE; CLEAR zeroes the count selected. -/
def Obligations.WordCodeRegistersAct : Prop :=
  (∀ (d : Die) (c u r dev : Nat) (s : State),
      c < 6 →
      u < 2 →
      r < 2 →
      dev ≤ 10 →
      verdict s .CWU d false = .take →
      markOf s d (2 * c + u) r = none →
      AnswersWith (exec (.cwuEraseWrite d c (BitVec.ofNat 32 (setFld (setFld 0 (eraseDevF (2 * c + u) r).lo (eraseDevF (2 * c + u) r).w dev) (eraseValidF (2 * c + u) r).lo 1 1))) s)
        (fun t => markOf t d (2 * c + u) r = some dev ∧ (die t d).subs = (die s d).subs ∧ (die t d).chans = (die s d).chans ∧ butDie d t = butDie d s)) ∧
  (∀ (d : Die) (c u r dev a : Nat) (s : State),
      c < 6 →
      u < 2 →
      r < 2 →
      dev ≤ 10 →
      verdict s .CWU d false = .take →
      markOf s d (2 * c + u) r = some a →
      a ≠ dev →
      (die s d).sru.spareSub = none →
      AnswersWith (exec (.cwuEraseWrite d c (BitVec.ofNat 32 (setFld (setFld 0 (eraseDevF (2 * c + u) r).lo (eraseDevF (2 * c + u) r).w dev) (eraseValidF (2 * c + u) r).lo 1 1))) s)
        (fun t => markOf t d (2 * c + u) r = some a ∧ rf t F.CWU_STATUS.ERASE_REFUSED d c = 1 ∧ t.quiet = s.quiet)) ∧
  (∀ (d : Die) (c : Nat) (v : Word) (s : State),
      c < 6 →
      verdict s .CWU d false = .take →
      AnswersWith (exec (.cwuInjArm d c v) s) (fun t => rf t F.CWU_INJ_CTRL.ARMED d c = 1 ∧
        (chan t d c).inj = some ⟨fld v.toNat F.CWU_INJ_CTRL.SUB.lo F.CWU_INJ_CTRL.SUB.w,
          ⟨fld v.toNat F.CWU_INJ_CTRL.WORD.lo F.CWU_INJ_CTRL.WORD.w,
           if fld v.toNat F.CWU_INJ_CTRL.FLIP_EN.lo F.CWU_INJ_CTRL.FLIP_EN.w = 1 then some (injMask s d c) else none,
           if fld v.toNat F.CWU_INJ_CTRL.SKEW_EN.lo F.CWU_INJ_CTRL.SKEW_EN.w = 1 then some (BitVec.ofNat 16 (fld v.toNat F.CWU_INJ_CTRL.SKEW.lo F.CWU_INJ_CTRL.SKEW.w)) else none⟩,
          fld v.toNat F.CWU_INJ_CTRL.MATCH_EN.lo F.CWU_INJ_CTRL.MATCH_EN.w == 1⟩ ∧
        t.out = s.out ∧ butChan d c t = butChan d c s)) ∧
  (∀ (d : Die) (c : Nat) (s : State),
      verdict s .CWU d false = .take →
      exec (.cwuInjDisarm d c) s = .next (wf F.CWU_INJ_CTRL.ARMED d c 0 (onChan d c (fun x => { x with inj := none }) s))) ∧
  (∀ (d : Die) (c dev r u : Nat) (s : State),
      c < 6 →
      dev < 11 →
      r < 2 →
      u < 2 →
      verdict s .CWU d false = .take →
      AnswersWith (exec (.devcntClear d c (BitVec.ofNat 32 (dev + r * 16 + u * 32))) s) (fun t =>
        ngetD (sub t d (2 * c + u)).devcnt (devKey r dev) 0 = 0 ∧
        (∀ k, k ≠ devKey r dev → nget (sub t d (2 * c + u)).devcnt k = nget (sub s d (2 * c + u)).devcnt k) ∧
        (sub t d (2 * c + u)).cells = (sub s d (2 * c + u)).cells ∧ t.out = s.out ∧ butSub d (2 * c + u) t = butSub d (2 * c + u) s))

/-- Chapter 5 (R106, R107, R112, R117, R119, R123): a step of Lantern issues the next read, or is owed; a remap copy whose line has been read enters the write queue for its spare line and makes the entry valid;
a spare-row repair of a row that reads clean frees its bank and is recorded in the fuse map; an erasure window notes the counts; a read of SRU_DRIP_DATA sends the
word selected and moves on. -/
def Obligations.LanternReadsAndRepairsComplete : Prop :=
  (∀ (d : Die) (i q l : Nat) (w : Bool) (s : State),
      i < 12 →
      rfb s F.SRU_SCRUB_CFG.EN d (i / 2) = true →
      resting s = false →
      (sub s d i).st = .live →
      scrubHeld s d i = false →
      (sub s d i).scrub.outstanding < 4 →
      (sub s d i).scrub.owed = 0 →
      (sub s d i).scrub.held = [] →
      scrubFind s d i 200 (sub s d i).scrub.q (sub s d i).scrub.line false = some (q, l, w) →
      AnswersWith (exec (.scrubStep d i) s) (fun t => (sub t d i).scrub.outstanding = (sub s d i).scrub.outstanding + 1 ∧
        (chan t d (i / 2)).mxin.getLast?.any (fun x => !x.write && x.sub == i && x.loc == 4 * q + l && x.port == .sru && x.why == .scrub false) = true ∧
        (sub t d i).cells = (sub s d i).cells ∧ t.out = s.out ∧ butChan d (i / 2) { t with seq := s.seq } = butChan d (i / 2) s)) ∧
  (∀ (d : Die) (i : Nat) (s : State),
      rfb s F.SRU_SCRUB_CFG.EN d (i / 2) = true →
      resting s = false →
      (sub s d i).st = .live →
      scrubHeld s d i = true ∨ (4 ≤ (sub s d i).scrub.outstanding ∧ (sub s d i).scrub.held = []) →
      (sub s d i).scrub.owed < 65534 →
      exec (.scrubStep d i) s = .next (onSub d i (fun b => { b with scrub := { b.scrub with owed := (sub s d i).scrub.owed + 1 } }) s)) ∧
  (∀ (d : Die) (i k : Nat) (c : RemapCopy) (l : Option LineData) (m : RemapEnt) (s : State),
      i < 12 →
      (die s d).sru.remapCopies.find? (fun x => x.sub == i && x.entry == k) = some c →
      c.got = some l →
      nget (sub s d i).remap k = some m →
      (sub s d i).wrq.length < 64 →
      (chan s d (i / 2)).frozen = none →
      (chan s d (i / 2)).inj = none →
      AnswersWith (exec (.remapApplied d i k) s) (fun t => nget (sub t d i).remap k = some { m with valid := true } ∧
        (sub t d i).wrq.map (fun x => (x.write, x.loc, x.home, x.line, x.poison)) =
          (sub s d i).wrq.map (fun x => (x.write, x.loc, x.home, x.line, x.poison)) ++ l.toList.map (fun y => (true, spareLoc s d k, m.home, y.line, y.poison)) ∧
        (die t d).sru.remapCopies = (die s d).sru.remapCopies.filter (fun x => x != c) ∧
        (sub t d i).cells = (sub s d i).cells ∧ butDie d { t with seq := s.seq } = butDie d s)) ∧
  (∀ (d : Die) (i r k : Nat) (free : Bool) (x : RowRepair) (s : State),
      s.Idle →
      i < 12 →
      (die s d).sru.rowRepairs.find? (fun x => x.sub == i && x.rank == r && x.bg * 4 + x.bank == k) = some x →
      rowReady s d i (4 * rowFirstQ s d x.rank x.bg x.bank x.row) = true →
      (chan s d (i / 2)).inj = none →
      (sub s d i).remap = [] →
      s.dev.fuse.length < 1024 →
      ((die s d).sru.rowRepairs.filter (fun y => y != x)).any (fun y => y.sub == i && y.rank == x.rank && y.bg == x.bg && y.bank == x.bank) = false →
      (List.range 128).all (fun n => uninit (sub s d i) (4 * rowFirstQ s d x.rank x.bg x.bank x.row + n) || decide ((decodeLine (homeOf s d i (4 * rowFirstQ s d x.rank x.bg x.bank x.row + n)) (markOf s d i (qRank s d ((4 * rowFirstQ s d x.rank x.bg x.bank x.row + n) / 4))) (cellAt (sub s d i) (4 * rowFirstQ s d x.rank x.bg x.bank x.row + n) (homeOf s d i (4 * rowFirstQ s d x.rank x.bg x.bank x.row + n)))).outc = .none)) = true →
      AnswersWith (exec (.spareRowApplied d i r k free []) s) (fun t => (bankOf (sub t d i) (bankKey x.rank x.bg x.bank)).held = false ∧
        (bankOf (sub t d i) (bankKey x.rank x.bg x.bank)).row = none ∧ (die t d).sru.rowRepairs = (die s d).sru.rowRepairs.filter (fun y => y != x) ∧
        t.dev.fuse = s.dev.fuse ++ [fuseRec 0x5A d i x.rank (rfb s F.SRU_REPAIR_CFG.HARD_PPR d (i / 2)) x.dev x.bg x.bank x.row 1] ∧
        rfc t F.CFG_STATUS.UPDATING = 1 ∧
        (∀ l, (l < 4 * rowFirstQ s d x.rank x.bg x.bank x.row ∨ 4 * rowFirstQ s d x.rank x.bg x.bank x.row + 128 ≤ l) → nget (sub t d i).cells l = nget (sub s d i).cells l) ∧
        butDie d { t with dev := s.dev } = butDie d s)) ∧
  (∀ (d : Die) (s : State),
      (List.range 12).all (fun i => decide (risen s d i = []) || !(rfb s F.SRU_ERASE_CFG.EN d (i / 2))) = true →
      AnswersWith (exec (.eraseWindow d) s) (fun t => (∀ i, i < 12 → (sub s d i).st = .live → sub t d i = { sub s d i with devSnap := (sub s d i).devcnt }) ∧
        (∀ i, (sub s d i).st ≠ .live → sub t d i = sub s d i) ∧ t.regs = s.regs ∧ t.out = s.out ∧ (die t d).sru = (die s d).sru ∧ butDie d t = butDie d s)) ∧
  (∀ (d : Die) (c : Nat) (s : State),
      exec (.dripDataRead d c) s = .next (onlyIf (rf s F.SRU_DRIP_SEL.WORD d c == 3) (wf F.SRU_DRIP_SEL.ENTRY d c ((rf s F.SRU_DRIP_SEL.ENTRY d c + 1) % 64))
        (wf F.SRU_DRIP_SEL.WORD d c ((rf s F.SRU_DRIP_SEL.WORD d c + 1) % 4)
          (send (.regData (regAddr .SRU_DRIP_DATA d c) (BitVec.ofNat 32 (fld (((nget (die s d).sru.drip (rf s F.SRU_DRIP_SEL.ENTRY d c)).map dripBits).getD 0) (32 * rf s F.SRU_DRIP_SEL.WORD d c) 32))) s))))

/-- Chapter 5 (R125 to R131): START with a spare held and no evacuation running starts the copy of a live subchannel; the reads of a block are issued, and its lines, when read, enter the spare's write queue and move the position; when all are copied and the queues have drained the spare takes the position of the failing
subchannel, which is RETIRED; RELEASE clears SALVAGE_HOLD; salvage ends with one live position fewer and every line of the die unwritten; a mirrored region with nothing to copy is rebuilt at once. -/
def Obligations.SparesAndSalvageTakeOver : Prop :=
  (∀ (d : Die) (c u sp : Nat) (v : Word) (s : State),
      c < 6 →
      u < 2 →
      bitn v.toNat u = true →
      bitn v.toNat (1 - u) = false →
      verdict s .SRU d false = .take →
      (die s d).sru.spareSub = some sp →
      (die s d).sru.evac = none →
      (sub s d (2 * c + u)).st = .live →
      (die s d).sru.liveList.contains (2 * c + u) = true →
      AnswersWith (exec (.sruEvacStart d c v) s) (fun t => (die t d).sru.evac = some ⟨2 * c + u, sp, 0, false, false, [], [], 0, false⟩ ∧ rf t F.SRU_EVAC_CTRL.ACTIVE d c = 1 ∧
        rf t F.SRU_EVAC_POS.Q d c = 0 ∧ (die t d).sru.liveList = (die s d).sru.liveList ∧ butDie d t = butDie d s)) ∧
  (∀ (d : Die) (e : EvacSt) (s : State),
      s.Idle →
      e.failing < 12 →
      (die s d).sru.evac = some e →
      e.rebuild = false →
      e.begun = false →
      e.q < qTop s d - 8 →
      (chan s d (e.failing / 2)).frozen = none →
      (chan s d (e.spare / 2)).frozen = none →
      (die s d).sru.remapCopies.any (·.sub == e.failing) = false →
      (List.range 4).all (fun l => (dlaOf s (homeOf s d e.failing (4 * e.q + l))).isNone) = true →
      AnswersWith (exec (.evacCopy d) s) (fun t => (die t d).sru.evac = some { e with begun := true, entered := false, left := (List.range 4).filter (fun l => decide (copyKind s d e.failing (4 * e.q + l) = .read)), got := ((List.range 4).filter (fun l => decide (copyKind s d e.failing (4 * e.q + l) = .blank))).map (fun l => (l, ⟨0, false⟩)) } ∧
        (die t d).subs = (die s d).subs ∧ butDie d { t with seq := s.seq } = butDie d s)) ∧
  (∀ (d : Die) (e : EvacSt) (s : State),
      s.Idle →
      e.failing < 12 →
      (die s d).sru.evac = some e →
      e.rebuild = false →
      e.begun = true →
      e.left = [] →
      e.q + 1 < qTop s d - 8 →
      (chan s d (e.failing / 2)).frozen = none →
      (chan s d (e.spare / 2)).frozen = none →
      (die s d).sru.remapCopies.any (·.sub == e.failing) = false →
      (sub s d e.spare).wrq.length ≤ 60 →
      (sub s d e.spare).remap = [] →
      e.spare ≠ e.failing →
      (List.range 4).all (fun l => (dlaOf s (homeOf s d e.failing (4 * (e.q + 1) + l))).isNone) = true →
      AnswersWith (exec (.evacCopy d) s) (fun t => (die t d).sru.evac.map (·.q) = some (e.q + 1) ∧
        rf t F.SRU_EVAC_POS.Q d (e.failing / 2) = (e.q + 1) % 2 ^ F.SRU_EVAC_POS.Q.w ∧
        (sub t d e.spare).wrq.map (fun x => (x.loc, x.line, x.poison)) = (sub s d e.spare).wrq.map (fun x => (x.loc, x.line, x.poison)) ++ e.got.map (fun p => (4 * e.q + p.1, p.2.line, p.2.poison)))) ∧
  (∀ (d : Die) (e : EvacSt) (s : State),
      s.Idle →
      e.failing < 12 →
      e.spare < 12 →
      e.spare ≠ e.failing →
      (die s d).sru.evac = some e →
      e.rebuild = false →
      qTop s d - 8 ≤ e.q →
      drained s d e.failing = true →
      (List.range 12).all (fun j => !(sub s d j).permanent) = true →
      AnswersWith (exec (.evacDone d) s) (fun t => (die t d).sru.liveList = (die s d).sru.liveList.map (fun x => if x = e.failing then e.spare else x) ∧
        (sub t d e.failing).st = .retired ∧ (sub t d e.spare).st = .live ∧ (sub t d e.spare).remap = [] ∧ (die t d).sru.evac = none ∧ (die t d).sru.spareSub = none ∧
        rf t F.SRU_EVAC_CTRL.ACTIVE d (e.failing / 2) = 0 ∧ butDie d { t with dev := s.dev } = butDie d s)) ∧
  (∀ (d : Die) (n : Nat) (flips : List (Nat × Flips)) (s : State),
      s.Idle →
      dieFresh s d = true →
      (die s d).sru.memoryLost = false →
      fenced s d = false →
      (List.range 6).all (fun c => (chan s d c).frozen.isNone) = true →
      (mirrorRegions s).contains n = true →
      (die s d).sru.rebuilt.contains n = false →
      writtenLines s (otherDie d) n = [] →
      (die s d).sru.evac = none →
      AnswersWith (exec (.mirrorRebuilt d n flips) s) (fun t => (die t d).sru = { (die s d).sru with rebuilt := (die s d).sru.rebuilt ++ [n] } ∧
        (die t d).subs = (die s d).subs ∧ (die t d).chans = (die s d).chans ∧ butDie d t = butDie d s)) ∧
  (∀ (d : Die) (free : Bool) (z : SalvageSt) (s : State),
      s.todo = [] →
      s.sani = none →
      (die s (otherDie d)).sru.salvage = none →
      (die s d).sru.salvage = some z →
      salvageOver s d z = true →
      11 ≤ ((die s d).sru.liveList.filter (· != z.sub)).length →
      (die s d).sru.drip = [] →
      (tme s d).starved = [] →
      (die s d).sru.liveList.Nodup →
      AnswersWith (exec (.dieRemapped d free) s) (fun t => (die t d).sru.salvage = none ∧ (die t d).sru.liveList = (die s d).sru.liveList.filter (· != z.sub) ∧
        (∀ i, i ∈ (die t d).sru.liveList → (sub t d i).cells = [] ∧ (sub t d i).fresh = .switched ∧ (sub t d i).remap = []) ∧ (die t d).lmeta = [])) ∧
  (∀ (d : Die) (s : State),
      verdict s .SRU d false = .take →
      AnswersWith (exec (.salvageRelease d) s) (fun t => (∀ c, c < 6 → rf t F.SRU_RETIRE_CTRL.SALVAGE_HOLD d c = 0) ∧ { t with regs := s.regs } = s))

/-- Chapter 6, Region descriptors, and R208: a write of RANGE, ATTR, PLACE or MAP of a descriptor that is off is taken; of one that is on, HINT, PRIO, FABRIC_READ and
FABRIC_WRITE alone may change, and a change of another field is refused with REASON 10; ENABLE is refused with the REASON of the first row of Table
6.1 that fails, and else sets ENABLE and BUSY (in TRAIN only ENABLE, there being nothing to fill). A write from outside an owner's session under
LOCKDOWN changes no descriptor and is counted. -/
def Obligations.RegionDescriptorsTakeWritesAndEnables : Prop :=
  (∀ (n off : Nat) (v : Word) (r : RegName) (sess : Option Nat) (s : State),
      s.Idle →
      n < 64 →
      verdict s .RGN .east (sessOwner s sess) = .take →
      rgOn s n = false →
      rgReg off = some r →
      exec (.rgnWrite n off v sess) s = .next (wrReg r .east n (takeFields (regFields r) (rdReg s r .east n) v.toNat) s)) ∧
  (∀ (n off : Nat) (v : Word) (r : RegName) (sess : Option Nat) (s : State),
      s.Idle →
      n < 64 →
      verdict s .RGN .east (sessOwner s sess) = .take →
      rgOn s n = true →
      rgReg off = some r →
      r ≠ .RGN_ATTR →
      takeFields (regFields r) (rdReg s r .east n) v.toNat ≠ rdReg s r .east n →
      AnswersWith (exec (.rgnWrite n off v sess) s) (fun t => rdReg t r .east n = rdReg s r .east n ∧ rg t F.RGN_CTRL.REFUSED n = 1 ∧
        rg t F.RGN_CTRL.REASON n = 10 ∧ rgOn t n = true ∧ t.quiet = s.quiet)) ∧
  (∀ (n : Nat) (v : Word) (sess : Option Nat) (s : State),
      s.Idle →
      n < 64 →
      verdict s .RGN .east (sessOwner s sess) = .take →
      rgOn s n = true →
      takeFields rgFree (rgAttr s n) v.toNat = takeFields (regFields .RGN_ATTR) (rgAttr s n) v.toNat →
      exec (.rgnWrite n 4 v sess) s = .next (wrReg .RGN_ATTR .east n (takeFields rgFree (rgAttr s n) v.toNat) s)) ∧
  (∀ (n : Nat) (sess : Option Nat) (s : State),
      s.Idle →
      n < 64 →
      verdict s .RGN .east (sessOwner s sess) = .take →
      rgOn s n = false →
      enableFault s n = none →
      exec (.regionEnable n sess) s = .next (cdatRegion n (onlyIf (s.dev.mode != .train) (wfc F.RGN_CTRL.BUSY 1 n) (wfc F.RGN_CTRL.ENABLE 1 n
        (each (rgDies (rgAttr s n)) (takeShare n (rgAttr s n) (rgGib s n)) s))))) ∧
  (∀ (n r : Nat) (sess : Option Nat) (s : State),
      s.Idle →
      n < 64 →
      verdict s .RGN .east (sessOwner s sess) = .take →
      rgOn s n = false →
      enableFault s n = some r →
      AnswersWith (exec (.regionEnable n sess) s) (fun t => rgOn t n = false ∧ rg t F.RGN_CTRL.REFUSED n = 1 ∧ rg t F.RGN_CTRL.REASON n = r ∧ t.quiet = s.quiet)) ∧
  (∀ (n off : Nat) (v : Word) (sess : Option Nat) (s : State),
      s.Idle →
      verdict s .RGN .east (sessOwner s sess) = .denied →
      AnswersWith (exec (.rgnWrite n off v sess) s) (fun t => (∀ k, rdReg t .RGN_RANGE .east k = rdReg s .RGN_RANGE .east k) ∧
        (∀ k, rdReg t .RGN_ATTR .east k = rdReg s .RGN_ATTR .east k) ∧ rfc t F.SEC_DENY_COUNT.COUNT = satAdd 32 (rfc s F.SEC_DENY_COUNT.COUNT) 1 ∧
        rfc t F.SEC_STATUS.DENIED = 1 ∧ t.quiet = s.quiet))

/-- Chapter 6, Region descriptors (R138, R139): when the fill of an enabling flat region is done its lines are blank on each of its dies, no other line has changed, and BUSY reads 0. ENABLE
= 0 sets BUSY, keeps the descriptor as it stands for what is bound to it, and tells the ports; BUSY reads 0 once nothing bound to the region is left, its map slice and frames then free. -/
def Obligations.RegionFillsAndDisablesEnd : Prop :=
  (∀ (n : Nat) (s : State),
      s.Idle →
      n < 64 →
      rgOn s n = true →
      rg s F.RGN_CTRL.BUSY n = 1 →
      atTiered (rgAttr s n) = false →
      ∀ o, o ∈ rgDies (rgAttr s n) → shareRuns s o n = [] ∧ ∀ c, c < 6 → (chan s o c).inj = none →
      AnswersWith (exec (.regionFillDone n) s) (fun t => rg t F.RGN_CTRL.BUSY n = 0 ∧ rgOn t n = true ∧ t.out = s.out ∧ t.nowNs = s.nowNs ∧
        (∀ o, o ∈ rgDies (rgAttr s n) → (∀ i, i < 12 → (sub t o i).cells = (sub s o i).cells.filter (fun c =>
            !(inRun o (rg s F.RGN_PLACE.DPA_G n * 2 ^ 24) (rgGib s n * 2 ^ 24) (cellHome s o i c.1))) ∧
            (sub t o i).wrq = (sub s o i).wrq.map (blankReq o (rg s F.RGN_PLACE.DPA_G n * 2 ^ 24) (rgGib s n * 2 ^ 24))) ∧
          (die t o).lmeta = neraseRange (die s o).lmeta (rg s F.RGN_PLACE.DPA_G n * 2 ^ 24) (rgGib s n * 2 ^ 24)) ∧
        (∀ o, o ∉ rgDies (rgAttr s n) → die t o = die s o))) ∧
  (∀ (n : Nat) (sess : Option Nat) (s : State),
      s.Idle →
      n < 64 →
      verdict s .RGN .east (sessOwner s sess) = .take →
      rgOn s n = true →
      atTiered (rgAttr s n) = false →
      atCoherent (rgAttr s n) = false →
      s.tables = [] →
      s.east.pools = [] →
      s.west.pools = [] →
      s.east.badNodes = [] →
      s.west.badNodes = [] →
      s.rots = [] →
      exec (.regionDisable n sess) s = .next (cdatRegion n (wfc F.RGN_CTRL.BUSY 1 n (wfc F.RGN_CTRL.ENABLE 0 n (keepBound n s))))) ∧
  (∀ (n : Nat) (s : State),
      s.Idle →
      n < 64 →
      rgOn s n = false →
      rg s F.RGN_CTRL.BUSY n = 1 →
      regionBusy s n = false →
      atTiered (rgAttr s n) = false →
      s.tables = [] →
      s.east.pools = [] →
      s.west.pools = [] →
      exec (.regionDisableDone n) s = .next (wfc F.RGN_CTRL.BUSY 0 n (dropBound n (each [Die.east, Die.west] (dropShare n) s)))) ∧
  (∀ (n : Nat) (s : State),
      s.Idle →
      n < 64 →
      rgOn s n = false →
      rg s F.RGN_CTRL.BUSY n = 1 →
      regionBusy s n = false →
      atTiered (rgAttr s n) = true →
      s.tables = [] →
      s.east.pools = [] →
      s.west.pools = [] →
      (tme s (atHome (rgAttr s n))).starved = [] →
      (tme s (atHome (rgAttr s n))).full = [] →
      (tme s (atHome (rgAttr s n))).jobs = [] →
      AnswersWith (exec (.regionDisableDone n) s) (fun t => rg t F.RGN_CTRL.BUSY n = 0 ∧ nget t.bound n = none ∧
        (tme t (atHome (rgAttr s n))).pages = neraseRange (tme s (atHome (rgAttr s n))).pages (sliceOf s n).1 (sliceOf s n).2 ∧
        (tme t (atHome (rgAttr s n))).frames = neraseRange (tme s (atHome (rgAttr s n))).frames (rg s F.RGN_PLACE.DPA_G n * 262144) (rg s F.RGN_PLACE.BACK_GIB n * 262144)))

/-- Chapter 6, Tiers and the moves between them, Heat, and Migration and placement epochs (R147, R148, R152, R154): the heat epoch counts modulo 256; a visit of the sweep to a page whose entry is in the map cache starts the move that its heat and age ask for; a commit, once
the destination holds the page, gives the entry the new placement and the next placement epoch, ends MOVING, and lets the writes that waited go on; when
no request uses the old placement it is freed with the slot. -/
def Obligations.PagesMoveAndTheirOldPlacesDrain : Prop :=
  (∀ (d : Die) (s : State),
      exec (.heatEpoch d) s = .next (wf F.TME_STATUS.EPOCH d 0 ((rf s F.TME_STATUS.EPOCH d 0 + 1) % 256) (onTme d (fun t => { t with spared := [] }) s))) ∧
  (∀ (d : Die) (n dla : Nat) (e : PageEnt) (s : State),
      rfb s F.TME_POLICY.EN d 0 = true →
      serving s = true →
      resting s = false →
      (tieredOn s d).contains n = true →
      rgHolds s n dla = true →
      (die s d).sru.salvage = none →
      rfb s F.TME_STATUS.REHOME d 0 = false →
      dla % 4096 = 0 →
      pageEnt s d (pageKey s n dla) = e →
      cachedEntry s d (pageKey s n dla) = true →
      e.tier = tT0 →
      e.pin = false →
      freshIncomp s d e = false →
      e.heat = 0 →
      spared s d (pageKey s n dla) = false →
      movable s d (pageKey s n dla) = true →
      exec (.sweepVisit d n dla) s = .next (settle (demote d n dla (farAge s d e) .sweep s).2)) ∧
  (∀ (d : Die) (n dla k rp : Nat) (e : PageEnt) (s : State),
      s.Idle →
      rfb s F.TME_POLICY.EN d 0 = true →
      serving s = true →
      resting s = false →
      (tieredOn s d).contains n = true →
      rgHolds s n dla = true →
      (die s d).sru.salvage = none →
      rfb s F.TME_STATUS.REHOME d 0 = false →
      dla % 4096 = 0 →
      pageEnt s d (pageKey s n dla) = e →
      cachedEntry s d (pageKey s n dla) = true →
      e.tier = tT1 →
      farAge s d e = true →
      e.heat = 0 →
      spared s d (pageKey s n dla) = false →
      moveOf s d (pageKey s n dla) = none →
      freeSlot s d = some k →
      t2Allowed s n = true →
      (outPort s d (rf s F.TME_T2_CFG.NODE d 0)).isSome = true →
      lowGap (tme s d).pool 0 < poolSize s d →
      rp = rf s F.TME_T2_CFG.BASE_G d 0 * 262144 + lowGap (tme s d).pool 0 →
      AnswersWith (exec (.sweepVisit d n dla) s) (fun t => (nget (tme t d).moves k).map (fun m => { m with id := 0 }) = some ⟨0, .send, true, [], n, pageKey s n dla, dla, t2Entry s d e rp, e, true, false, false, [], .sweep⟩ ∧
        pageEnt t d (pageKey s n dla) = { e with moving := true } ∧ nget (tme t d).pool (lowGap (tme s d).pool 0) = some ())) ∧
  (∀ (d : Die) (k : Nat) (m : MoveSt) (s : State),
      nget (tme s d).moves k = some m →
      m.accepted = true →
      m.committed = false →
      exec (.moveCommit d k) s = .next (settle (wakeFull d (jobTold d m.why (m.dest.tier != m.old.tier) (each m.waiting (fun r => later (.carry r)) (syncMoves d (onMove d k (fun x => { x with committed := true, waiting := [] })
        (writeEntry d m.page (setPage d m.page { pageEnt s d m.page with tier := m.dest.tier, cls := m.dest.cls, node := m.dest.node, place := m.dest.place, moving := false, pin := m.dest.pin, incomp := m.dest.incomp, iepoch := m.dest.iepoch, epoch := ((pageEnt s d m.page).epoch + 1) % 256 } s))))))))) ∧
  (∀ (d : Die) (k : Nat) (m : MoveSt) (s : State),
      s.Idle →
      nget (tme s d).moves k = some m →
      m.accepted = true →
      m.committed = false →
      m.waiting = [] →
      m.why = .sweep →
      (tme s d).full = [] →
      AnswersWith (exec (.moveCommit d k) s) (fun t => (pageEnt t d m.page).tier = m.dest.tier ∧ (pageEnt t d m.page).place = m.dest.place ∧ (pageEnt t d m.page).moving = false ∧
        (pageEnt t d m.page).pin = m.dest.pin ∧ (pageEnt t d m.page).epoch = ((pageEnt s d m.page).epoch + 1) % 256 ∧ (pageEnt t d m.page).heat = (pageEnt s d m.page).heat ∧ (∀ q, q ≠ m.page → pageEnt t d q = pageEnt s d q) ∧
        (tme t d).frames = (tme s d).frames ∧ t.ops = s.ops ∧ t.out = s.out)) ∧
  (∀ (d : Die) (k : Nat) (m : MoveSt) (s : State),
      nget (tme s d).moves k = some m →
      m.committed = true →
      drainCount s d m = 0 →
      exec (.moveDrainDone d k) s = .next (settle (wakeStarved d (syncMoves d (onlyIf (m.dest.tier != m.old.tier) (freePlacement d m.old) (onTme d (fun t => { t with moves := nerase t.moves k }) s))))))

/-- Chapter 6 (R145, R155, R156, R159): the fill of block W − 1 queues its four blank writes, but where a demand write came first, and lowers W; the first write held for a block that W has passed enters the write queue. When a
promotion has waited WAIT_US for a frame and there is none, the write is discarded and 0x0602 posted. When all pages are rehomed TME_STATUS.REHOME_DONE reads 1 and 0x0605 is posted. -/
def Obligations.FillsReleasesAndRehomesEnd : Prop :=
  (∀ (d : Die) (i : Nat) (s : State),
      s.Idle →
      i < 12 →
      0 < (sub s d i).initW →
      fillRuns s d i = true →
      (sub s d i).demand.contains ((sub s d i).initW - 1) = true →
      AnswersWith (exec (.initFillBlock d i) s) (fun t => (sub t d i).initW = (sub s d i).initW - 1 ∧
        (sub t d i).demand = (sub s d i).demand.filter (· != (sub s d i).initW - 1) ∧ (sub t d i).cells = (sub s d i).cells ∧
        (sub t d i).rdq = (sub s d i).rdq ∧ (sub t d i).wrq = (sub s d i).wrq ∧ butSub d i t = butSub d i s)) ∧
  (∀ (d : Die) (i : Nat) (s : State),
      s.Idle →
      i < 12 →
      0 < (sub s d i).initW →
      fillRuns s d i = true →
      (sub s d i).demand.contains ((sub s d i).initW - 1) = false →
      queueRoom s d i (4 * ((sub s d i).initW - 1)) 4 = true →
      (sub s d i).remap = [] →
      AnswersWith (exec (.initFillBlock d i) s) (fun t => (sub t d i).initW = (sub s d i).initW - 1 ∧ (sub t d i).demand = (sub s d i).demand ∧ (sub t d i).cells = (sub s d i).cells ∧
        (sub t d i).wrq.map (fun x => (x.loc, x.home, x.line, x.poison)) = (sub s d i).wrq.map (fun x => (x.loc, x.home, x.line, x.poison)) ++
          (List.range 4).map (fun l => (4 * ((sub s d i).initW - 1) + l, homeOf s d i (4 * ((sub s d i).initW - 1) + l), 0, false)))) ∧
  (∀ (d : Die) (i : Nat) (r : Req) (rest : List Req) (s : State),
      (chan s d (i / 2)).frozen = none →
      s.dev.mode ≠ .hold →
      (sub s d i).demandHeld = r :: rest →
      uninit (sub s d i) r.loc = false →
      writeRoom s d r = true →
      exec (.demandWriteRelease d i) s = .next (settle (enterWrite d r (onSub d i (fun b => { b with demandHeld := rest }) s)))) ∧
  (∀ (d : Die) (n dla : Nat) (r : MemReq) (s : State),
      (tme s d).starved = [r] →
      r.region = n →
      r.dla / 4096 = dla / 4096 →
      dla % 4096 = 0 →
      (tme s d).jobs = [] →
      (tme s d).stuck = [] →
      cachedEntry s d (pageKey s n dla) = true →
      (pageEnt s d (pageKey s n dla)).tier ≠ tT0 →
      frameHi s d n ≤ lowGap (tme s d).frames (frameLo s n) →
      exec (.promoteWaitExpire d n dla) s = .next (settle (wakeFull d (post d ⟨0x0602, sevUncorrected, locDie d, [it1 n, it6 dla], some dla, some (bindOf s (rgAttr s n))⟩
        (finishReq r none (onTme d (fun t => { t with starved := [] }) s)))))) ∧
  (∀ (d : Die) (kept lost : Nat) (s : State),
      s.Idle →
      (tme s d).rehome = some (kept, lost, []) →
      AnswersWith (exec (.rehomeDone d) s) (fun t => rf t F.TME_STATUS.REHOME d 0 = 0 ∧ rf t F.TME_STATUS.REHOME_DONE d 0 = 1 ∧
        ToldBy s t (fun r => r.code == 0x0605 && decide (r.details = packDetails [it4 kept, it4 lost])) ∧
        t.quiet = (onTme d (fun x => { x with rehome := none }) s).quiet))

/-- Chapter 6, TME descriptors (R162, Tables 6.3 and 6.5): QUERY_PAGE returns the tier, MOVING, PIN, the effective heat and the placement epoch of a page's entry, and its size code or node, reading its map line first where the map cache does not hold it; PIN = 0 of a
page clears PIN and counts the page as done; MIGRATE of a page that is in the target tier already counts it as done; MIGRATE of an unpinned page to ZERO takes a move slot for it. A descriptor of a region that is not decoded fails with BAD_FIELD. -/
def Obligations.TieringDescriptorsReportPages : Prop :=
  (∀ (d : Die) (e : Desc) (p : PageEnt) (s : State),
      s.Runs d e 0x51 →
      tmeCheck d e (e.zero 16 48) 1 s = (0, s) →
      cachedEntry s (atHome (rgAttr s (e.arg % 64))) (pageKey s (e.arg % 64) (e.num 8 8)) = true →
      pageEnt s (atHome (rgAttr s (e.arg % 64))) (pageKey s (e.arg % 64) (e.num 8 8)) = p →
      AnswersWith (exec (.queryPage d e.sq e.seq) s) (fun t => Completed s t d e 0
        (min p.tier tLost + 8 * b2n p.moving + 16 * b2n p.pin + 256 * effHeat p (heatEpoch s (atHome (rgAttr s (e.arg % 64)))) + 65536 * p.epoch)
        (if p.tier = tT1 then p.cls else if p.tier = tT2 then p.node else 0) ∧ butRings d t = butRings d s)) ∧
  (∀ (d : Die) (e : Desc) (p : PageEnt) (s : State),
      s.Runs d e 0x52 →
      e.phase = 0 →
      tmeCheck d e (e.zero 21 43 && decide (e.num 20 1 < 2)) (e.num 16 4) s = (0, s) →
      e.num 16 4 = 1 →
      cachedEntry s (atHome (rgAttr s (e.arg % 64))) (pageKey s (e.arg % 64) (e.num 8 8)) = true →
      e.num 20 1 = 0 →
      e.num 8 8 % 4096 = 0 →
      movable s (atHome (rgAttr s (e.arg % 64))) (pageKey s (e.arg % 64) (e.num 8 8)) = true →
      nget (tme s (atHome (rgAttr s (e.arg % 64)))).jobs (s.seq + 1) = none →
      jobMoves s (atHome (rgAttr s (e.arg % 64))) (s.seq + 1) = 0 →
      pageEnt s (atHome (rgAttr s (e.arg % 64))) (pageKey s (e.arg % 64) (e.num 8 8)) = p →
      AnswersWith (exec (.pin d e.sq e.seq) s) (fun t => Completed s t d e 0 1 0 ∧ pageEnt t (atHome (rgAttr s (e.arg % 64))) (pageKey s (e.arg % 64) (e.num 8 8)) = { p with pin := false } ∧
        (tme t (atHome (rgAttr s (e.arg % 64)))).moves = (tme s (atHome (rgAttr s (e.arg % 64)))).moves ∧ t.out = s.out)) ∧
  (∀ (d : Die) (e : Desc) (s : State),
      s.Runs d e 0x50 →
      e.phase = 0 →
      tmeCheck d e (e.zero 21 43 && decide (e.num 20 1 < 4)) (e.num 16 4) s = (0, s) →
      e.num 16 4 = 1 →
      cachedEntry s (atHome (rgAttr s (e.arg % 64))) (pageKey s (e.arg % 64) (e.num 8 8)) = true →
      e.num 20 1 < 3 →
      e.num 8 8 % 4096 = 0 →
      movable s (atHome (rgAttr s (e.arg % 64))) (pageKey s (e.arg % 64) (e.num 8 8)) = true →
      nget (tme s (atHome (rgAttr s (e.arg % 64)))).jobs (s.seq + 1) = none →
      jobMoves s (atHome (rgAttr s (e.arg % 64))) (s.seq + 1) = 0 →
      (pageEnt s (atHome (rgAttr s (e.arg % 64))) (pageKey s (e.arg % 64) (e.num 8 8))).tier = e.num 20 1 + 1 →
      AnswersWith (exec (.migrate d e.sq e.seq) s) (fun t => Completed s t d e 0 1 0 ∧ (tme t (atHome (rgAttr s (e.arg % 64)))).pages = (tme s (atHome (rgAttr s (e.arg % 64)))).pages ∧
        (tme t (atHome (rgAttr s (e.arg % 64)))).moves = (tme s (atHome (rgAttr s (e.arg % 64)))).moves ∧ t.out = s.out)) ∧
  (∀ (d : Die) (e : Desc) (p : PageEnt) (k : Nat) (s : State),
      s.Runs d e 0x50 →
      e.phase = 0 →
      tmeCheck d e (e.zero 21 43 && decide (e.num 20 1 < 4)) (e.num 16 4) s = (0, s) →
      e.num 16 4 = 1 →
      cachedEntry s (atHome (rgAttr s (e.arg % 64))) (pageKey s (e.arg % 64) (e.num 8 8)) = true →
      e.num 20 1 = 3 →
      e.num 8 8 % 4096 = 0 →
      movable s (atHome (rgAttr s (e.arg % 64))) (pageKey s (e.arg % 64) (e.num 8 8)) = true →
      nget (tme s (atHome (rgAttr s (e.arg % 64)))).jobs (s.seq + 1) = none →
      freeSlot s (atHome (rgAttr s (e.arg % 64))) = some k →
      pageEnt s (atHome (rgAttr s (e.arg % 64))) (pageKey s (e.arg % 64) (e.num 8 8)) = p →
      p.tier = tT1 →
      p.pin = false →
      AnswersWith (exec (.migrate d e.sq e.seq) s) (fun t => nget (tme t (atHome (rgAttr s (e.arg % 64)))).moves k = some ⟨s.seq + 2, .value, true, [], e.arg % 64, pageKey s (e.arg % 64) (e.num 8 8), e.num 8 8,
          valueEntry p tZero 0, p, false, true, false, [], .job (s.seq + 1)⟩ ∧
        (pageEnt t (atHome (rgAttr s (e.arg % 64))) (pageKey s (e.arg % 64) (e.num 8 8))).moving = true ∧ (nget (tme t (atHome (rgAttr s (e.arg % 64)))).jobs (s.seq + 1)).isSome = true ∧
        (startedDesc t d e.sq e.seq).isSome = true ∧ t.out = s.out)) ∧
  (∀ (d : Die) (e : Desc) (s : State),
      s.Runs d e 0x51 →
      tmeCheck d e (e.zero 16 48) 1 s = (0, s) →
      cachedEntry s (atHome (rgAttr s (e.arg % 64))) (pageKey s (e.arg % 64) (e.num 8 8)) = false →
      wayFree s (atHome (rgAttr s (e.arg % 64))) (pageKey s (e.arg % 64) (e.num 8 8)) = true →
      s.ops.all (fun p => p.2.job != .map (atHome (rgAttr s (e.arg % 64))) (pageKey s (e.arg % 64) (e.num 8 8))) = true →
      (placeOf s (mapHome s (atHome (rgAttr s (e.arg % 64))) (pageKey s (e.arg % 64) (e.num 8 8)))).isSome = true →
      AnswersWith (exec (.queryPage d e.sq e.seq) s) (fun t => (nget t.ops (s.seq + 1)).any (fun o => o.job == .map (atHome (rgAttr s (e.arg % 64))) (pageKey s (e.arg % 64) (e.num 8 8)) && o.after == [.query d e.sq e.seq]) = true ∧
        (startedDesc t d e.sq e.seq).isSome = true ∧ t.out = s.out)) ∧
  (∀ (d : Die) (e : Desc) (s : State),
      s.Runs d e 0x51 →
      rgLive s (e.arg % 64) = false →
      AnswersWith (exec (.queryPage d e.sq e.seq) s) (fun t => Completed s t d e 3 0 0 ∧ butRings d t = butRings d s))

/-- Chapter 8, Key slots and Key rotation (R183, R185, R201): an EMPTY slot gets two keys of the senior die's DRBG and its binding and becomes ACTIVE; a rotation keeps the old keys as the previous ones
until its walk has no block left, and counts the key epoch; an ACTIVE slot that no enabled region names is emptied; a binding is replaced; a query tells state, binding and epoch. No other slot changes. That GENERATE starts the epoch at 0 is the model's reading (DEDUCED, log entry 26). -/
def Obligations.KeySlotsAreGeneratedBoundRotatedAndDestroyed : Prop :=
  (∀ (d : Die) (e : Desc) (k : Nat) (s : State),
      s.Runs d e 0x60 →
      keyFieldsOk e true = true →
      e.num 8 1 = k →
      (slotOf s k).st = .empty →
      noEntropy s = false →
      AnswersWith (exec (.keyGenerate d e.sq e.seq) s) (fun t => Completed s t d e 0 0 0 ∧
        slotOf t k = ⟨.active, fld (e.num 12 4) 0 3, fld (e.num 12 4) 16 16, 0, (newKeys s).1, (newKeys s).2.1, 0, 0, 0, 0⟩ ∧
        (∀ j, j ≠ k → slotOf t j = slotOf s j) ∧ (die t (seniorDie s)).drbg = (die (newKeys s).2.2 (seniorDie s)).drbg ∧ t.metaKey = s.metaKey ∧ t.dev = s.dev)) ∧
  (∀ (d : Die) (e : Desc) (k : Nat) (s : State),
      s.Runs d e 0x61 →
      keyFieldsOk e false = true →
      e.num 8 1 = k →
      (slotOf s k).st = .active →
      (slotOf s k).epoch < 65535 →
      (s.slots.filter (fun p => p.2.st == .rotating)).length < 4 →
      noEntropy s = false →
      slotRegions s k = [] →
      AnswersWith (exec (.keyRotate d e.sq e.seq) s) (fun t => Completed s t d e 0 0 0 ∧
        slotOf t k = { slotOf s k with st := .active, epoch := (slotOf s k).epoch + 1, xts := (newKeys s).1, mac := (newKeys s).2.1, pxts := 0, pmac := 0, curRegion := 0, curBlock := 0 } ∧
        (∀ j, j ≠ k → slotOf t j = slotOf s j) ∧ t.metaKey = s.metaKey ∧ t.dev = s.dev)) ∧
  (∀ (d : Die) (e : Desc) (k : Nat) (s : State),
      s.Runs d e 0x61 →
      keyFieldsOk e false = true →
      e.num 8 1 = k →
      (slotOf s k).st = .active →
      (slotOf s k).epoch < 65535 →
      (s.slots.filter (fun p => p.2.st == .rotating)).length < 4 →
      noEntropy s = false →
      (rotNext s k 0 0).isSome = true →
      AnswersWith (exec (.keyRotate d e.sq e.seq) s) (fun t => Completed s t d e 0 0 0 ∧
        slotOf t k = { slotOf s k with st := .rotating, epoch := (slotOf s k).epoch + 1, xts := (newKeys s).1, mac := (newKeys s).2.1, pxts := (slotOf s k).xts, pmac := (slotOf s k).mac, curRegion := ((rotNext s k 0 0).getD (0, 0)).1, curBlock := ((rotNext s k 0 0).getD (0, 0)).2 } ∧
        (∀ j, j ≠ k → slotOf t j = slotOf s j) ∧ t.metaKey = s.metaKey ∧ t.dev = s.dev)) ∧
  (∀ (d : Die) (e : Desc) (k : Nat) (s : State),
      s.Runs d e 0x62 →
      keyFieldsOk e false = true →
      e.num 8 1 = k →
      (slotOf s k).st = .active →
      slotRegions s k = [] →
      nwf s.slots = true →
      AnswersWith (exec (.keyDestroy d e.sq e.seq) s) (fun t => Completed s t d e 0 0 0 ∧ slotOf t k = SlotSt.reset ∧ (∀ j, j ≠ k → slotOf t j = slotOf s j) ∧ t.metaKey = s.metaKey ∧ t.dev = s.dev)) ∧
  (∀ (d : Die) (e : Desc) (k : Nat) (s : State),
      s.Runs d e 0x63 →
      keyFieldsOk e true = true →
      e.num 8 1 = k →
      (slotOf s k).st ≠ .empty →
      AnswersWith (exec (.keyBind d e.sq e.seq) s) (fun t => Completed s t d e 0 0 0 ∧ slotOf t k = { slotOf s k with bind := fld (e.num 12 4) 0 3, domain := fld (e.num 12 4) 16 16 } ∧
        (∀ j, j ≠ k → slotOf t j = slotOf s j) ∧ butRings d t = butRings d { s with slots := t.slots })) ∧
  (∀ (d : Die) (e : Desc) (s : State),
      s.Runs d e 0x64 →
      keyFieldsOk e false = true →
      AnswersWith (exec (.keyQuery d e.sq e.seq) s) (fun t => Completed s t d e 0 (slotInfo s (e.num 8 1)) (slotDom s (e.num 8 1) + 2 ^ 32 * slotRot s (e.num 8 1)) ∧ butRings d t = butRings d s)) ∧
  (∀ (d : Die) (e : Desc) (s : State),
      s.Runs d e 0x60 →
      keyFieldsOk e true = true →
      (slotOf s (e.num 8 1)).st ≠ .empty →
      AnswersWith (exec (.keyGenerate d e.sq e.seq) s) (fun t => Completed s t d e 0x40 0 0 ∧ butRings d t = butRings d s))

/-- Chapter 8, Key rotation (R202): a rotation whose walk has no block left makes the slot ACTIVE, drops the previous keys and posts 0x0804; it reads its next block on each of the region's dies, and once the lines have come and no older read of the
block is on its way it writes them back and moves past. The key hierarchy (R181): a DRBG that has answered 2^20 requests is reseeded, and one whose source failed a health test stops and is reported. SEC_POLICY (R208): LOCKDOWN is set by a write that is accepted.
That the rotation's reads are the CIE's under tag TME, past the directory, is the model's reading (DEDUCED, log entry 125). -/
def Obligations.RotationAndEntropyAreKept : Prop :=
  (∀ (k : Nat) (s : State),
      s.Idle →
      (slotOf s k).st = .rotating →
      serving s = true →
      resting s = false →
      nget s.rots k = none →
      rotNext s k (slotOf s k).curRegion (slotOf s k).curBlock = none →
      exec (.rotationBlock k) s = .next (post (seniorDie s) ⟨0x0804, sevInfo, locDie (seniorDie s), [it1 k, it1 (slotOf s k).epoch], none, none⟩
        (onSlot k (fun x => { x with st := .active, pxts := 0, pmac := 0, curRegion := 0, curBlock := 0 }) s))) ∧
  (∀ (k n b : Nat) (s : State),
      (slotOf s k).st = .rotating →
      serving s = true →
      resting s = false →
      nget s.rots k = none →
      rotNext s k (slotOf s k).curRegion (slotOf s k).curBlock = some (n, b) →
      atTiered (rgAttr s n) = false →
      (rgDies (rgAttr s n)).all (fun d => belowBad s d n (flatDla s n (4 * b)) || (metaNext s d n (rgAttr s n) (4 * b)).isNone) = true →
      exec (.rotationBlock k) s = .next (settle (each (rgDies (rgAttr s n)) (rotRead k ⟨s.seq + 1, n, b, rgDies (rgAttr s n), [], false, []⟩)
        (onSlot k (fun y => { y with curRegion := n, curBlock := b }) { s with seq := s.seq + 1, rots := nset s.rots k ⟨s.seq + 1, n, b, rgDies (rgAttr s n), [], false, []⟩ })))) ∧
  (∀ (k : Nat) (r : RotSt) (s : State),
      (slotOf s k).st = .rotating →
      serving s = true →
      resting s = false →
      nget s.rots k = some r →
      r.need = [] →
      r.stale = false →
      (rgDies (rgAttr s r.region)).all (fun d => blockQuiet s d (blockHome s d r.region r.block)) = true →
      exec (.rotationBlock k) s = .next (settle (rotTo k r.region (r.block + 1) (rotLeave k (each (rgDies (rgAttr s r.region)) (fun d t => rotWrite d r
        (onSlot k (fun y => { y with curRegion := r.region, curBlock := r.block + 1 })) (onSlot k (fun y => { y with curRegion := r.region, curBlock := r.block }) t)) s))))) ∧
  (∀ (d : Die) (s : State),
      (die s d).drbgStopped = false →
      2 ^ 20 ≤ (die s d).drbgUsed →
      exec (.drbgReseed d) s = .next (onDie d (fun x => { x with drbg := drbgMix (entropyBytes s d) x.drbg, drbgSeeds := x.drbgSeeds + 1, drbgUsed := 0 }) s)) ∧
  (∀ (d : Die) (test : Nat) (s : State),
      diePresent s d = true →
      (die s d).drbgStopped = false →
      AnswersWith (exec (.entropyFail d test) s) (fun t => (die t d).drbgStopped = true ∧ rfc t F.SEC_STATUS.ENTROPY_FAIL = 1 ∧
        t.quiet = (onDie d (fun x => { x with drbgStopped := true }) s).quiet ∧ ToldBy s t (fun r => r.code == 0x0806 && decide (r.details = packDetails [it1 (dieNum d), it1 test])))) ∧
  (∀ (sess : Option Nat) (s : State),
      verdict s .SEC .east (sessOwner s sess) = .take →
      exec (.lockdown sess) s = .next (wfc F.SEC_POLICY.LOCKDOWN 1 0 s))

/-- Chapter 8, Sanitize (R211, R212, R213) and the debug token (R210): with no region enabled and nothing in flight SANITIZE destroys the slot keys and draws a new metadata key at once; without OVERWRITE it then ends; with it every watermark goes to Qtop and
the device stays in SANITIZE until the fill is done; a debug token that verifies starts one with OVERWRITE and PURGE_SECRETS. -/
def Obligations.SanitizeDestroysTheKeys : Prop :=
  (∀ (d : Die) (e : Desc) (s : State),
      s.Runs d e 0x65 →
      e.phase = 0 →
      saniStatus e s = 0 →
      e.num 8 1 = 0 →
      boundRegions s = [] →
      s.ops = [] →
      noEntropy s = false →
      (cdr s .east).dir = [] →
      (cdr s .west).dir = [] →
      (diesPresent s).any (keyUnderWay s) = false →
      AnswersWith (exec (.sanitize d e.sq e.seq) s) (fun t => t.slots = [] ∧ t.metaKey = some ((newKeys s).1, (newKeys s).2.1) ∧ t.sani = none ∧ t.east.lmeta = [] ∧ t.east.badNodes = [] ∧ t.east.ctrs = [] ∧ t.east.nodes = [] ∧
        Completed s t d e 0 0 (subsWith s (fun x => x == .retired)) ∧ t.dev.mode = (if s.dev.mode = .thrift then .thrift else serveMode s) ∧
        rfc t F.SEC_STATUS.SANITIZING = 0 ∧ t.dev.flash = s.dev.flash ∧ (∀ i, (sub t .east i).cells = (sub s .east i).cells))) ∧
  (∀ (d : Die) (e : Desc) (s : State),
      s.Runs d e 0x65 →
      e.phase = 0 →
      saniStatus e s = 0 →
      e.num 8 1 = 1 →
      boundRegions s = [] →
      s.ops = [] →
      noEntropy s = false →
      (cdr s .east).dir = [] →
      (cdr s .west).dir = [] →
      (diesPresent s).any (keyUnderWay s) = false →
      AnswersWith (exec (.sanitize d e.sq e.seq) s) (fun t => t.slots = [] ∧ t.metaKey = some ((newKeys s).1, (newKeys s).2.1) ∧ t.dev.mode = .sanitize ∧ t.dev.left = s.dev.mode ∧
        rfc t F.SEC_STATUS.SANITIZING = 1 ∧ (startedDesc t d e.sq e.seq).isSome = true ∧ t.dev.flash = s.dev.flash ∧
        (∀ i, i < 12 → (sub s .east i).st ≠ .retired → (sub t .east i).initW = qTop s .east ∧ (sub t .east i).cells = [] ∧ (sub t .east i).demand = []) ∧
        (∀ i, i < 12 → (sub s .east i).st = .retired → (sub t .east i) = sub s .east i))) ∧
  (∀ (p : Die) (tag : Nat) (z : SaniSt) (s : State),
      s.todo = [] →
      s.east.sru.salvage = none →
      s.west.sru.salvage = none →
      s.sani = some z →
      z.desc = none →
      z.session = some (p, tag) →
      z.destroyed = true →
      z.overwrite = true →
      z.debug = false →
      s.dev.mode = .sanitize →
      saniFilled s = true →
      AnswersWith (exec .sanitizeDone s) (fun t => t.sani = none ∧ t.dev.mode = (if s.dev.left = .thrift then .thrift else serveMode s) ∧ rfc t F.SEC_STATUS.SANITIZING = 0 ∧
        t.out.getLast? = some (.spdm p 0x7E 0 0 (respBytes tag (if z.entropy then 0x42 else 0) (subsWith s (fun x => x != .retired)) (subsWith s (fun x => x == .retired)))) ∧
        t.slots = s.slots ∧ t.metaKey = s.metaKey)) ∧
  (∀ (p : Die) (n : Nat) (x : SpdmSess) (s : State),
      mboxOpen s p = true →
      3 ≤ s.spdm.stage →
      nget s.spdm.sessions n = some x →
      x.open_ = true →
      serving s = true →
      s.dev.trans = none →
      exec (.debugToken p n true) s = .next (settle (saniEnter ⟨none, some (p, 0), true, true, true, false, false⟩ s))) ∧
  (∀ (p : Die) (n : Nat) (x : SpdmSess) (s : State),
      s.Idle →
      mboxOpen s p = true →
      3 ≤ s.spdm.stage →
      nget s.spdm.sessions n = some x →
      x.open_ = true →
      exec (.debugToken p n false) s = .next (send (.spdm p 0x7F 1 0 []) s))

/-- Chapter 8, Links (R204, R205, R206), and chapter 11 (R265): the keys of a port's IDE stream make IDE_SECURE 1 where the partner offers IDE; a CAK goes into use and, sealed, to the flash's secrets; MKA with a CAK installed gives an enabled port whose link is up its next SAK, with no
frame sent under it; a rekey replaces the SAK of a secure port. The form of the answer is the model's (PRESUMED, log entry 29). -/
def Obligations.LinksAreSecuredBySessionsAndMka : Prop :=
  (∀ (p : Die) (n : Nat) (x : SpdmSess) (k : Key) (s : State),
      mboxOpen s p = true →
      3 ≤ s.spdm.stage →
      nget s.spdm.sessions n = some x →
      x.open_ = true →
      exec (.ideKmKeyProg p n k true) s = .next (send (.spdm p 0x7E 0 0 [0]) (wf F.HPC_LINK_STATUS.IDE_SECURE p 0 1 (onHpc p (fun h => { h with ide := some k }) s)))) ∧
  (∀ (p : Die) (n : Nat) (x : SpdmSess) (k : Key) (s : State),
      mboxOpen s p = true →
      3 ≤ s.spdm.stage →
      nget s.spdm.sessions n = some x →
      x.open_ = true →
      exec (.ideKmKeyProg p n k false) s = .next (send (.spdm p 0x7E 0 0 [0]) s)) ∧
  (∀ (p : Die) (n : Nat) (x : SpdmSess) (k : Key) (s : State),
      mboxOpen s p = true →
      3 ≤ s.spdm.stage →
      nget s.spdm.sessions n = some x →
      x.open_ = true →
      AnswersWith (exec (.cakInstall p n k) s) (fun t => t.msx = { s.msx with cak := some k } ∧ t.dev.flash.cak = s.msx.sealing.map (fun w => sealKey w k) ∧ t.dev.flash.certs = s.dev.flash.certs ∧
        t.dev.flash.jobs = s.dev.flash.jobs ++ [.secrets (s.msx.sealing.map (fun w => sealKey w k)) s.dev.flash.certs] ∧ rfc t F.CFG_STATUS.UPDATING = 1 ∧
        t.out = s.out ++ [.spdm p 0x7E 0 0 [0]] ∧ t.slots = s.slots ∧ t.spdm = s.spdm ∧ t.east = s.east ∧ t.west = s.west)) ∧
  (∀ (d : Die) (node : Nat) (s : State),
      fabPresent s d = true →
      rfb s F.FPC_PORT_CFG.EN d 0 = true →
      rfb s F.FPC_LINK_STATUS.UP d 0 = true →
      s.msx.cak ≠ none →
      exec (.mkaFrame d node true) s = .next (setFlag F.FPC_LINK_STATUS.SECURE d 0 (nextSak d
        (onFpc d (fun x => { x with channels := if x.channels.contains node then x.channels else x.channels ++ [node] }) s)))) ∧
  (∀ (d : Die) (s : State),
      rfb s F.FPC_LINK_STATUS.SECURE d 0 = true →
      exec (.sakRekey d) s = .next (setFlag F.FPC_LINK_STATUS.SECURE d 0 (nextSak d s)))

/-- Chapter 8, Attestation and authenticated setup (R207, Table 8.6): negotiation begins anew with GET_VERSION and goes through capabilities and algorithms; then digests, chains, challenges, measurements and the CSR are answered. Codes and bodies of the messages are the model's (PRESUMED, log entry
29), and what a signature is is left open (Config.spdmCrypto); a digest is SHA-384. -/
def Obligations.SpdmNegotiatesAndAttests : Prop :=
  (∀ (p : Die) (s : State),
      mboxOpen s p = true →
      exec (.spdmGetVersion p) s = .next (spdmSend p 0x04 0 0 [0, 1, 0x00, 0x13] (onSpdm (fun x => { x with stage := 1, transcript := [], chunkIn := none, chunkOut := none }) s))) ∧
  (∀ (p : Die) (limit : Nat) (s : State),
      mboxOpen s p = true →
      1 ≤ s.spdm.stage →
      exec (.spdmGetCapabilities p limit) s = .next (spdmSend p 0x61 0 0 (leBytes 16 (Config.cxlConst 32).toNat) (hear [limit] (onSpdm (fun x => { x with stage := 2, limit := max 42 limit }) s)))) ∧
  (∀ (p : Die) (asym hash dhe aead : Nat) (s : State),
      mboxOpen s p = true →
      2 ≤ s.spdm.stage →
      12 < s.spdm.limit →
      AnswersWith (exec (.spdmNegotiateAlgorithms p asym hash dhe aead) s) (fun t => t.spdm.stage = 3 ∧ t.spdm.sessions = s.spdm.sessions ∧ { t with spdm := s.spdm, out := s.out } = s ∧
        t.out = s.out ++ [if s.spdm.limit < 14 then .spdm p 0x7F 0x0F 0 [1] else .spdm p 0x63 0 0 (leBytes 4 (asym &&& 0x80) ++ leBytes 4 (hash &&& 0x02) ++ leBytes 2 (dhe &&& 0x10) ++ leBytes 2 (aead &&& 0x02) ++ leBytes 2 1)])) ∧
  (∀ (p : Die) (s : State),
      mboxOpen s p = true →
      3 ≤ s.spdm.stage →
      exec (.spdmGetDigests p) s = .next (spdmSend p 0x01 0 ((certSlots s).foldl (fun v k => v + 2 ^ k) 0)
        ((certSlots s).flatMap (fun k => digest ((certChain s k).getD []))) s)) ∧
  (∀ (p : Die) (slot off len : Nat) (c : List Byte) (s : State),
      mboxOpen s p = true →
      3 ≤ s.spdm.stage →
      certChain s slot = some c →
      exec (.spdmGetCertificate p slot off len) s = .next (spdmSend p 0x02 slot 0 (leBytes 2 ((c.drop off).take len).length ++
        leBytes 2 (c.length - off - ((c.drop off).take len).length) ++ (c.drop off).take len) (hear [slot, off, len] s))) ∧
  (∀ (p : Die) (slot nonce : Nat) (s : State),
      mboxOpen s p = true →
      3 ≤ s.spdm.stage →
      (certChain s slot).isSome = true →
      exec (.spdmChallenge p slot nonce) s = .next (spdmSend p 0x03 slot 0 (padTo 96 (crypto 1 (hear [slot, nonce] s))) (hear [slot, nonce] s))) ∧
  (∀ (p : Die) (i : Nat) (s : State),
      mboxOpen s p = true →
      3 ≤ s.spdm.stage →
      1 ≤ i →
      i ≤ 6 →
      exec (.spdmGetMeasurements p i false) s = .next (spdmSend p 0x60 0 0 (leBytes 1 1 ++ leBytes 3 55 ++ (leBytes 1 i ++ [1] ++ leBytes 2 51 ++ leBytes 1 (i - 1) ++ leBytes 2 48 ++
        digest (measured s i))) (hear [i, 0] s))) ∧
  (∀ (p : Die) (s : State),
      mboxOpen s p = true →
      3 ≤ s.spdm.stage →
      exec (.spdmGetCsr p) s = .next (spdmSend p 0x6D 0 0 (crypto 5 s) s))

/-- Chapter 8, Attestation and authenticated setup (R207, R208): KEY_EXCHANGE begins a session, FINISH whose signature verifies opens it, an owner's where the requester's chain ends in an owner root of slots 2 to 7; open, it answers heartbeats, updates its keys, installs owner chains in slots 2 to 7, and carries the
descriptors of Table 8.3; it ends with END_SESSION. The message codes are the model's (PRESUMED, log entry 29). -/
def Obligations.SpdmSessionsOpenServeAndEnd : Prop :=
  (∀ (p : Die) (n slot : Nat) (s : State),
      mboxOpen s p = true →
      3 ≤ s.spdm.stage →
      (certChain s slot).isSome = true →
      nget s.spdm.sessions n = none →
      AnswersWith (exec (.spdmKeyExchange p n slot) s) (fun t => nget t.spdm.sessions n = some ⟨false, false, 0⟩ ∧ (∀ m, m ≠ n → nget t.spdm.sessions m = nget s.spdm.sessions m) ∧
        { t with spdm := s.spdm, out := s.out } = s ∧ t.out.length = s.out.length + 1)) ∧
  (∀ (p : Die) (n : Nat) (root : Option Nat) (x : SpdmSess) (s : State),
      mboxOpen s p = true →
      3 ≤ s.spdm.stage →
      nget s.spdm.sessions n = some x →
      x.open_ = false →
      exec (.spdmFinish p n true root) s = .next (spdmSend p 0x65 0 0 [] (onSpdm (fun y => { y with sessions := nset y.sessions n ⟨true, (match root with | some k => decide (2 ≤ k) && (certSlots s).contains k | none => false), 0⟩ }) s))) ∧
  (∀ (p : Die) (n : Nat) (root : Option Nat) (x : SpdmSess) (s : State),
      mboxOpen s p = true →
      3 ≤ s.spdm.stage →
      nget s.spdm.sessions n = some x →
      x.open_ = false →
      exec (.spdmFinish p n false root) s = .next (send (.spdm p 0x7F 1 0 []) (onSpdm (fun y => { y with sessions := nerase y.sessions n }) s))) ∧
  (∀ (p : Die) (n : Nat) (x : SpdmSess) (s : State),
      mboxOpen s p = true →
      3 ≤ s.spdm.stage →
      nget s.spdm.sessions n = some x →
      x.open_ = true →
      exec (.spdmHeartbeat p n) s = .next (send (.spdm p 0x68 0 0 []) (hear [0x68, 0, 0, 0] s))) ∧
  (∀ (p : Die) (n op tag : Nat) (x : SpdmSess) (s : State),
      mboxOpen s p = true →
      3 ≤ s.spdm.stage →
      nget s.spdm.sessions n = some x →
      x.open_ = true →
      exec (.spdmKeyUpdate p n op tag) s = .next (send (.spdm p 0x69 op tag []) (hear [0x69, op, tag, 0]
        (onSpdm (fun y => { y with sessions := nset y.sessions n { x with updates := x.updates + 1 } }) s)))) ∧
  (∀ (p : Die) (n : Nat) (x : SpdmSess) (s : State),
      mboxOpen s p = true →
      3 ≤ s.spdm.stage →
      nget s.spdm.sessions n = some x →
      x.open_ = true →
      exec (.spdmEndSession p n) s = .next (send (.spdm p 0x6C 0 0 []) (hear [0x6C, 0, 0, 0] (onSpdm (fun y => { y with sessions := nerase y.sessions n }) s)))) ∧
  (∀ (p : Die) (n slot : Nat) (c : List Byte) (x : SpdmSess) (s : State),
      mboxOpen s p = true →
      3 ≤ s.spdm.stage →
      nget s.spdm.sessions n = some x →
      x.open_ = true →
      2 ≤ slot →
      slot ≤ 7 →
      exec (.spdmSetCertificate p n slot c) s = .next (send (.spdm p 0x6E slot 0 []) (hear [0x6E, slot, 0, 0]
        (writeSecrets s.dev.flash.cak (nset s.dev.flash.certs slot c) s)))) ∧
  (∀ (p : Die) (n slot : Nat) (c : List Byte) (x : SpdmSess) (s : State),
      mboxOpen s p = true →
      3 ≤ s.spdm.stage →
      nget s.spdm.sessions n = some x →
      x.open_ = true →
      slot < 2 ∨ 7 < slot →
      exec (.spdmSetCertificate p n slot c) s = .next (send (.spdm p 0x7F 1 0 []) s)) ∧
  (∀ (p : Die) (h : Nat) (bs : List Byte) (s : State),
      mboxOpen s p = true →
      2 ≤ s.spdm.stage →
      2 ≤ s.spdm.limit →
      AnswersWith (exec (.spdmChunkSend p h 0 false bs) s) (fun t => t.spdm.chunkIn = some (h, 0, bs) ∧ t.out = s.out ++ [.spdm p 0x05 0 h [0, 0]] ∧ { t with spdm := s.spdm, out := s.out } = s)) ∧
  (∀ (p : Die) (h : Nat) (bs : List Byte) (s : State),
      mboxOpen s p = true →
      2 ≤ s.spdm.stage →
      exec (.spdmChunkSend p h 0 true bs) s = .next (spdmLarge p bs (spdmSend p 0x05 1 h (leBytes 2 0) (onSpdm (fun x => { x with chunkIn := none }) s)))) ∧
  (∀ (p : Die) (h k : Nat) (bs : List Byte) (s : State),
      mboxOpen s p = true →
      2 ≤ s.spdm.stage →
      s.spdm.chunkOut = some (h, k, bs) →
      s.spdm.limit < bs.length →
      exec (.spdmChunkGet p h k) s = .next (send (.spdm p 0x06 0 h (leBytes 2 k ++ bs.take s.spdm.limit)) (onSpdm (fun x => { x with chunkOut := some (h, k + 1, bs.drop s.spdm.limit) }) s))) ∧
  (∀ (p : Die) (n : Nat) (b : Line) (x : SpdmSess) (s : State),
      s.Idle →
      mboxOpen s p = true →
      3 ≤ s.spdm.stage →
      nget s.spdm.sessions n = some x →
      x.open_ = true →
      (Desc.mk 0 0 b 0 0 [] [] []).op = 0x64 →
      sessionCheck s x ⟨0, 0, b, 0, 0, [], [], []⟩ = 0 →
      keyFieldsOk ⟨0, 0, b, 0, 0, [], [], []⟩ false = true →
      exec (.vendorDefinedRequest p n b) s = .next (send (.spdm p 0x7E 0 0 (respBytes (lineNum b 2 2) 0 (slotInfo s (lineNum b 8 1)) (slotDom s (lineNum b 8 1) + 2 ^ 32 * slotRot s (lineNum b 8 1)))) s))

/-- Chapter 1 (R19, R23, R26) and chapter 8 (R185): a read of a flat region with no integrity, bound to its descriptor, opens an operation and enters the MX-in crossing of its line's channel; a whole-line write enters it
encrypted by the region's key and encoded for its home. A read that no decoder covers is answered with poison, a write of an OWNER = LKE region is discarded, and an invalidate of a region that is not COHERENT is answered. -/
def Obligations.HostRequestsReachTheirLine : Prop :=
  (∀ (p : Die) (tag hpa k n i loc : Nat) (m : MetaValue) (y : SnpType) (x : HdmDec) (s : State),
      s.HostBinds p hpa k x n →
      atCoherent (rgAttr s n) = false →
      atTiered (rgAttr s n) = false →
      atMirror (rgAttr s n) = false →
      atInteg (rgAttr s n) = 0 →
      placeOf s (flatHome s n (atHome (rgAttr s n)) (x.toDla hpa / 64 * 64)) = some (atHome (rgAttr s n), i, loc) →
      aboveTop s (flatHome s n (atHome (rgAttr s n)) (x.toDla hpa / 64 * 64)) = false →
      coreBypass s (atHome (rgAttr s n)) = false →
      AnswersWith (exec (.hostMemRead p tag hpa m y false) s) (fun t => nget t.ops (s.seq + 1) = some ⟨.host p tag, .read, hostPort p, n, rgAttr s n, (x.toDla hpa / 64 * 64), reqCmp (readKind m y), none, none, [0], [], [], []⟩ ∧
        (chan t (atHome (rgAttr s n)) (i / 2)).mxin = (chan s (atHome (rgAttr s n)) (i / 2)).mxin ++ [{ mkRead (hostPort p) i loc (flatHome s n (atHome (rgAttr s n)) (x.toDla hpa / 64 * 64)) (classOf s (atHome (rgAttr s n)) i (hostPort p) (rgAttr s n)) (hintOf (hostPort p) (rgAttr s n) true) n (x.toDla hpa / 64 * 64) (metaOf s (flatHome s n (atHome (rgAttr s n)) (x.toDla hpa / 64 * 64))) (.op (s.seq + 1) 0) with seq := s.seq + 2, enterNs := s.nowNs }] ∧
        t.east.subs = s.east.subs ∧ t.west.subs = s.west.subs)) ∧
  (∀ (p : Die) (tag hpa k n i loc : Nat) (data : Line) (poison : Bool) (m : MetaValue) (x : HdmDec) (s : State),
      s.HostBinds p hpa k x n →
      atCoherent (rgAttr s n) = false →
      atTiered (rgAttr s n) = false →
      atMirror (rgAttr s n) = false →
      atInteg (rgAttr s n) = 0 →
      placeOf s (flatHome s n (atHome (rgAttr s n)) (x.toDla hpa / 64 * 64)) = some (atHome (rgAttr s n), i, loc) →
      aboveTop s (flatHome s n (atHome (rgAttr s n)) (x.toDla hpa / 64 * 64)) = false →
      coreBypass s (atHome (rgAttr s n)) = false →
      atOwner (rgAttr s n) ≠ 1 →
      (chan s (atHome (rgAttr s n)) (i / 2)).inj = none →
      (chan s (atHome (rgAttr s n)) (i / 2)).frozen = none →
      (die s (atHome (rgAttr s n))).sru.evac = none →
      belowBad s (atHome (rgAttr s n)) n (x.toDla hpa / 64 * 64) = false →
      AnswersWith (exec (.hostMemWrite p tag hpa data poison (BitVec.allOnes 64) m false) s) (fun t =>
        nget t.ops (s.seq + 1) = some ⟨.host p tag, .write, hostPort p, n, rgAttr s n, (x.toDla hpa / 64 * 64), .plain, none, none, [0], [], [], []⟩ ∧
        (chan t (atHome (rgAttr s n)) (i / 2)).mxin = (chan s (atHome (rgAttr s n)) (i / 2)).mxin ++ [{ mkWrite (hostPort p) i loc (flatHome s n (atHome (rgAttr s n)) (x.toDla hpa / 64 * 64)) (classOf s (atHome (rgAttr s n)) i (hostPort p) (rgAttr s n)) (hintOf (hostPort p) (rgAttr s n) true) n (x.toDla hpa / 64 * 64) (sealLine s n (rgAttr s n) (flatHome s n (atHome (rgAttr s n)) (x.toDla hpa / 64 * 64)) data) poison (.opw (s.seq + 1) 0) with seq := s.seq + 2, enterNs := s.nowNs, enc := some (encodeLine (flatHome s n (atHome (rgAttr s n)) (x.toDla hpa / 64 * 64)) (sealLine s n (rgAttr s n) (flatHome s n (atHome (rgAttr s n)) (x.toDla hpa / 64 * 64)) data) poison none) }] ∧
        t.east.subs = s.east.subs ∧ t.west.subs = s.west.subs)) ∧
  (∀ (p : Die) (tag hpa k n : Nat) (x : HdmDec) (s : State),
      s.HostBinds p hpa k x n →
      atCoherent (rgAttr s n) = false →
      AnswersWith (exec (.hostMemInv p tag hpa false) s) (fun t => t.out.getLast? = some (.hostCpl p tag none .exclusive) ∧ t.ops = s.ops ∧ t.quiet = s.quiet)) ∧
  (∀ (p : Die) (tag hpa : Nat) (m : MetaValue) (y : SnpType) (s : State),
      s.Idle →
      portUp s p = true →
      diePresent s p = true →
      coreBypass s p = false →
      linkHeld s p = false →
      s.dev.mode ≠ .hold →
      hostBarred s p = false →
      hdmFind s p hpa = none →
      AnswersWith (exec (.hostMemRead p tag hpa m y false) s) (fun t => t.out.getLast? = some (.hostCpl p tag (some ⟨0, true⟩) (reqCmp (readKind m y))) ∧
        countOf t p .RRM 1 = satAdd 32 (countOf s p .RRM 1) 1 ∧ countOf t p .HPC 4 = satAdd 32 (countOf s p .HPC 4) 1 ∧ t.ops = s.ops ∧ t.quiet = s.quiet)) ∧
  (∀ (p : Die) (tag hpa k n : Nat) (data : Line) (poison : Bool) (mask : BitVec 64) (m : MetaValue) (x : HdmDec) (s : State),
      s.HostBinds p hpa k x n →
      atCoherent (rgAttr s n) = false →
      atOwner (rgAttr s n) = 1 →
      AnswersWith (exec (.hostMemWrite p tag hpa data poison mask m false) s) (fun t => t.out.getLast? = some (.hostCpl p tag none .plain) ∧ countOf t p .RRM 2 = satAdd 32 (countOf s p .RRM 2) 1 ∧ t.ops = s.ops ∧ t.quiet = s.quiet))

/-- Chapter 9 (R217, R221, R222, Tables 9.2 to 9.4): an invalidate of a line that no agent holds makes its agent the owner; a read of a line that another agent owns sends SnpData to the owner before anything else; an answer I of the last holder gives the line
to the requester and answers it; a sharer that never answers is dropped. R230: a conflict is acknowledged. -/
def Obligations.TheDirectoryTracksHoldersAndSnoops : Prop :=
  (∀ (p : Die) (tag hpa k n w : Nat) (x : HdmDec) (s : State),
      s.HostBinds p hpa k x n →
      atCoherent (rgAttr s n) = true →
      portDb s p = true →
      atTiered (rgAttr s n) = false →
      atMirror (rgAttr s n) = false →
      (cdr s (atHome (rgAttr s n))).retry = [] →
      (cdr s (atHome (rgAttr s n))).held = [] →
      (cdr s (atHome (rgAttr s n))).late = [] →
      (cdr s (atHome (rgAttr s n))).recalls = [] →
      dirFind s (atHome (rgAttr s n)) (flatHome s n (atHome (rgAttr s n)) (x.toDla hpa / 64 * 64)) = none →
      pinned s (atHome (rgAttr s n)) (dirSet (flatHome s n (atHome (rgAttr s n)) (x.toDla hpa / 64 * 64))) < pinMax s (atHome (rgAttr s n)) →
      freeWay s (atHome (rgAttr s n)) (dirSet (flatHome s n (atHome (rgAttr s n)) (x.toDla hpa / 64 * 64))) = some w →
      AnswersWith (exec (.hostMemInv p tag hpa false) s) (fun t => (dirFind t (atHome (rgAttr s n)) (flatHome s n (atHome (rgAttr s n)) (x.toDla hpa / 64 * 64))).any (fun q => q.2.x && q.2.owner == agentOf s p k && decide (q.2.sharers = []) && q.2.tr.isNone) = true ∧
        t.out.any (fun m => decide (m = .hostCpl p tag none .exclusive)) = true ∧ t.ops = s.ops ∧ t.east.subs = s.east.subs ∧ t.west.subs = s.west.subs)) ∧
  (∀ (p q : Die) (tag hpa k n w : Nat) (x : HdmDec) (e : DirEnt) (s : State),
      s.HostBinds p hpa k x n →
      atCoherent (rgAttr s n) = true →
      portDb s p = true →
      atTiered (rgAttr s n) = false →
      atMirror (rgAttr s n) = false →
      (cdr s (atHome (rgAttr s n))).retry = [] →
      (cdr s (atHome (rgAttr s n))).late = [] →
      nwf (cdr s (atHome (rgAttr s n))).dir = true →
      dirFind s (atHome (rgAttr s n)) (flatHome s n (atHome (rgAttr s n)) (x.toDla hpa / 64 * 64)) = some (w, e) →
      e.tr = none →
      e.x = true →
      e.owner ≠ agentOf s p k →
      e.dla = x.toDla hpa / 64 * 64 →
      agentPort s e.owner = some q →
      pinned s (atHome (rgAttr s n)) (dirSet (flatHome s n (atHome (rgAttr s n)) (x.toDla hpa / 64 * 64))) < pinMax s (atHome (rgAttr s n)) →
      AnswersWith (exec (.hostMemRead p tag hpa .s .data false) s) (fun t => t.out.getLast? = some (.snoop q e.owner .data (snoopHpa s q e.owner e.dla)) ∧
        (dirFind t (atHome (rgAttr s n)) (flatHome s n (atHome (rgAttr s n)) (x.toDla hpa / 64 * 64))).any (fun z => z.2.x && z.2.owner == e.owner && z.2.tr.any (fun tr => decide (tr.out = [⟨e.owner, .data⟩]) && tr.req.isSome)) = true ∧ t.ops = s.ops ∧ t.east.subs = s.east.subs)) ∧
  (∀ (p d : Die) (g hpa k w : Nat) (r : MemReq) (e : DirEnt) (x : HdmDec) (a : Nat) (s : State),
      s.Idle →
      portUp s p = true →
      linkHeld s p = false →
      pendTag s p g (x.toDla hpa / 64 * 64) = false →
      hdmFind s p hpa = some (k, x) →
      (portAgents s p).contains g = true →
      e.dla = x.toDla hpa / 64 * 64 →
      snooped s g e.dla = some (d, w, e, ⟨some r, none, [⟨g, .inv⟩], [], [], 0, false, false, []⟩, ⟨g, .inv⟩) →
      nwf (cdr s d).dir = true →
      nget (cdr s d).dir w = some e →
      e.x = true →
      e.owner = g →
      e.waiting = [] →
      r.kind = .inv →
      r.agent = some a →
      (cdr s d).recalls = [] →
      (cdr s d).held = [] →
      dirFind s d e.line = some (w, e) →
      AnswersWith (exec (.snoopAnswer p g hpa .i) s) (fun t => (nget (cdr t d).dir w).any (fun q => q.x && q.owner == a && decide (q.sharers = []) && q.tr.isNone) = true ∧
        (∀ j, j ≠ w → nget (cdr t d).dir j = nget (cdr s d).dir j) ∧ t.ops = s.ops ∧ (match r.asker with | .host pt tag => t.out.any (fun m => decide (m = .hostCpl pt tag none .exclusive)) | _ => true) = true)) ∧
  (∀ (d : Die) (g w : Nat) (e : DirEnt) (tr : CdrTr) (s : State),
      (lineTr s d e.dla).map (fun q => (q.1, q.2.1)) = some (w, e) →
      e.tr = some tr →
      tr.out.any (fun z => z.agent == g) = true →
      (e.x && e.owner == g) = false →
      exec (.snoopTimeout d e.dla g) s = .next (settle (recallAdvance d (advance d w (post d (cdrEv s 0x0503 sevInfo d e g)
        (lostAgent d w g (onTr d w (fun x => { x with out := x.out.filter (fun z => z.agent != g) }) s))))))) ∧
  (∀ (p : Die) (hpa : Nat) (s : State),
      portUp s p = true →
      linkHeld s p = false →
      portDb s p = true →
      exec (.biconflict p hpa) s = .next (send (.conflictAck p hpa) s))

/-- Chapter 9 (R229): a write-back that never comes is counted and posted, and the line is written as poison. R237: the refused requests of a port to a set are presented again. R232: the walk for a port that went down leaves its agents holding nothing, and reports. CDR registers (R217, R219): the agents of a port are set where none of them is the other port's, and a line is probed. -/
def Obligations.TheDirectoryOutlivesItsAgents : Prop :=
  (∀ (d : Die) (g w : Nat) (e : DirEnt) (tr : CdrTr) (s : State),
      (lineTr s d e.dla).map (fun q => (q.1, q.2.1)) = some (w, e) →
      e.tr = some tr →
      tr.await = [g] →
      exec (.awaitWbTimeout d e.dla) s = .next (settle (poisonLine d w (onTr d w (fun x => { x with await := [], failed := true })
        (post d (cdrEv s 0x0501 sevUncorrected d e g) (setFlag F.CDR_STATUS.AWAIT_TO d 0 (cdrStat d 5 (onCdr d (fun c => { c with late := c.late ++ [(e.line, g)] }) s)))))))) ∧
  (∀ (d : Die) (port : Port) (set : Nat) (r : MemReq) (rest : List MemReq) (s : State),
      (cdr s d).retry = r :: rest →
      r.port = port →
      dirSet (dirLine s r.region r.attr r.dla) = set →
      rest.all (fun q => !(q.port == port && dirSet (dirLine s q.region q.attr q.dla) == set)) = true →
      exec (.cdrRetry d port set) s = .next (settle (letIn d r (onCdr d (fun x => { x with retry := rest }) s)))) ∧
  (∀ (d p : Die) (o : Nat) (s : State),
      s.Idle →
      (cdr s d).walks.find? (fun w => w.1 == p) = some (p, o) →
      (cdr s d).recalls = [] →
      nwf (cdr s d).dir = true →
      (cdr s d).dir.all (fun q => q.2.tr.isNone && !(q.2.x && (portAgents s p).contains q.2.owner)) = true →
      AnswersWith (exec (.agentsDropped d p) s) (fun t => (cdr t d).dir = ((cdr s d).dir.map (fun q => (q.1, { q.2 with sharers := q.2.sharers.filter (fun g => !((portAgents s p).contains g)) }))).filter (fun q => q.2.x || !q.2.sharers.isEmpty) ∧
        (cdr t d).walks = (cdr s d).walks.filter (fun w => w.1 != p) ∧ rf t F.CDR_STATUS.PORT_DROP d 0 = 1 ∧ t.ops = s.ops ∧ t.east.subs = s.east.subs)) ∧
  (∀ (d : Die) (v : Word) (s : State),
      verdict s .CDR d false = .take →
      mapClash s d v.toNat = none →
      rfc s F.DEV_MODE.LOCKED = 0 →
      AnswersWith (exec (.agentMapWrite d v) s) (fun t => (∀ k, k < 8 → agentOf t d k = fld v.toNat (4 * k) 4) ∧ agentOf t (otherDie d) 0 = agentOf s (otherDie d) 0 ∧ t.out = s.out ∧ t.quiet = s.quiet)) ∧
  (∀ (d : Die) (v : Word) (k g : Nat) (s : State),
      verdict s .CDR d false = .take →
      mapClash s d v.toNat = some (k, g) →
      rfc s F.DEV_MODE.LOCKED = 0 →
      AnswersWith (exec (.agentMapWrite d v) s) (fun t => (∀ k, k < 8 → agentOf t d k = agentOf s d k) ∧ rf t F.CDR_STATUS.MAP_REFUSED d 0 = 1 ∧
        ToldBy s t (fun r => r.code == 0x0506 && decide (r.details = packDetails [it1 k, it1 g])) ∧ t.quiet = s.quiet)) ∧
  (∀ (d : Die) (v : Word) (s : State),
      verdict s .CDR d false = .take →
      AnswersWith (exec (.cdrProbe d v) s) (fun t => rdReg t .CDR_PROBE_RESULT d 0 = probeWord s d (fld v.toNat 0 11 * 2 ^ 32 + rf s F.CDR_PROBE_LO.DLA_LO d 0 * 64) % 2 ^ 32 ∧
        rf t F.CDR_PROBE_HI.DLA_HI d 0 = fld v.toNat 0 11 ∧ t.out = s.out ∧ t.quiet = s.quiet))

/-- Chapter 10, The link ladder (R256, R257, R361, Table 10.6): replays of one flit are counted, and the RETRY_MAX-th retrains; a link-layer timeout and software retrain the link, unless the window holds RETRAIN_MAX retrains, when it falls back to the next lower rate; a retrain that completes is in L0 again at its rate. That a
retrain through Link Control is no rung of the ladder is the model's reading (DEDUCED, log entry 33). -/
def Obligations.LinksRetryRetrainAndFallBack : Prop :=
  (∀ (p : Die) (same x8 : Bool) (s : State),
      s.Idle →
      coreBypass s p = false →
      portUp s p = true →
      (if same then (die s p).hpc.replays + 1 else 1) < max 1 (rf s F.HPC_LADDER_CFG.RETRY_MAX p 0) →
      AnswersWith (exec (.flitRetry p same false x8) s) (fun t => (die t p).hpc.replays = (if same then (die s p).hpc.replays + 1 else 1) ∧ countOf t p .HPC 0 = satAdd 32 (countOf s p .HPC 0) 1 ∧ portUp t p = true ∧
        t.quiet = (onHpc p (fun h => { h with replays := if same then h.replays + 1 else 1 }) s).quiet)) ∧
  (∀ (p : Die) (x8 : Bool) (s : State),
      s.Idle →
      coreBypass s p = false →
      portUp s p = true →
      max 1 (rf s F.HPC_LADDER_CFG.RETRY_MAX p 0) ≤ (die s p).hpc.replays + 1 →
      (die s p).hpc.retrains = [] →
      AnswersWith (exec (.flitRetry p true false x8) s) (fun t => portUp t p = false ∧ rf t F.HPC_LINK_STATUS.RUNG p 0 = 1 ∧ rf t F.HPC_STATUS.RETRAINED p 0 = 1 ∧ (die t p).hpc.target = portRate s p ∧ (die t p).hpc.retrains = [s.nowNs] ∧ (die t p).hpc.replays = 0)) ∧
  (∀ (p : Die) (x8 : Bool) (s : State),
      s.Idle →
      coreBypass s p = false →
      portUp s p = true →
      ((die s p).hpc.retrains.filter (fun t => decide (s.nowNs < t + rf s F.HPC_LADDER_CFG.WINDOW_MS p 0 * 1000000))).length < max 1 (rf s F.HPC_LADDER_CFG.RETRAIN_MAX p 0) →
      exec (.linkLayerTimeout p x8) s = .next (post p ⟨0x0102, sevCorrected, locDie p, [it1 1, it1 (if x8 then 1 else rf s F.HPC_LINK_STATUS.WIDTH p 0)], none, none⟩
        (setFlag F.HPC_STATUS.RETRAINED p 0 (onHpc p (fun h => { h with target := portRate s p, width := if x8 then 1 else rf s F.HPC_LINK_STATUS.WIDTH p 0, fullW := if x8 then 1 else h.fullW, retrains := (die s p).hpc.retrains.filter (fun t => decide (s.nowNs < t + rf s F.HPC_LADDER_CFG.WINDOW_MS p 0 * 1000000)) ++ [s.nowNs], replays := 0 })
        (wf F.HPC_LINK_STATUS.RUNG p 0 1 (wf F.HPC_LINK_STATUS.UP p 0 0 s)))))) ∧
  (∀ (p : Die) (x8 : Bool) (s : State),
      s.Idle →
      coreBypass s p = false →
      portUp s p = true →
      verdict s .HPC p false = .take →
      ((die s p).hpc.retrains.filter (fun t => decide (s.nowNs < t + rf s F.HPC_LADDER_CFG.WINDOW_MS p 0 * 1000000))).length < max 1 (rf s F.HPC_LADDER_CFG.RETRAIN_MAX p 0) →
      AnswersWith (exec (.linkCtrlRetrain p x8) s) (fun t => portUp t p = false ∧ rf t F.HPC_LINK_STATUS.RUNG p 0 = 1 ∧ rf t F.HPC_STATUS.RETRAINED p 0 = 1 ∧
        ToldBy s t (fun r => r.code == 0x0102 && decide (r.details = packDetails [it1 2, it1 (if x8 then 1 else rf s F.HPC_LINK_STATUS.WIDTH p 0)])) ∧ (die t p).hpc.target = portRate s p)) ∧
  (∀ (p : Die) (rate : Nat) (s : State),
      portUp s p = true →
      exec (.linkControlRetrain p rate) s = .next (onHpc p (fun x => { x with partner128 := (die s p).hpc.extOffer && advertises s p, target := min (topRate s p (die s p).hpc.cxl3 (die s p).hpc.pmax (die s p).hpc.extOffer) (max (portRate s p) rate), width := rf s F.HPC_LINK_STATUS.WIDTH p 0 })
        (wf F.HPC_LINK_STATUS.RUNG p 0 1 (wf F.HPC_LINK_STATUS.UP p 0 0 s)))) ∧
  (∀ (p : Die) (s : State),
      s.Idle →
      coreBypass s p = false →
      portRung s p = 1 →
      portRate s p ≠ 0 →
      AnswersWith (exec (.retrainAbandon p) s) (fun t => portUp t p = false ∧ rf t F.HPC_LINK_STATUS.RUNG p 0 = 2 ∧ (die t p).hpc.target = portRate s p - 1 ∧ rf t F.HPC_STATUS.FELL_BACK p 0 = 1 ∧
        countOf t p .HPC 2 = satAdd 32 (countOf s p .HPC 2) 1 ∧ t.ops = s.ops)) ∧
  (∀ (p : Die) (s : State),
      s.Idle →
      portRung s p = 1 →
      (die s p).hpc.target = portRate s p →
      (die s p).hpc.viralTx = false →
      (die s p).hpc.cpls = [] →
      (die s p).hpc.lin = [] →
      (die s p).hpc.hxin = [] →
      exec (.linkRetrainL0 p) s = .next (wf F.HPC_LINK_STATUS.FLIT p 0 (flitOf s p (portRate s p) (die s p).hpc.cxl3 (die s p).hpc.lo)
        (wf F.HPC_LINK_STATUS.WIDTH p 0 (die s p).hpc.width (wf F.HPC_LINK_STATUS.RATE p 0 (portRate s p) (wf F.HPC_LINK_STATUS.RUNG p 0 0 (wf F.HPC_LINK_STATUS.UP p 0 1 s))))))

/-- Chapter 10, The link ladder and Rates, flits and coherence models (R258, R259, R242), and chapter 12 (R302): a fallback that does not reach L0, and software, take a port down: no request is owed its completion, WENT_DOWN and 0x0104; a port that is down, enabled, out of reset and not fenced trains when software or the REUP timer asks, and in L0 it has the highest rate of both ends, HDM-DB with a CXL 3.x host, and empty counts. -/
def Obligations.PortsGoDownAndTrainAgain : Prop :=
  (∀ (p : Die) (s : State),
      s.Idle →
      coreBypass s p = false →
      portRung s p = 2 →
      portDb s p = false →
      s.fw.xfer = none →
      AnswersWith (exec (.fallbackAbandon p) s) (fun t => portUp t p = false ∧ rf t F.HPC_LINK_STATUS.RUNG p 0 = 3 ∧ rf t F.HPC_LINK_STATUS.IDE_SECURE p 0 = 0 ∧ rf t F.HPC_STATUS.WENT_DOWN p 0 = 1 ∧
        t.ops.all (fun q => !(owedTo p q.2.asker)) = true ∧ countOf t p .HPC 3 = satAdd 32 (countOf s p .HPC 3) 1 ∧ (die t p).hpc.ide = none)) ∧
  (∀ (p : Die) (s : State),
      s.Idle →
      portUp s p = true →
      verdict s .HPC p false = .take →
      portDb s p = false →
      s.fw.xfer = none →
      AnswersWith (exec (.linkCtrlDown p) s) (fun t => portUp t p = false ∧ rf t F.HPC_LINK_STATUS.RUNG p 0 = 3 ∧ rf t F.HPC_LINK_STATUS.IDE_SECURE p 0 = 0 ∧ rf t F.HPC_STATUS.WENT_DOWN p 0 = 1 ∧
        t.ops.all (fun q => !(owedTo p q.2.asker)) = true ∧ (∀ n, n < 256 → rfb s F.CPR_SQ_CTRL.EN p n = true → rfb t F.CPR_SQ_CTRL.ERROR p n = true) ∧ (die t p).hpc.ide = none)) ∧
  (∀ (p : Die) (s : State),
      verdict s .HPC p false = .take →
      diePresent s p = true →
      portEn s p = true →
      portAlive s p = false →
      perstLow s p = false →
      fenced s p = false →
      s.dev.mode ≠ .boot →
      exec (.linkCtrlReup p) s = .next (onHpc p (fun h => { h with training := true }) s)) ∧
  (∀ (p : Die) (s : State),
      rf s F.HPC_LINK_CFG.REUP_S p 0 ≠ 0 →
      diePresent s p = true →
      portEn s p = true →
      portAlive s p = false →
      perstLow s p = false →
      fenced s p = false →
      s.dev.mode ≠ .boot →
      exec (.reupTimer p) s = .next (onHpc p (fun h => { h with training := true }) s)) ∧
  (∀ (p : Die) (v : Word) (s : State),
      s.Idle →
      verdict s .HPC p false = .take →
      bitn v.toNat 4 = true →
      portEn s p = false →
      portIsDown s p = true →
      portAlive s p = false →
      (diesPresent s).any (fun q => q != p && portEn s q && portIsDown s q) = false →
      rfc s F.DEV_STATUS.DEG_HPORT = 1 →
      diePresent s p = true →
      perstLow s p = false →
      fenced s p = false →
      AnswersWith (exec (.linkCfgEn p v) s) (fun t => portEn t p = true ∧ (die t p).hpc.training = true ∧ rf t F.HPC_LINK_CFG.REUP_S p 0 = fld v.toNat 8 8 ∧ rf t F.HPC_LINK_CFG.MAX_RATE p 0 = fld v.toNat 0 2 ∧
        t.quiet = (onHpc p (fun h => { h with training := true }) s).quiet)) ∧
  (∀ (p : Die) (cxl3 ext lo x8 : Bool) (rate : Nat) (s : State),
      s.Idle →
      (die s p).hpc.training = true →
      portEn s p = true →
      perstLow s p = false →
      s.east.cdr.walks = [] →
      s.west.cdr.walks = [] →
      AnswersWith (exec (.portUp p cxl3 rate ext lo x8) s) (fun t => portUp t p = true ∧ rf t F.HPC_LINK_STATUS.RUNG p 0 = 0 ∧ portRate t p = topRate s p cxl3 rate ext % 4 ∧ rf t F.HPC_LINK_STATUS.FLIT p 0 = flitOf s p (topRate s p cxl3 rate ext) cxl3 lo ∧
        portDb t p = cxl3 ∧ (die t p).hpc.training = false ∧ (die t p).hpc.retrains = [] ∧ (die t p).hpc.cxl3 = cxl3 ∧ ToldBy s t (fun r => r.code == 0x0105) ∧ t.ops = s.ops))

/-- Chapter 10 (R260): arming stores the settings and clears the count; R253: a host's viral indication is reported and nothing else changes; R246: a decoder commits in order, with a way count and granularity that are allowed, not beyond DLA 8 TiB, and otherwise shows Commit Error; R255: the CDAT is read entry by entry. The layout of its
entries is the model's (PRESUMED, log entry 28). -/
def Obligations.PortsInjectReportAndDecode : Prop :=
  (∀ (p : Die) (v : Word) (s : State),
      verdict s .HPC p false = .take →
      AnswersWith (exec (.hpcInjArm p v) s) (fun t => rf t F.HPC_INJ_CTRL.ARMED p 0 = 1 ∧ rf t F.HPC_INJ_COUNT.COUNT p 0 = 0 ∧ rf t F.HPC_INJ_CTRL.MODE p 0 = fld v.toNat 3 1 ∧ rf t F.HPC_INJ_CTRL.KIND p 0 = fld v.toNat 4 2 ∧
        rf t F.HPC_INJ_CTRL.EXEMPT p 0 = fld v.toNat 6 1 ∧ rf t F.HPC_INJ_CTRL.RATE p 0 = fld v.toNat 8 5 ∧ { t with regs := s.regs } = s)) ∧
  (∀ (p : Die) (s : State),
      verdict s .HPC p false = .take →
      exec (.hpcInjDisarm p) s = .next (wf F.HPC_INJ_CTRL.ARMED p 0 0 s)) ∧
  (∀ (p : Die) (s : State),
      portUp s p = true →
      AnswersWith (exec (.viralRx p) s) (fun t => rf t F.HPC_STATUS.VIRAL_RX p 0 = 1 ∧ ToldBy s t (fun r => r.code == 0x0108 && r.sev == 4) ∧ t.quiet = s.quiet)) ∧
  (∀ (p : Die) (base size ways gran skip isp : Nat) (s : State),
      diePresent s p = true →
      nget (die s p).hpc.hdm 0 = none →
      [1, 2, 3, 4, 6, 8, 12, 16].contains ways = true →
      [256, 512, 1024, 2048, 4096, 8192, 16384].contains gran = true →
      isp < ways →
      0 < size →
      size % (gran * ways) = 0 →
      skip + size / ways ≤ 2 ^ 43 →
      exec (.hdmDecoderCommit p 0 base size ways gran skip isp) s = .next (onHpc p (fun h => { h with hdm := nset h.hdm 0 ⟨base, size, ways, gran, skip, isp⟩, hdmErr := h.hdmErr.filter (· != 0) }) s)) ∧
  (∀ (p : Die) (k base size ways gran skip isp : Nat) (s : State),
      diePresent s p = true →
      (nget (die s p).hpc.hdm k).isSome = true ∨ [1, 2, 3, 4, 6, 8, 12, 16].contains ways = false ∨ 2 ^ 43 < skip + size / ways →
      AnswersWith (exec (.hdmDecoderCommit p k base size ways gran skip isp) s) (fun t => (die t p).hpc.hdm = (die s p).hpc.hdm ∧ (die t p).hpc.hdmErr.contains k = true)) ∧
  (∀ (p : Die) (h : Nat) (s : State),
      portUp s p = true →
      exec (.cdatTableAccess p h) s = .next (send (.doe p (cdatAnswer s p h)) s))

/-- Chapter 10, The mailbox (R250, Table 10.5): on a port whose mailbox is open each command is answered at once; a read changes nothing but what is sent. Payload layouts and return codes are those of CXL (PRESUMED, log entry 28). -/
def Obligations.TheMailboxTellsAndSets : Prop :=
  (∀ (p : Die) (s : State),
      mboxOpen s p = true →
      exec (.identify p) s = .next (send (.mbox p 0 ((cxlBytes 0).take 8 ++ leBytes 8 (dieUid p) ++ [12])) s)) ∧
  (∀ (p : Die) (s : State),
      mboxOpen s p = true →
      exec (.identifyMemoryDevice p) s = .next (send (.mbox p 0 (cxlBytes (8 + s.fw.running) ++ leBytes 8 32768 ++ leBytes 8 32768 ++ leBytes 8 0 ++ leBytes 8 0 ++ leBytes 2 256 ++ leBytes 2 256
        ++ leBytes 2 256 ++ leBytes 2 256 ++ leBytes 4 0 ++ leBytes 3 256 ++ leBytes 2 64 ++ [0, 0])) s)) ∧
  (∀ (p : Die) (s : State),
      mboxOpen s p = true →
      exec (.getTimestamp p) s = .next (send (.mbox p 0 (leBytes 8 (cxlNow s))) s)) ∧
  (∀ (p : Die) (ns : Nat) (s : State),
      mboxOpen s p = true →
      AnswersWith (exec (.setTimestamp p ns) s) (fun t => cxlNow t = ns ∧ t.upNs = s.upNs ∧ t.out = s.out ++ [.mbox p 0 []] ∧ { t with cxlOffset := s.cxlOffset, out := s.out } = s)) ∧
  (∀ (p : Die) (s : State),
      mboxOpen s p = true →
      exec (.getSupportedLogs p) s = .next (send (.mbox p 0 (leBytes 8 2 ++ cxlBytes 4 ++ leBytes 4 effectsLog.length ++ cxlBytes 5 ++ leBytes 4 (freezeLog s).length)) s)) ∧
  (∀ (p : Die) (off len : Nat) (s : State),
      mboxOpen s p = true →
      len ≤ 4096 →
      off + len ≤ (freezeLog s).length →
      exec (.getLog p 1 off len) s = .next (send (.mbox p 0 (((freezeLog s).drop off).take len)) s)) ∧
  (∀ (p : Die) (log off len : Nat) (s : State),
      mboxOpen s p = true →
      2 ≤ log ∨ 4096 < len →
      exec (.getLog p log off len) s = .next (send (.mbox p 2 []) s)) ∧
  (∀ (p : Die) (s : State),
      mboxOpen s p = true →
      AnswersWith (exec (.getHealthInfo p) s) (fun t => { t with out := s.out } = s ∧ t.out.length = s.out.length + 1 ∧
        t.out.getLast?.any (fun m => match m with | .mbox q r b => q == p && r == 0 && decide (b.length = 18) && decide (b.getD 0 0 = BitVec.ofNat 8 (healthStatus s)) | _ => false) = true)) ∧
  (∀ (p : Die) (s : State),
      mboxOpen s p = true →
      exec (.getAlertConfiguration p) s = .next (send (.mbox p 0 (padTo 16 (die s p).hpc.alerts)) s)) ∧
  (∀ (p : Die) (c : List Byte) (s : State),
      mboxOpen s p = true →
      exec (.setAlertConfiguration p c) s = .next (send (.mbox p 0 []) (onHpc p (fun h => { h with alerts := padTo 16 c }) s))) ∧
  (∀ (p : Die) (op : Nat) (s : State),
      mboxOpen s p = true →
      mboxOpcodes.contains op = false →
      exec (.mailboxUnsupported p op) s = .next (send (.mbox p 3 []) s))

/-- Chapter 10, The mailbox (R251, R254, Table 10.5): a log's oldest records are told, and cleared by their handles in order or all at once; interrupt policies are set; firmware goes to the slot that does not run, and is activated at the next cold reset only; poison is written on a line that the port could write, at most 64 lines standing, and cleared by data. Under LOCKDOWN
both are Unsupported. Payload layouts are those of CXL (PRESUMED, log entry 28). -/
def Obligations.TheMailboxServesEventsFirmwareAndPoison : Prop :=
  (∀ (p : Die) (log : Nat) (s : State),
      mboxOpen s p = true →
      log < 4 →
      AnswersWith (exec (.getEventRecords p log) s) (fun t => { t with out := s.out } = s ∧
        t.out.getLast?.any (fun m => match m with | .mbox q r b => q == p && r == 0 && decide (b.drop 32 = ((logAt s p log).recs.take 31).flatMap (recBytes s)) && decide (fromLe ((b.drop 20).take 2) = ((logAt s p log).recs.take 31).length) | _ => false) = true)) ∧
  (∀ (p : Die) (log : Nat) (hs : List Nat) (s : State),
      mboxOpen s p = true →
      log < 4 →
      ((logAt s p log).recs.take hs.length).map (·.handle) = hs →
      AnswersWith (exec (.clearEventRecords p log false hs) s) (fun t => (logAt t p log).recs = (logAt s p log).recs.drop hs.length ∧ (logAt t p log).overflow = 0 ∧ t.out = s.out ++ [.mbox p 0 []] ∧
        (∀ k, k ≠ log → logAt t p k = logAt s p k) ∧ t.regs = s.regs)) ∧
  (∀ (p : Die) (log : Nat) (hs : List Nat) (s : State),
      mboxOpen s p = true →
      log < 4 →
      AnswersWith (exec (.clearEventRecords p log true hs) s) (fun t => (logAt t p log).recs = [] ∧ t.out = s.out ++ [.mbox p 0 []] ∧ (∀ k, k ≠ log → logAt t p k = logAt s p k))) ∧
  (∀ (p : Die) (a b c d : Nat) (s : State),
      mboxOpen s p = true →
      a < 256 →
      b < 256 →
      c < 256 →
      d < 256 →
      exec (.setEventInterruptPolicy p [a, b, c, d]) s = .next (send (.mbox p 0 []) (onHpc p (fun h => { h with irqPolicy := [(0, a), (1, b), (2, c), (3, d)] }) s))) ∧
  (∀ (p : Die) (s : State),
      mboxOpen s p = true →
      exec (.getEventInterruptPolicy p) s = .next (send (.mbox p 0 ((List.range 4).map (fun k => BitVec.ofNat 8 (ngetD (die s p).hpc.irqPolicy k 0)))) s)) ∧
  (∀ (p : Die) (s : State),
      mboxOpen s p = true →
      exec (.getFwInfo p) s = .next (send (.mbox p 0 (padTo 16 (leBytes 1 2 ++ leBytes 1 ((s.fw.running + 1) + 8 * (if s.dev.flash.fwActive = s.fw.running then 0 else s.dev.flash.fwActive + 1))) ++
        (List.range 2).flatMap (fun k => if fwValid s k then cxlBytes (8 + k) else leBytes 16 0))) s)) ∧
  (∀ (p : Die) (slot : Nat) (s : State),
      mboxOpen s p = true →
      s.fw.xfer = none →
      slot < 2 →
      slot ≠ s.fw.running →
      AnswersWith (exec (.transferFw p slot) s) (fun t => t.fw.xfer = some (p, slot) ∧ fwValid t slot = false ∧ fwValid t (1 - slot) = fwValid s (1 - slot) ∧ t.fw.running = s.fw.running ∧
        t.dev.flash.fwActive = s.dev.flash.fwActive ∧ t.dev.flash.jobs = s.dev.flash.jobs ++ [.firmware slot] ∧ rfc t F.CFG_STATUS.UPDATING = 1 ∧ t.out = s.out ++ [.mbox p 1 []])) ∧
  (∀ (p : Die) (slot : Nat) (signed : Bool) (s : State),
      s.fw.xfer = some (p, slot) →
      slot < 2 →
      AnswersWith (exec (.transferFwDone signed) s) (fun t => t.fw.xfer = none ∧ fwValid t slot = signed ∧ fwValid t (1 - slot) = fwValid s (1 - slot) ∧ t.dev.flash.jobs = s.dev.flash.jobs.filter (fun j => j != .firmware slot) ∧ t.out = s.out)) ∧
  (∀ (p : Die) (slot : Nat) (s : State),
      mboxOpen s p = true →
      slot < 2 →
      fwValid s slot = true →
      exec (.activateFw p slot false) s = .next (send (.mbox p 0 []) { s with dev := { s.dev with flash := { s.dev.flash with fwActive := slot } } })) ∧
  (∀ (p : Die) (slot : Nat) (s : State),
      mboxOpen s p = true →
      exec (.activateFw p slot true) s = .next (send (.mbox p 3 []) s)) ∧
  (∀ (p : Die) (dla n : Nat) (s : State),
      mboxOpen s p = true →
      rfc s F.SEC_POLICY.LOCKDOWN = 0 →
      portWrites s p dla = some n →
      dla % 64 = 0 →
      s.injected.length < 64 →
      s.injected.contains dla = false →
      exec (.injectPoison p dla) s = .next (settle (send (.mbox p 0 []) (mboxWrite p n dla ⟨0, true⟩ { s with injected := s.injected ++ [dla] })))) ∧
  (∀ (p : Die) (dla n : Nat) (b : Line) (s : State),
      mboxOpen s p = true →
      rfc s F.SEC_POLICY.LOCKDOWN = 0 →
      portWrites s p dla = some n →
      dla % 64 = 0 →
      exec (.clearPoison p dla b) s = .next (settle (send (.mbox p 0 []) (mboxWrite p n dla ⟨b, false⟩ { s with injected := s.injected.filter (· != dla) })))) ∧
  (∀ (p : Die) (dla : Nat) (b : Line) (s : State),
      s.Idle →
      mboxOpen s p = true →
      rfc s F.SEC_POLICY.LOCKDOWN = 1 →
      exec (.injectPoison p dla) s = .next (send (.mbox p 3 []) s) ∧ exec (.clearPoison p dla b) s = .next (send (.mbox p 3 []) s)) ∧
  (∀ (p : Die) (dla len : Nat) (s : State),
      mboxOpen s p = true →
      AnswersWith (exec (.getPoisonList p dla len) s) (fun t => { t with out := s.out } = s ∧ t.out.getLast?.any (fun m => match m with | .mbox q r b => q == p && r == 0 && decide (b.drop 32 = ((((diesPresent s).flatMap (poisonedOn s p)).eraseDups.filter (fun a => decide (dla ≤ a) && decide (a < dla + len))).take 254).flatMap (fun a => leBytes 8 (a + 1) ++ leBytes 4 1 ++ leBytes 4 0)) | _ => false) = true))

/-- Chapter 11, Remote operations and Reliable delivery (R275, R272), and chapter 8 (R187): a READ_REQ, T2_GET, WRITE_REQ or T2_PUT that its context expects, whose range is sound, in a mode that serves, for a region that lets the fabric read or write it and whose slot is bound to the fabric: the context moves to the next number, the request is recorded with its session and tag, and each of its lines is
presented as a request of the port. An ENQ_REQ's packet goes to the Queue Engine with the queue, pool and length of its ARG. Where the range breaks R268 the response has status 3. -/
def Obligations.PeersRequestsAreServedLineByLine : Prop :=
  (∀ (d : Die) (f : Frame) (n : Nat) (s : State),
      s.Expects d f →
      f.op = 1 →
      badRange f.arg f.len = false →
      f.op = 9 → f.len = 4096 →
      modeStatus s = 0 →
      regionOf s f.arg = some n →
      at_ (rgAttr s n) F.RGN_ATTR.FABRIC_READ = 1 →
      bitn (bindOf s (rgAttr s n)) 2 = true →
      exec (.readReq d f true false) s = .next (settle (ackDue d (f.src % 4096) ((fun t => { t with seq := s.seq + 1, serves := nset s.serves (s.seq + 1) ⟨d, (f.src % 4096), f.session, f.op, f.tag, f.arg, f.len / 64, [], true, 0⟩, todo := (List.range (f.len / 64)).map (fun k => Todo.present (peerReq s d (s.seq + 1) k n (f.arg + 64 * k) .rdNC ⟨0, false⟩)) }) (rrmCount d (fabPort d) (some (rgHomeDie s n d)) (addCount d .FPC 8 1 (arrived d (f.src % 4096) (heardSeq d f s)))))))) ∧
  (∀ (d : Die) (f : Frame) (n : Nat) (s : State),
      s.Expects d f →
      f.op = 9 →
      badRange f.arg f.len = false →
      f.op = 9 → f.len = 4096 →
      modeStatus s = 0 →
      regionOf s f.arg = some n →
      at_ (rgAttr s n) F.RGN_ATTR.FABRIC_READ = 1 →
      bitn (bindOf s (rgAttr s n)) 2 = true →
      exec (.t2Get d f true false) s = .next (settle (ackDue d (f.src % 4096) ((fun t => { t with seq := s.seq + 1, serves := nset s.serves (s.seq + 1) ⟨d, (f.src % 4096), f.session, f.op, f.tag, f.arg, f.len / 64, [], true, 0⟩, todo := (List.range (f.len / 64)).map (fun k => Todo.present (peerReq s d (s.seq + 1) k n (f.arg + 64 * k) .rdNC ⟨0, false⟩)) }) (rrmCount d (fabPort d) (some (rgHomeDie s n d)) (addCount d .FPC 8 1 (arrived d (f.src % 4096) (heardSeq d f s)))))))) ∧
  (∀ (d : Die) (f : Frame) (n : Nat) (s : State),
      s.Expects d f →
      f.op = 3 →
      f.more = false →
      (ctx s d (f.src % 4096)).part = none →
      badRange f.arg f.len = false →
      f.op = 7 → (frameLines f).length = 64 →
      modeStatus s = 0 →
      regionOf s f.arg = some n →
      at_ (rgAttr s n) F.RGN_ATTR.FABRIC_WRITE = 1 →
      bitn (bindOf s (rgAttr s n)) 2 = true →
      atOwner (rgAttr s n) ≠ 1 →
      exec (.writeReq d f true false) s = .next (settle (ackDue d (f.src % 4096) ((fun t => { t with seq := s.seq + 1, serves := nset s.serves (s.seq + 1) ⟨d, (f.src % 4096), f.session, f.op, f.tag, f.arg, (frameLines f).length, [], true, 0⟩, todo := (frameLines f).zipIdx.map (fun p => Todo.present (peerReq s d (s.seq + 1) p.2 n (f.arg + 64 * p.2) .wr p.1)) ++ [.served (s.seq + 1)] }) (rrmCount d (fabPort d) (some (rgHomeDie s n d)) (addCount d .FPC 8 1 (arrived d (f.src % 4096) (heardSeq d f s)))))))) ∧
  (∀ (d : Die) (f : Frame) (n : Nat) (s : State),
      s.Expects d f →
      f.op = 7 →
      f.more = false →
      (ctx s d (f.src % 4096)).part = none →
      badRange f.arg f.len = false →
      f.op = 7 → (frameLines f).length = 64 →
      modeStatus s = 0 →
      regionOf s f.arg = some n →
      at_ (rgAttr s n) F.RGN_ATTR.FABRIC_WRITE = 1 →
      bitn (bindOf s (rgAttr s n)) 2 = true →
      atOwner (rgAttr s n) ≠ 1 →
      exec (.t2Put d f true false) s = .next (settle (ackDue d (f.src % 4096) ((fun t => { t with seq := s.seq + 1, serves := nset s.serves (s.seq + 1) ⟨d, (f.src % 4096), f.session, f.op, f.tag, f.arg, (frameLines f).length, [], true, 0⟩, todo := (frameLines f).zipIdx.map (fun p => Todo.present (peerReq s d (s.seq + 1) p.2 n (f.arg + 64 * p.2) .wr p.1)) ++ [.served (s.seq + 1)] }) (rrmCount d (fabPort d) (some (rgHomeDie s n d)) (addCount d .FPC 8 1 (arrived d (f.src % 4096) (heardSeq d f s)))))))) ∧
  (∀ (d : Die) (f : Frame) (s : State),
      s.Expects d f →
      f.op = 5 →
      f.more = false →
      (ctx s d (f.src % 4096)).part = none →
      modeStatus s = 0 →
      exec (.enqReq d f true false) s = .next (settle (ackDue d (f.src % 4096) (later (.enq ⟨d, (f.src % 4096), f.session, f.tag, fld f.arg 0 18, fld f.arg 18 3, fld f.arg 32 16, f.mask.isSome, f.payload⟩) (onCtx d (f.src % 4096) (fun c => { c with part := none }) (addCount d .FPC 8 1 (arrived d (f.src % 4096) (heardSeq d f s)))))))) ∧
  (∀ (d : Die) (f : Frame) (s : State),
      s.Expects d f →
      f.op = 1 →
      badRange f.arg f.len = true →
      AnswersWith (exec (.readReq d f true false) s) (fun t => SentFrame t d (fun g => g.op == 2 && g.tag == f.tag && g.status == 3 && decide (g.payload = []) && g.seq == (ctx s d (f.src % 4096)).nextSeq && g.dst % 4096 == (f.src % 4096)) ∧ t.serves = s.serves ∧ t.ops = s.ops))

/-- Chapter 11, Remote operations (R271, R277): the last frame of a response, taken in its order, ends the request of its tag: who waits gets the status, 5 for data with poison, and the lines. A response whose tag names no request is discarded (R281). A T2 read's line then goes to the host that asked, a remote write's last answer ends its descriptor, a T2_PUT_RESP lets its move commit, and a remote enqueue completes. -/
def Obligations.PeersResponsesReachWhoWaits : Prop :=
  (∀ (d : Die) (f : Frame) (r : PeerReq) (s : State),
      s.Expects d f →
      f.op = 2 →
      f.more = false →
      (die s d).fpc.outq = [] →
      (ctx s d (f.src % 4096)).reqs.find? (fun (q : PeerReq) => q.tag == f.tag && q.op + 1 == f.op) = some r →
      exec (.readResp d f true false) s = .next (settle (ackDue d (f.src % 4096) (later (.peer r.waiter (if f.status = 0 ∧ (r.got ++ frameLines f).any (·.poison) = true then 5 else f.status) (r.got ++ frameLines f) (f.src % 4096)) (onCtx d (f.src % 4096) (fun c => { c with reqs := c.reqs.filter (fun (q : PeerReq) => q.tag != r.tag) }) (arrived d (f.src % 4096) (heardSeq d f s))))))) ∧
  (∀ (d : Die) (f : Frame) (r : PeerReq) (s : State),
      s.Expects d f →
      f.op = 4 →
      f.more = false →
      (die s d).fpc.outq = [] →
      (ctx s d (f.src % 4096)).reqs.find? (fun (q : PeerReq) => q.tag == f.tag && q.op + 1 == f.op) = some r →
      exec (.writeResp d f true false) s = .next (settle (ackDue d (f.src % 4096) (later (.peer r.waiter (if f.status = 0 ∧ (r.got ++ frameLines f).any (·.poison) = true then 5 else f.status) (r.got ++ frameLines f) (f.src % 4096)) (onCtx d (f.src % 4096) (fun c => { c with reqs := c.reqs.filter (fun (q : PeerReq) => q.tag != r.tag) }) (arrived d (f.src % 4096) (heardSeq d f s))))))) ∧
  (∀ (d : Die) (f : Frame) (r : PeerReq) (s : State),
      s.Expects d f →
      f.op = 6 →
      f.more = false →
      (die s d).fpc.outq = [] →
      (ctx s d (f.src % 4096)).reqs.find? (fun (q : PeerReq) => q.tag == f.tag && q.op + 1 == f.op) = some r →
      exec (.enqResp d f true false) s = .next (settle (ackDue d (f.src % 4096) (later (.peer r.waiter (if f.status = 0 ∧ (r.got ++ frameLines f).any (·.poison) = true then 5 else f.status) (r.got ++ frameLines f) (f.src % 4096)) (onCtx d (f.src % 4096) (fun c => { c with reqs := c.reqs.filter (fun (q : PeerReq) => q.tag != r.tag) }) (arrived d (f.src % 4096) (heardSeq d f s))))))) ∧
  (∀ (d : Die) (f : Frame) (r : PeerReq) (s : State),
      s.Expects d f →
      f.op = 8 →
      f.more = false →
      (die s d).fpc.outq = [] →
      (ctx s d (f.src % 4096)).reqs.find? (fun (q : PeerReq) => q.tag == f.tag && q.op + 1 == f.op) = some r →
      exec (.t2PutResp d f true false) s = .next (settle (ackDue d (f.src % 4096) (later (.peer r.waiter (if f.status = 0 ∧ (r.got ++ frameLines f).any (·.poison) = true then 5 else f.status) (r.got ++ frameLines f) (f.src % 4096)) (onCtx d (f.src % 4096) (fun c => { c with reqs := c.reqs.filter (fun (q : PeerReq) => q.tag != r.tag) }) (arrived d (f.src % 4096) (heardSeq d f s))))))) ∧
  (∀ (d : Die) (f : Frame) (r : PeerReq) (s : State),
      s.Expects d f →
      f.op = 10 →
      f.more = false →
      (die s d).fpc.outq = [] →
      (ctx s d (f.src % 4096)).reqs.find? (fun (q : PeerReq) => q.tag == f.tag && q.op + 1 == f.op) = some r →
      exec (.t2GetResp d f true false) s = .next (settle (ackDue d (f.src % 4096) (later (.peer r.waiter (if f.status = 0 ∧ (r.got ++ frameLines f).any (·.poison) = true then 5 else f.status) (r.got ++ frameLines f) (f.src % 4096)) (onCtx d (f.src % 4096) (fun c => { c with reqs := c.reqs.filter (fun (q : PeerReq) => q.tag != r.tag) }) (arrived d (f.src % 4096) (heardSeq d f s))))))) ∧
  (∀ (d p : Die) (f : Frame) (r : PeerReq) (n tag : Nat) (o : OpSt) (s : State),
      s.Expects d f →
      f.op = 2 →
      f.more = false →
      f.status = 0 →
      (die s d).fpc.outq = [] →
      (ctx s d (f.src % 4096)).unreported < 15 →
      (ctx s d (f.src % 4096)).reqs.find? (fun (q : PeerReq) => q.tag == f.tag && q.op + 1 == f.op) = some r →
      r.waiter = .op n →
      r.got = [] →
      nget s.ops n = some o →
      o.job = .read →
      o.asker = .host p tag →
      o.want = [0] →
      o.track = none →
      AnswersWith (exec (.readResp d f true false) s) (fun t => t.out.any (fun m => decide (m = .hostCpl p tag (some ((frameLines f).headD poisoned)) o.cmp)) = true ∧ t.ops = nerase s.ops n)) ∧
  (∀ (d q : Die) (f : Frame) (r : PeerReq) (e : Desc) (off : Nat) (s : State),
      s.Expects d f →
      f.op = 4 →
      f.more = false →
      f.status = 0 →
      f.payload = [] →
      (die s d).fpc.outq = [] →
      (ctx s d (f.src % 4096)).unreported < 15 →
      (ctx s d (f.src % 4096)).reqs.find? (fun (q : PeerReq) => q.tag == f.tag && q.op + 1 == f.op) = some r →
      r.got = [] →
      r.waiter = .desc q e.sq e.seq off →
      startedDesc s q e.sq e.seq = some e →
      e.op = 0x91 →
      e.phase = 1 →
      e.left = 1 →
      e.fails = [] →
      nget e.vals 4 = none →
      e.quiet = false →
      rfb s F.CPR_SQ_CTRL.ERROR q e.sq = false →
      rfb s F.CPR_CQ_CTRL.EN q (sqCq s q e.sq) = true →
      rfb s F.CPR_CQ_CTRL.ERROR q (sqCq s q e.sq) = false →
      AnswersWith (exec (.writeResp d f true false) s) (fun t => Completed s t q e 0 (remLen e) 0 ∧ t.ops = s.ops ∧ t.serves = s.serves)) ∧
  (∀ (d q : Die) (f : Frame) (r : PeerReq) (e : Desc) (s : State),
      s.Expects d f →
      f.op = 6 →
      f.more = false →
      f.status = 0 →
      f.payload = [] →
      (die s d).fpc.outq = [] →
      (ctx s d (f.src % 4096)).unreported < 15 →
      (ctx s d (f.src % 4096)).reqs.find? (fun (q : PeerReq) => q.tag == f.tag && q.op + 1 == f.op) = some r →
      r.got = [] →
      r.waiter = .enq q e.sq e.seq →
      startedDesc s q e.sq e.seq = some e →
      e.left = 1 →
      e.num 10 1 ≠ 2 →
      e.quiet = false →
      rfb s F.CPR_SQ_CTRL.ERROR q e.sq = false →
      rfb s F.CPR_CQ_CTRL.EN q (sqCq s q e.sq) = true →
      rfb s F.CPR_CQ_CTRL.ERROR q (sqCq s q e.sq) = false →
      AnswersWith (exec (.enqResp d f true false) s) (fun t => Completed s t q e 0 (ngetD e.vals 3 0) 0 ∧ t.ops = s.ops ∧ t.serves = s.serves)) ∧
  (∀ (d q : Die) (f : Frame) (r : PeerReq) (m : MoveSt) (k : Nat) (s : State),
      s.Expects d f →
      f.op = 8 →
      f.more = false →
      f.status = 0 →
      f.payload = [] →
      (die s d).fpc.outq = [] →
      (ctx s d (f.src % 4096)).unreported < 15 →
      (ctx s d (f.src % 4096)).reqs.find? (fun (q : PeerReq) => q.tag == f.tag && q.op + 1 == f.op) = some r →
      r.got = [] →
      r.waiter = .move q k →
      nget (tme s q).moves k = some m →
      m.committed = false →
      m.accepted = false →
      m.waitsPeer = true →
      m.dest.tier = 3 →
      AnswersWith (exec (.t2PutResp d f true false) s) (fun t => nget (tme t q).moves k = some { m with accepted := true, waitsPeer := false } ∧ (tme t q).pages = (tme s q).pages ∧ t.ops = s.ops ∧ t.serves = s.serves)) ∧
  (∀ (d : Die) (f : Frame) (s : State),
      s.Expects d f →
      f.op = 2 →
      (ctx s d (f.src % 4096)).unreported < 15 →
      (ctx s d (f.src % 4096)).reqs.find? (fun (q : PeerReq) => q.tag == f.tag && q.op + 1 == f.op) = none →
      exec (.readResp d f true false) s = .next (onCtx d (f.src % 4096) (fun c => { c with unreported := c.unreported + 1 }) (heardSeq d f s)))

/-- Chapter 11 (R272): an ACK or HEARTBEAT of the session takes out of the unacknowledged frames those before its ACK and those its SACK marks; a frame ahead of the expected one is held; one seen before is acknowledged again. R273, R280: HELLO brings the context UP in the session offered, expecting its number, and a HELLO_ACK is sent; HELLO_ACK of the session offered brings it UP. R265, R267: a frame that fails
MACsec or a check is counted, flagged and not executed. -/
def Obligations.FramesAcknowledgeConnectAndAreDropped : Prop :=
  (∀ (d : Die) (f : Frame) (s : State),
      s.Hears d f →
      f.op = 0 →
      (ctx s d (f.src % 4096)).waiting = [] →
      AnswersWith (exec (.ack d f true false) s) (fun t => (ctx t d (f.src % 4096)).unacked = (ctx s d (f.src % 4096)).unacked.filter (fun (g : Frame) => !(seqBefore g.seq f.ack) && !(decide (1 ≤ seqDist f.ack g.seq) && decide (seqDist f.ack g.seq ≤ 64) && f.sack.getLsbD (seqDist f.ack g.seq - 1))) ∧
        (ctx t d (f.src % 4096)).heardNs = s.nowNs ∧ (ctx t d (f.src % 4096)).timeouts = (if (ctx t d (f.src % 4096)).unacked.head?.map (·.seq) = (ctx s d (f.src % 4096)).unacked.head?.map (·.seq) then (ctx s d (f.src % 4096)).timeouts else 0) ∧ (ctx t d (f.src % 4096)).expect = (ctx s d (f.src % 4096)).expect ∧
        onFpc d (fun _ => FpcSt.reset) t.quiet = onFpc d (fun _ => FpcSt.reset) s.quiet)) ∧
  (∀ (d : Die) (f : Frame) (s : State),
      s.Hears d f →
      f.op = 14 →
      (ctx s d (f.src % 4096)).waiting = [] →
      AnswersWith (exec (.heartbeat d f true false) s) (fun t => (ctx t d (f.src % 4096)).unacked = (ctx s d (f.src % 4096)).unacked.filter (fun (g : Frame) => !(seqBefore g.seq f.ack) && !(decide (1 ≤ seqDist f.ack g.seq) && decide (seqDist f.ack g.seq ≤ 64) && f.sack.getLsbD (seqDist f.ack g.seq - 1))) ∧
        (ctx t d (f.src % 4096)).heardNs = s.nowNs ∧ (ctx t d (f.src % 4096)).timeouts = (if (ctx t d (f.src % 4096)).unacked.head?.map (·.seq) = (ctx s d (f.src % 4096)).unacked.head?.map (·.seq) then (ctx s d (f.src % 4096)).timeouts else 0) ∧ (ctx t d (f.src % 4096)).expect = (ctx s d (f.src % 4096)).expect ∧
        onFpc d (fun _ => FpcSt.reset) t.quiet = onFpc d (fun _ => FpcSt.reset) s.quiet)) ∧
  (∀ (d : Die) (f : Frame) (s : State),
      s.FabOpen d (f.src % 4096) →
      coreBypass s d = false →
      badFrame s d f true = none →
      f.op = 12 →
      maySession s d = true →
      ctxUp s d (f.src % 4096) = false →
      (ctx s d (f.src % 4096)).st = .connecting → (f.src % 4096) ≤ nodeId s →
      s.NoReqs d →
      AnswersWith (exec (.hello d f true false) s) (fun t => ctxUp t d (f.src % 4096) = true ∧ (ctx t d (f.src % 4096)).session = f.arg % 16 ∧ (ctx t d (f.src % 4096)).expect = f.seq ∧ (ctx t d (f.src % 4096)).unacked = [] ∧ (ctx t d (f.src % 4096)).held = [] ∧ Told s t 0x0203 0 ∧ t.freeCtr = s.freeCtr + 1 ∧
        SentFrame t d (fun g => g.op == 13 && g.arg == f.arg % 16 && g.session == f.arg % 16 && g.seq == (ctx t d (f.src % 4096)).nextSeq && g.ack == f.seq) ∧ t.ops = s.ops ∧ t.dev = s.dev)) ∧
  (∀ (d : Die) (f : Frame) (s : State),
      s.FabOpen d (f.src % 4096) →
      coreBypass s d = false →
      badFrame s d f true = none →
      f.op = 13 →
      (ctx s d (f.src % 4096)).st = .connecting →
      f.arg % 16 = (ctx s d (f.src % 4096)).session →
      AnswersWith (exec (.helloAck d f true false) s) (fun t => ctxUp t d (f.src % 4096) = true ∧ (ctx t d (f.src % 4096)).session = (ctx s d (f.src % 4096)).session ∧ (ctx t d (f.src % 4096)).expect = f.seq ∧ (ctx t d (f.src % 4096)).timeouts = 0 ∧ Told s t 0x0203 0 ∧
        onFpc d (fun _ => FpcSt.reset) t.quiet = onFpc d (fun _ => FpcSt.reset) s.quiet)) ∧
  (∀ (d : Die) (f : Frame) (s : State),
      s.FabOpen d (f.src % 4096) →
      coreBypass s d = false →
      badFrame s d f true = none →
      f.op = 1 →
      ctxUp s d (f.src % 4096) = false ∨ f.session ≠ (ctx s d (f.src % 4096)).session →
      exec (.readReq d f true false) s = .next (addCount d .FPC 7 1 (addCount d .FPC 1 1 s))) ∧
  (∀ (d : Die) (f : Frame) (s : State),
      s.FabOpen d (f.src % 4096) →
      coreBypass s d = false →
      badFrame s d f true = none →
      f.op = 2 →
      ctxUp s d (f.src % 4096) = false ∨ f.session ≠ (ctx s d (f.src % 4096)).session →
      exec (.readResp d f true false) s = .next (addCount d .FPC 7 1 (addCount d .FPC 1 1 s))) ∧
  (∀ (d : Die) (f : Frame) (s : State),
      s.FabOpen d (f.src % 4096) →
      coreBypass s d = false →
      badFrame s d f true = none →
      f.op = 3 →
      ctxUp s d (f.src % 4096) = false ∨ f.session ≠ (ctx s d (f.src % 4096)).session →
      exec (.writeReq d f true false) s = .next (addCount d .FPC 7 1 (addCount d .FPC 1 1 s))) ∧
  (∀ (d : Die) (f : Frame) (s : State),
      s.FabOpen d (f.src % 4096) →
      coreBypass s d = false →
      badFrame s d f true = none →
      f.op = 0 →
      ctxUp s d (f.src % 4096) = false ∨ f.session ≠ (ctx s d (f.src % 4096)).session →
      exec (.ack d f true false) s = .next (addCount d .FPC 7 1 (addCount d .FPC 1 1 s))) ∧
  (∀ (d : Die) (f : Frame) (sci : Bool) (s : State),
      s.Idle →
      coreBypass s d = false →
      canReceive s d (f.src % 4096) = true →
      AnswersWith (exec (.writeReq d f sci true) s) (fun t => rf t F.FPC_STATUS.MACSEC_DROP d 0 = 1 ∧ countOf t d .FPC 6 = satAdd 32 (countOf s d .FPC 6) 1 ∧ t.quiet = s.quiet)) ∧
  (∀ (d : Die) (f : Frame) (k : Nat) (sci : Bool) (s : State),
      s.FabOpen d (f.src % 4096) →
      coreBypass s d = false →
      badFrame s d { f with op := 3 } sci = some k →
      AnswersWith (exec (.writeReq d f sci false) s) (fun t => rf t F.FPC_STATUS.BAD_FRAME d 0 = 1 ∧ countOf t d .FPC 7 = satAdd 32 (countOf s d .FPC 7) 1 ∧ t.quiet = s.quiet)) ∧
  (∀ (d : Die) (f : Frame) (s : State),
      s.Hears d f →
      f.op = 3 →
      1 ≤ seqDist (ctx s d (f.src % 4096)).expect f.seq →
      seqDist (ctx s d (f.src % 4096)).expect f.seq ≤ 64 →
      (nget (ctx s d (f.src % 4096)).held f.seq).isNone = true →
      (ctx s d (f.src % 4096)).unacked = [] →
      (ctx s d (f.src % 4096)).waiting = [] →
      (ctx s d (f.src % 4096)).unreported < 15 →
      storeBytes s d + f.payload.length ≤ 2 ^ 21 →
      (ctx s d (f.src % 4096)).expect < 2 ^ 24 →
      f.seq < 2 ^ 24 →
      exec (.writeReq d f true false) s = .next (onCtx d (f.src % 4096) (fun c => { c with held := nset c.held f.seq f, unreported := c.unreported + 1, heardNs := s.nowNs }) (addCount d .FPC 1 1 s)))

/-- Chapter 11 (R272): at a retransmit timeout every unacknowledged frame goes out again, and the UNREACH_N-th in a row makes the peer UNREACHABLE, its requests failing; what has arrived is acknowledged in time. R273, R280: CONNECTING and UNREACHABLE contexts send HELLO. R274, R278: an UP context that is idle sends HEARTBEAT; silence makes it UNREACHABLE. -/
def Obligations.FabricTimersResendAndGiveUp : Prop :=
  (∀ (d : Die) (n : Nat) (g : Frame) (s : State),
      s.FabOpen d n →
      ctxUp s d n = true →
      s.dev.mode ≠ .hold →
      coreBypass s d = false →
      (ctx s d n).unacked = [g] →
      (ctx s d n).timeouts + 1 < clamp 2 63 (rf s F.FPC_TIMER_CFG.UNREACH_N d 0) →
      AnswersWith (exec (.retransmitTimeout d n) s) (fun t => (ctx t d n).timeouts = (ctx s d n).timeouts + 1 ∧ (ctx t d n).unacked = [g] ∧ (ctx t d n).retx = satAdd 16 (ctx s d n).retx 1 ∧ (ctx t d n).st = .up ∧ countOf t d .FPC 3 = satAdd 32 (countOf s d .FPC 3) 1 ∧ countOf t d .FPC 2 = satAdd 32 (countOf s d .FPC 2) 1 ∧
        SentFrame t d (fun h => h.retx && h.seq == g.seq && h.op == g.op && h.tag == g.tag && h.arg == g.arg && decide (h.payload = g.payload) && h.ack == (ctx s d n).expect) ∧ onFpc d (fun _ => FpcSt.reset) t.quiet = onFpc d (fun _ => FpcSt.reset) s.quiet)) ∧
  (∀ (d : Die) (n : Nat) (s : State),
      s.FabOpen d n →
      ctxUp s d n = true →
      s.NoReqs d →
      s.dev.mode ≠ .hold →
      coreBypass s d = false →
      (ctx s d n).unacked ≠ [] →
      clamp 2 63 (rf s F.FPC_TIMER_CFG.UNREACH_N d 0) ≤ (ctx s d n).timeouts + 1 →
      AnswersWith (exec (.retransmitTimeout d n) s) (fun t => (ctx t d n).st = .unreachable ∧ (ctx t d n).unacked = [] ∧ (ctx t d n).held = [] ∧ (ctx t d n).session = (ctx s d n).session ∧ rf t F.FPC_STATUS.PEER_LOST d 0 = 1 ∧ Told s t 0x0204 3 ∧ countOf t d .FPC 3 = satAdd 32 (countOf s d .FPC 3) 1)) ∧
  (∀ (d : Die) (n : Nat) (s : State),
      s.FabOpen d n →
      ctxUp s d n = true →
      s.NoReqs d →
      s.dev.mode ≠ .hold →
      AnswersWith (exec (.peerSilence d n) s) (fun t => (ctx t d n).st = .unreachable ∧ (ctx t d n).unacked = [] ∧ (ctx t d n).waiting = [] ∧ (ctx t d n).held = [] ∧ (ctx t d n).en = (ctx s d n).en ∧ rf t F.FPC_STATUS.PEER_LOST d 0 = 1 ∧ Told s t 0x0204 3 ∧ onFpc d (fun _ => FpcSt.reset) t.quiet = onFpc d (fun _ => FpcSt.reset) s.quiet)) ∧
  (∀ (d : Die) (n tag : Nat) (p : Die) (r : PeerReq) (o : OpSt) (m : Nat) (s : State),
      s.FabOpen d n →
      ctxUp s d n = true →
      s.dev.mode ≠ .hold →
      (die s d).fpc.outq = [] →
      (ctx s d n).reqs = [r] →
      r.waiter = .op m →
      nget s.ops m = some o →
      o.job = .read →
      o.asker = .host p tag →
      o.want = [0] →
      o.track = none →
      AnswersWith (exec (.peerSilence d n) s) (fun t => (ctx t d n).st = .unreachable ∧ (ctx t d n).reqs = [] ∧ t.out.any (fun x => decide (x = .hostCpl p tag (some poisoned) o.cmp)) = true ∧ t.ops = nerase s.ops m)) ∧
  (∀ (d : Die) (n : Nat) (s : State),
      s.FabOpen d n →
      ctxUp s d n = true →
      coreBypass s d = false →
      0 < (ctx s d n).unreported →
      AnswersWith (exec (.ackDelayExpire d n) s) (fun t => (ctx t d n).unreported = 0 ∧ (ctx t d n).sentNs = s.nowNs ∧ SentFrame t d (fun h => h.op == 0 && h.ack == (ctx s d n).expect && h.sack == sackOf (ctx s d n) && h.session == (ctx s d n).session) ∧ onFpc d (fun _ => FpcSt.reset) t.quiet = onFpc d (fun _ => FpcSt.reset) s.quiet)) ∧
  (∀ (d : Die) (n : Nat) (s : State),
      s.FabOpen d n →
      (ctx s d n).st = .connecting →
      s.dev.mode ≠ .hold →
      maySession s d = true →
      AnswersWith (exec (.helloTimer d n) s) (fun t => (ctx t d n).st = .connecting ∧ (ctx t d n).session = ((ctx s d n).session + 1) % 16 ∧ t.freeCtr = s.freeCtr + 1 ∧ SentFrame t d (fun h => h.op == 12 && h.arg == ((ctx s d n).session + 1) % 16 && h.seq == (ctx t d n).nextSeq && h.dst == n + 4096 * (ctx s d n).port) ∧ t.ops = s.ops)) ∧
  (∀ (d : Die) (n : Nat) (s : State),
      s.FabOpen d n →
      (ctx s d n).st = .unreachable →
      s.dev.mode ≠ .hold →
      maySession s d = true →
      AnswersWith (exec (.probeTimer d n) s) (fun t => (ctx t d n).st = .unreachable ∧ (ctx t d n).session = ((ctx s d n).session + 1) % 16 ∧ t.freeCtr = s.freeCtr + 1 ∧ SentFrame t d (fun h => h.op == 12 && h.arg == ((ctx s d n).session + 1) % 16 && h.seq == (ctx t d n).nextSeq && h.dst == n + 4096 * (ctx s d n).port) ∧ t.ops = s.ops)) ∧
  (∀ (d : Die) (n : Nat) (s : State),
      s.FabOpen d n →
      ctxUp s d n = true →
      AnswersWith (exec (.heartbeatSend d n) s) (fun t => SentFrame t d (fun h => h.op == 14 && h.ack == (ctx s d n).expect && h.session == (ctx s d n).session) ∧ (ctx t d n).sentNs = s.nowNs ∧ (ctx t d n).unacked = (ctx s d n).unacked ∧ onFpc d (fun _ => FpcSt.reset) t.quiet = onFpc d (fun _ => FpcSt.reset) s.quiet))

/-- Chapter 11 (R273, R280): FPC_PEER_CTRL with EN = 1 enables the context that FPC_PEER_SEL names, which connects; with RESET it ends its session and reconnects; with EN = 0 it is DOWN. R269, R433: FPC_NODE is one register seen through both windows. R278, R450: an Ethernet link that goes down, or whose FREF is lost, makes every enabled context UNREACHABLE and, on an enabled port, gives DEG_FPORT; a lost secure channel loses its peer. -/
def Obligations.PeerContextsAreEnabledAndLost : Prop :=
  (∀ (d : Die) (v : Word) (s : State),
      s.Idle →
      verdict s .FPC d false = .take →
      fabPresent s d = true →
      (ctx s d (rf s F.FPC_PEER_SEL.NODE d 0)).en = false →
      rf s F.FPC_PEER_SEL.NODE d 0 ≠ nodeId s →
      AnswersWith (exec (.peerEnable d v) s) (fun t => (ctx t d (rf s F.FPC_PEER_SEL.NODE d 0)).en = true ∧ (ctx t d (rf s F.FPC_PEER_SEL.NODE d 0)).st = .connecting ∧ (ctx t d (rf s F.FPC_PEER_SEL.NODE d 0)).port = fld v.toNat 17 1 ∧
        (ctx t d (rf s F.FPC_PEER_SEL.NODE d 0)).big = bitn v.toNat 18 ∧ (ctx t d (rf s F.FPC_PEER_SEL.NODE d 0)).mac = setFld (ctx s d (rf s F.FPC_PEER_SEL.NODE d 0)).mac 32 16 (fld v.toNat 0 16) ∧ t.ops = s.ops ∧ t.dev = s.dev)) ∧
  (∀ (d : Die) (v : Word) (s : State),
      s.FabOpen d (rf s F.FPC_PEER_SEL.NODE d 0) →
      s.NoReqs d →
      verdict s .FPC d false = .take →
      maySession s d = true →
      (ctx s d (rf s F.FPC_PEER_SEL.NODE d 0)).en = true →
      AnswersWith (exec (.peerCtrlReset d v) s) (fun t => (ctx t d (rf s F.FPC_PEER_SEL.NODE d 0)).st = .connecting ∧ (ctx t d (rf s F.FPC_PEER_SEL.NODE d 0)).en = true ∧ (ctx t d (rf s F.FPC_PEER_SEL.NODE d 0)).unacked = [] ∧
        (ctx t d (rf s F.FPC_PEER_SEL.NODE d 0)).session = ((ctx s d (rf s F.FPC_PEER_SEL.NODE d 0)).session + 1) % 16 ∧ SentFrame t d (fun h => h.op == 12) ∧ t.ops = s.ops ∧ t.dev = s.dev)) ∧
  (∀ (d : Die) (v : Word) (s : State),
      s.Idle →
      s.NoReqs d →
      verdict s .FPC d false = .take →
      (ctx s d (rf s F.FPC_PEER_SEL.NODE d 0)).en = true →
      AnswersWith (exec (.peerDisable d v) s) (fun t => (ctx t d (rf s F.FPC_PEER_SEL.NODE d 0)).st = .down ∧ (ctx t d (rf s F.FPC_PEER_SEL.NODE d 0)).en = false ∧ (ctx t d (rf s F.FPC_PEER_SEL.NODE d 0)).unacked = [] ∧ (ctx t d (rf s F.FPC_PEER_SEL.NODE d 0)).mac = (ctx s d (rf s F.FPC_PEER_SEL.NODE d 0)).mac ∧ t.out = s.out ∧ t.regs = s.regs)) ∧
  (∀ (d : Die) (v : Word) (s : State),
      verdict s .FPC d false = .take →
      rfc s F.DEV_MODE.LOCKED = 0 →
      AnswersWith (exec (.nodeWrite d v) s) (fun t => (∀ x : Die, rf t F.FPC_NODE.NODE x 0 = fld v.toNat 0 12 ∧ rf t F.FPC_NODE.FABRIC_EN x 0 = fld v.toNat 16 1) ∧ { t with regs := s.regs } = s)) ∧
  (∀ (d : Die) (s : State),
      s.Idle →
      s.NoReqs d →
      fabPresent s d = true →
      rfb s F.FPC_LINK_STATUS.UP d 0 = true →
      nwf (die s d).fpc.ctxs = true →
      AnswersWith (exec (.ethLinkDown d) s) (fun t => rf t F.FPC_LINK_STATUS.UP d 0 = 0 ∧ rf t F.FPC_LINK_STATUS.SECURE d 0 = 0 ∧ rf t F.FPC_STATUS.LINK_DOWN d 0 = 1 ∧ Told s t 0x0201 3 ∧ (rfb s F.FPC_PORT_CFG.EN d 0 = true → rfc t F.DEV_STATUS.DEG_FPORT = 1) ∧
        (die t d).fpc.ctxs.all (fun p => !p.2.en || (p.2.st != .up && p.2.st != .connecting)) = true ∧ t.ops = s.ops)) ∧
  (∀ (d : Die) (s : State),
      s.Idle →
      s.NoReqs d →
      fabPresent s d = true →
      rfb s F.FPC_LINK_STATUS.UP d 0 = true →
      nwf (die s d).fpc.ctxs = true →
      AnswersWith (exec (.frefLost d) s) (fun t => rf t F.FPC_LINK_STATUS.UP d 0 = 0 ∧ rf t F.FPC_LINK_STATUS.SECURE d 0 = 0 ∧ rf t F.FPC_STATUS.LINK_DOWN d 0 = 1 ∧ Told s t 0x0201 3 ∧ (rfb s F.FPC_PORT_CFG.EN d 0 = true → rfc t F.DEV_STATUS.DEG_FPORT = 1) ∧
        (die t d).fpc.ctxs.all (fun p => !p.2.en || (p.2.st != .up && p.2.st != .connecting)) = true ∧ t.ops = s.ops)) ∧
  (∀ (d : Die) (s : State),
      s.Idle →
      fabPresent s d = true →
      rfb s F.FPC_PORT_CFG.EN d 0 = true →
      rfb s F.FPC_LINK_STATUS.UP d 0 = false →
      fenced s d = false →
      s.dev.mode ≠ .boot →
      s.dev.mode ≠ .hold →
      AnswersWith (exec (.ethLinkUp d) s) (fun t => rf t F.FPC_LINK_STATUS.UP d 0 = 1 ∧ Told s t 0x0202 0 ∧ (die t d).fpc = (die s d).fpc ∧ t.ops = s.ops)) ∧
  (∀ (d : Die) (n : Nat) (s : State),
      s.Idle →
      s.NoReqs d →
      fabPresent s d = true →
      (die s d).fpc.channels.contains n = true →
      ctxUp s d n = true →
      AnswersWith (exec (.macsecScLost d n) s) (fun t => (die t d).fpc.channels = (die s d).fpc.channels.filter (· != n) ∧ (ctx t d n).st = .unreachable ∧ (∀ j, j ≠ n → ctx t d j = ctx s d j) ∧ rf t F.FPC_STATUS.PEER_LOST d 0 = 1 ∧ Told s t 0x0204 3 ∧ onFpc d (fun _ => FpcSt.reset) t.quiet = onFpc d (fun _ => FpcSt.reset) s.quiet))

/-- Chapter 11 (R277, R281): a REMOTE_READ or REMOTE_WRITE of a host buffer with an UP context sends one request for each part between 4 KiB boundaries; with none it completes PEER_DOWN. PEER_QUERY and PEER_RESET complete at once. R283: an armed injection starts its count at 0; a held frame goes on alone when its time is over. -/
def Obligations.RemoteDescriptorsAndFrameInjections : Prop :=
  (∀ (d : Die) (e : Desc) (a : Nat) (s : State),
      s.Runs d e 0x90 →
      e.phase = 0 →
      remFieldsOk s e = true →
      remLocal e = ⟨false, a⟩ →
      placeStatus s ⟨false, a⟩ (remLen e) true = 0 →
      remParts e = [(0, remLen e)] →
      outPort s d (remNode e) = some d →
      inFlight s d < 8192 →
      s.FabOpen d (remNode e) →
      (ctx s d (remNode e)).unacked.length < 1024 →
      AnswersWith (exec (.remoteRead d e.sq e.seq) s) (fun t => SentFrame t d (fun f => f.op == 1 && f.arg == remDla e && f.len == remLen e && f.seq == (ctx s d (remNode e)).nextSeq && f.tag == (ctx s d (remNode e)).nextTag) ∧
        (ctx t d (remNode e)).reqs = (ctx s d (remNode e)).reqs ++ [⟨(ctx s d (remNode e)).nextTag, 1, .desc d e.sq e.seq 0, remDla e, remLen e, []⟩] ∧ startedDesc t d e.sq e.seq = some { e with phase := 1, left := 1 } ∧ (ctx t d (remNode e)).nextSeq = ((ctx s d (remNode e)).nextSeq + 1) % 2 ^ 24)) ∧
  (∀ (d : Die) (e : Desc) (a : Nat) (l : LineData) (s : State),
      s.Runs d e 0x91 →
      e.phase = 0 →
      remFieldsOk s e = true →
      remLocal e = ⟨false, a⟩ →
      placeStatus s ⟨false, a⟩ (remLen e) false = 0 →
      remLen e = 64 →
      outPort s d (remNode e) = some d →
      inFlight s d < 8192 →
      s.FabOpen d (remNode e) →
      (ctx s d (remNode e)).unacked.length < 1024 →
      AnswersWith (exec (.remoteWrite d e.sq e.seq [l]) s) (fun t => SentFrame t d (fun f => f.op == 3 && f.arg == remDla e && f.len == 64 && decide (frameLines f = [l]) && f.seq == (ctx s d (remNode e)).nextSeq && !f.more) ∧
        (ctx t d (remNode e)).reqs = (ctx s d (remNode e)).reqs ++ [⟨(ctx s d (remNode e)).nextTag, 3, .desc d e.sq e.seq 0, remDla e, 64, []⟩] ∧ (startedDesc t d e.sq e.seq).any (fun x => x.phase == 1 && x.left == 1) = true)) ∧
  (∀ (d : Die) (e : Desc) (a : Nat) (s : State),
      s.Runs d e 0x90 →
      e.phase = 0 →
      remFieldsOk s e = true →
      remLocal e = ⟨false, a⟩ →
      placeStatus s ⟨false, a⟩ (remLen e) true = 0 →
      outPort s d (remNode e) = none →
      AnswersWith (exec (.remoteRead d e.sq e.seq) s) (fun t => Completed s t d e 0x40 0 0 ∧ butRings d t = butRings d s)) ∧
  (∀ (d : Die) (e : Desc) (s : State),
      s.Runs d e 0x92 →
      peerFieldsOk s e = true →
      AnswersWith (exec (.peerQuery d e.sq e.seq) s) (fun t => Completed s t d e 0 (ctxStateNum (ctx s (dieOf (e.num 28 1)) (e.num 8 8)).st + 16 * (ctx s (dieOf (e.num 28 1)) (e.num 8 8)).session + 256 * min (ctx s (dieOf (e.num 28 1)) (e.num 8 8)).reqs.length 65535) (ctx s (dieOf (e.num 28 1)) (e.num 8 8)).retx ∧ butRings d t = butRings d s)) ∧
  (∀ (d : Die) (e : Desc) (s : State),
      s.Runs d e 0x93 →
      peerFieldsOk s e = true →
      s.NoReqs (dieOf (e.num 28 1)) →
      (ctx s (dieOf (e.num 28 1)) (e.num 8 8)).en = true →
      AnswersWith (exec (.peerReset d e.sq e.seq) s) (fun t => Completed s t d e 0 0 0 ∧ (ctx t (dieOf (e.num 28 1)) (e.num 8 8)).st = .connecting ∧ (ctx t (dieOf (e.num 28 1)) (e.num 8 8)).unacked = [] ∧ (ctx t (dieOf (e.num 28 1)) (e.num 8 8)).en = true)) ∧
  (∀ (d : Die) (v : Word) (s : State),
      verdict s .FPC d false = .take →
      AnswersWith (exec (.fpcInjArm d v) s) (fun t => rf t F.FPC_INJ_CTRL.ARMED d 0 = 1 ∧ rf t F.FPC_INJ_COUNT.COUNT d 0 = 0 ∧ [F.FPC_INJ_CTRL.MODE, F.FPC_INJ_CTRL.KIND, F.FPC_INJ_CTRL.DIR, F.FPC_INJ_CTRL.RATE, F.FPC_INJ_CTRL.DELAY_US].all (fun (x : Fld) => rf t x d 0 == fld v.toNat x.lo x.w) = true ∧ (die t d).fpc = { (die s d).fpc with injSeen := 0 } ∧ t.out = s.out)) ∧
  (∀ (d : Die) (s : State),
      verdict s .FPC d false = .take →
      exec (.fpcInjDisarm d) s = .next (wf F.FPC_INJ_CTRL.ARMED d 0 0 s)) ∧
  (∀ (d : Die) (n : Nat) (f : Frame) (s : State),
      s.Idle →
      canSend s d n = true →
      (die s d).fpc.swapped = some ⟨false, n, f, true⟩ →
      (die s d).fpc.pn < 2 ^ 62 - 2 →
      AnswersWith (exec (.reorderHoldExpire d) s) (fun t => (die t d).fpc.swapped = none ∧ SentFrame t d (fun g => decide (g = f)) ∧ countOf t d .FPC 0 = satAdd 32 (countOf s d .FPC 0) 1 ∧ (die t d).fpc.pn = (die s d).fpc.pn + 1)) ∧
  (∀ (d : Die) (n : Nat) (f : Frame) (hs : List HeldFrame) (s : State),
      s.Idle →
      canSend s d n = true →
      (die s d).fpc.delayed = ⟨false, n, f, true⟩ :: hs →
      (die s d).fpc.pn < 2 ^ 62 - 2 →
      AnswersWith (exec (.injDelayExpire d) s) (fun t => (die t d).fpc.delayed = hs ∧ SentFrame t d (fun g => decide (g = f)) ∧ countOf t d .FPC 0 = satAdd 32 (countOf s d .FPC 0) 1 ∧ (die t d).fpc.pn = (die s d).fpc.pn + 1))

/-- Chapter 12 (R289, R290): a well-formed doorbell write of a ring that a die has enabled moves the tail, or the head; one that is not is flagged, counted, and moves nothing. R298: an interrupt that COUNT has not sent goes when TIME_US are over. R285 to R287, R301: an enable that breaks no rule starts the ring from 0; one that does is refused with its REASON; a disable completes what has not started as ABORTED. -/
def Obligations.DoorbellsInterruptsAndRingControl : Prop :=
  (∀ (p d : Die) (n v : Nat) (s : State),
      diePresent s p = true →
      portUp s p = true →
      ringOwner s .sq n = some d →
      doorbellIndex s .sq d n v 4 = some v →
      n < 256 →
      (sqOf s d n).tailSeq + (v + sqSize s d n - (sqOf s d n).tailSeq % sqSize s d n) % sqSize s d n - (sqOf s d n).oldest ≤ sqSize s d n - 1 →
      AnswersWith (exec (.sqTailDoorbell p n v 4) s) (fun t => rf t F.CPR_SQ_PTR.TAIL d n = v ∧ sqOf t d n = { sqOf s d n with tailSeq := (sqOf s d n).tailSeq + (v + sqSize s d n - (sqOf s d n).tailSeq % sqSize s d n) % sqSize s d n } ∧ (∀ k, k ≠ n → sqOf t d k = sqOf s d k) ∧ butRings d t = butRings d s)) ∧
  (∀ (p d : Die) (n v : Nat) (s : State),
      diePresent s p = true →
      portUp s p = true →
      ringOwner s .cq n = some d →
      doorbellIndex s .cq d n v 4 = some v →
      n < 256 →
      headFits (ringSize (rf s F.CPR_CQ_CTRL.LOG2SIZE d n)) (rf s F.CPR_CQ_PTR.HEAD d n) (rf s F.CPR_CQ_PTR.TAIL d n) v = true →
      AnswersWith (exec (.cqHeadDoorbell p n v 4) s) (fun t => rf t F.CPR_CQ_PTR.HEAD d n = v ∧ rf t F.CPR_CQ_PTR.TAIL d n = rf s F.CPR_CQ_PTR.TAIL d n ∧ (cqOf t d n).waiting = (cqOf s d n).waiting ∧ butRings d t = butRings d s)) ∧
  (∀ (p d : Die) (n v : Nat) (s : State),
      diePresent s p = true →
      portUp s p = true →
      ringOwner s .eq n = some d →
      doorbellIndex s .eq d n v 4 = some v →
      n < 4 →
      headFits (ringSize (rf s F.CPR_EQ_CTRL.LOG2SIZE d n)) (rf s F.CPR_EQ_PTR.HEAD d n) (rf s F.CPR_EQ_PTR.TAIL d n) v = true →
      d = p →
      rf s F.CPR_EQ_LOST.COUNT d n = 0 →
      exec (.eqHeadDoorbell p n v 4) s = .next (wf F.CPR_EQ_PTR.HEAD d n v s)) ∧
  (∀ (p d : Die) (n v : Nat) (s : State),
      diePresent s p = true →
      portUp s p = true →
      ringOwner s .eq n = some d →
      doorbellIndex s .eq d n v 4 = some v →
      n < 4 →
      headFits (ringSize (rf s F.CPR_EQ_CTRL.LOG2SIZE d n)) (rf s F.CPR_EQ_PTR.HEAD d n) (rf s F.CPR_EQ_PTR.TAIL d n) v = true →
      d = p →
      0 < rf s F.CPR_EQ_LOST.COUNT d n →
      (rf s F.CPR_EQ_PTR.TAIL d n + 1) % ringSize (rf s F.CPR_EQ_CTRL.LOG2SIZE d n) ≠ v →
      AnswersWith (exec (.eqHeadDoorbell p n v 4) s) (fun t => rf t F.CPR_EQ_PTR.HEAD d n = v ∧ rf t F.CPR_EQ_LOST.COUNT d n = 0 ∧ t.sideband = s.sideband ∧
        t.out.any (fun m => decide (m = .hostWrite d (ringBase s F.CPR_EQ_BASE_LO.BASE_LO F.CPR_EQ_BASE_HI.BASE_HI d n + 32 * rf s F.CPR_EQ_PTR.TAIL d n) (eventBytes ⟨stampNs s d, 0x0F04, 0, locDie d, packDetails [it1 n, it4 (rf s F.CPR_EQ_LOST.COUNT d n)]⟩ (rfb s F.CPR_EQ_CTRL.PHASE d n)) false)) = true)) ∧
  (∀ (p : Die) (n v size : Nat) (s : State),
      diePresent s p = true →
      portUp s p = true →
      size ≠ 4 ∨ 65536 ≤ v ∨ (ringOwner s .sq n).isNone = true →
      ringOwner s .sq n = none ∨ ringOwner s .sq n = some p →
      AnswersWith (exec (.sqTailDoorbell p n v size) s) (fun t => rf t F.CPR_STATUS.BAD_DB p 0 = 1 ∧ countOf t p .CPR 3 = satAdd 32 (countOf s p .CPR 3) 1 ∧ t.quiet = s.quiet)) ∧
  (∀ (d : Die) (n : Nat) (s : State),
      rfb s F.CPR_CQ_CTRL.IRQ_EN d n = true →
      0 < (cqOf s d n).sinceIrq →
      (die s d).hpc.msixMask.contains (rf s F.CPR_CQ_CTRL.VECTOR d n) = false →
      AnswersWith (exec (.irqTimeExpire d false n) s) (fun t => t.out = s.out ++ [.msix d (rf s F.CPR_CQ_CTRL.VECTOR d n)] ∧ (cqOf t d n).sinceIrq = 0 ∧ t.regs = s.regs ∧ butRings d t = butRings d s)) ∧
  (∀ (d : Die) (n : Nat) (s : State),
      rfb s F.CPR_EQ_CTRL.IRQ_EN d n = true →
      0 < (eqOf s d n).sinceIrq →
      (die s d).hpc.msixMask.contains (rf s F.CPR_EQ_CTRL.VECTOR d n) = true →
      AnswersWith (exec (.irqTimeExpire d true n) s) (fun t => t.out = s.out ∧ (die t d).hpc.msixPend.contains (rf s F.CPR_EQ_CTRL.VECTOR d n) = true ∧ (eqOf t d n).sinceIrq = 0 ∧ t.regs = s.regs ∧ butRings d t = butRings d s)) ∧
  (∀ (d : Die) (n : Nat) (s : State),
      (cqOf s d n).fullNs.isSome = true →
      (cqOf s d n).stallPosted = false →
      AnswersWith (exec (.cqStall d n) s) (fun t => (cqOf t d n).stallPosted = true ∧ (cqOf t d n).waiting = (cqOf s d n).waiting ∧ Told s t 0x0F06 0 ∧ butRings d t = butRings d s)) ∧
  (∀ (d : Die) (n : Nat) (s : State),
      verdict s .CPR d false = .take →
      n < 256 →
      rfb s F.CPR_SQ_CTRL.EN d n = false →
      enableReason s .sq d n = none →
      AnswersWith (exec (.sqEnable d n) s) (fun t => sqOf t d n = ⟨[], [], firstSeq (sqOf s d n), firstSeq (sqOf s d n), firstSeq (sqOf s d n)⟩ ∧ rf t F.CPR_SQ_CTRL.EN d n = 1 ∧ rf t F.CPR_SQ_CTRL.ERROR d n = 0 ∧ rf t F.CPR_SQ_PTR.HEAD d n = 0 ∧ rf t F.CPR_SQ_PTR.TAIL d n = 0 ∧ t.out = s.out ∧ butRings d t = butRings d s)) ∧
  (∀ (d : Die) (n : Nat) (s : State),
      verdict s .CPR d false = .take →
      n < 256 →
      rfb s F.CPR_CQ_CTRL.EN d n = false →
      enableReason s .cq d n = none →
      AnswersWith (exec (.cqEnable d n) s) (fun t => cqOf t d n = CqSt.reset ∧ rf t F.CPR_CQ_CTRL.PHASE d n = 1 ∧ rf t F.CPR_CQ_CTRL.EN d n = 1 ∧ rf t F.CPR_CQ_CTRL.ERROR d n = 0 ∧ rf t F.CPR_CQ_PTR.HEAD d n = 0 ∧ rf t F.CPR_CQ_PTR.TAIL d n = 0 ∧ t.out = s.out ∧ butRings d t = butRings d s)) ∧
  (∀ (d : Die) (n : Nat) (s : State),
      verdict s .CPR d false = .take →
      n < 4 →
      rfb s F.CPR_EQ_CTRL.EN d n = false →
      enableReason s .eq d n = none →
      AnswersWith (exec (.eqEnable d n) s) (fun t => eqOf t d n = CqSt.reset ∧ rf t F.CPR_EQ_CTRL.PHASE d n = 1 ∧ rf t F.CPR_EQ_LOST.COUNT d n = 0 ∧ rf t F.CPR_EQ_CTRL.EN d n = 1 ∧ rf t F.CPR_EQ_CTRL.ERROR d n = 0 ∧ rf t F.CPR_EQ_PTR.HEAD d n = 0 ∧ rf t F.CPR_EQ_PTR.TAIL d n = 0 ∧ t.out = s.out ∧ butRings d t = butRings d s)) ∧
  (∀ (d : Die) (n r : Nat) (s : State),
      verdict s .CPR d false = .take →
      n < 256 →
      rfb s F.CPR_SQ_CTRL.EN d n = false →
      enableReason s .sq d n = some r →
      AnswersWith (exec (.sqEnable d n) s) (fun t => rf t F.CPR_STATUS.RING_REFUSED d 0 = 1 ∧ rf t F.CPR_STATUS.REASON d 0 = r ∧ rf t F.CPR_SQ_CTRL.EN d n = 0 ∧ Told s t 0x0F05 0 ∧ t.quiet = s.quiet)) ∧
  (∀ (d : Die) (n : Nat) (e : Desc) (s : State),
      verdict s .CPR d false = .take →
      n < 256 →
      rfb s F.CPR_SQ_CTRL.EN d n = true →
      e.sq = n →
      (sqOf s d n).fetched = [e] →
      e.quiet = false →
      rfb s F.CPR_SQ_CTRL.ERROR d n = false →
      rfb s F.CPR_CQ_CTRL.EN d (sqCq s d n) = true →
      rfb s F.CPR_CQ_CTRL.ERROR d (sqCq s d n) = false →
      AnswersWith (exec (.sqDisable d n) s) (fun t => rf t F.CPR_SQ_CTRL.EN d n = 0 ∧ rf t F.CPR_SQ_CTRL.BUSY d n = 1 ∧ (sqOf t d n).fetched = [] ∧ (cqOf t d (sqCq s d n)).waiting = (cqOf s d (sqCq s d n)).waiting ++ [⟨n, e.seq, e.tag, 7, 0, 0, false, e.irqNow⟩] ∧ butRings d t = butRings d s)) ∧
  (∀ (d : Die) (n : Nat) (s : State),
      verdict s .CPR d false = .take →
      n < 256 →
      rfb s F.CPR_CQ_CTRL.EN d n = true →
      (List.range 256).any (fun k => rfb s F.CPR_SQ_CTRL.EN d k && sqCq s d k == n) = false →
      (List.range 256).any (fun k => rfb s F.CPR_SQ_CTRL.BUSY d k && sqCq s d k == n) = false →
      (cqOf s d n).waiting = [] →
      AnswersWith (exec (.cqDisable d n) s) (fun t => rf t F.CPR_CQ_CTRL.EN d n = 0 ∧ rf t F.CPR_CQ_CTRL.BUSY d n = 0 ∧ { t with regs := s.regs } = s)) ∧
  (∀ (d : Die) (n : Nat) (s : State),
      verdict s .CPR d false = .take →
      n < 256 →
      rfb s F.CPR_CQ_CTRL.EN d n = true →
      (List.range 256).any (fun k => rfb s F.CPR_SQ_CTRL.EN d k && sqCq s d k == n) = true →
      AnswersWith (exec (.cqDisable d n) s) (fun t => rf t F.CPR_CQ_CTRL.EN d n = 1 ∧ rf t F.CPR_STATUS.REASON d 0 = 5 ∧ t.quiet = s.quiet)) ∧
  (∀ (d : Die) (n : Nat) (s : State),
      verdict s .CPR d false = .take →
      exec (.eqDisable d n) s = .next (wf F.CPR_EQ_CTRL.EN d n 0 s))

/-- Chapter 12 (R291 to R293): a fetched descriptor that passes the checks of Table 12.4 and need not wait starts; one that fails a check completes with its status. R295 to R297: the completion that waits longest is written at the tail with the pass's phase. R302: a fetch or a completion write that fails puts its ring in ERROR. R303: MEM_COPY and MEM_FILL. -/
def Obligations.DescriptorsAreFetchedRunAndCompleted : Prop :=
  (∀ (d : Die) (n : Nat) (b : Line) (s : State),
      s.Idle →
      n < 256 →
      mayFetch s d n = true →
      (sqOf s d n).fetched = [] →
      rfc s F.SEC_POLICY.LOCKDOWN = 0 →
      fenceOpen s d ⟨n, (sqOf s d n).next, b, 0, 0, [], [], []⟩ = true →
      descCheck s d ⟨n, (sqOf s d n).next, b, 0, 0, [], [], []⟩ = 0 →
      AnswersWith (exec (.descriptorFetch d n [some b]) s) (fun t => (sqOf t d n).started = (sqOf s d n).started ++ [⟨n, (sqOf s d n).next, b, 0, 0, [], [], []⟩] ∧ (sqOf t d n).fetched = [] ∧ (sqOf t d n).next = (sqOf s d n).next + 1 ∧ rf t F.CPR_SQ_PTR.HEAD d n = ((sqOf s d n).next + 1) % sqSize s d n % 65536 ∧ t.out = s.out ∧ butRings d t = butRings d s)) ∧
  (∀ (d : Die) (n : Nat) (b : Line) (s : State),
      s.Idle →
      n < 256 →
      mayFetch s d n = true →
      (sqOf s d n).fetched = [] →
      rfc s F.SEC_POLICY.LOCKDOWN = 0 →
      fenceOpen s d ⟨n, (sqOf s d n).next, b, 0, 0, [], [], []⟩ = true →
      descCheck s d ⟨n, (sqOf s d n).next, b, 0, 0, [], [], []⟩ ≠ 0 →
      (sqOf s d n).started = [] →
      fld (lineNum b 1 1) 1 1 = 0 →
      rfb s F.CPR_CQ_CTRL.EN d (sqCq s d n) = true →
      rfb s F.CPR_CQ_CTRL.ERROR d (sqCq s d n) = false →
      AnswersWith (exec (.descriptorFetch d n [some b]) s) (fun t => Completed s t d ⟨n, (sqOf s d n).next, b, 0, 0, [], [], []⟩ (descCheck s d ⟨n, (sqOf s d n).next, b, 0, 0, [], [], []⟩) 0 0 ∧ (sqOf t d n).next = (sqOf s d n).next + 1 ∧ butRings d t = butRings d s)) ∧
  (∀ (d : Die) (n : Nat) (s : State),
      s.Idle →
      n < 256 →
      mayFetch s d n = true →
      AnswersWith (exec (.descriptorFetch d n [none]) s) (fun t => rf t F.CPR_SQ_CTRL.ERROR d n = 1 ∧ rf t F.CPR_STATUS.FETCH_ERR d 0 = 1 ∧ Told s t 0x0F02 3 ∧ (sqOf t d n).fetched = [] ∧ butRings d t = butRings d s)) ∧
  (∀ (d : Die) (n : Nat) (c : Comp) (cs : List Comp) (s : State),
      s.Idle →
      n < 256 →
      (cqOf s d n).waiting = c :: cs →
      cqFull s d n = false →
      rfb s F.CPR_CQ_CTRL.ERROR d n = false →
      s.dev.mode ≠ .hold →
      portAlive s d = true →
      (sqOf s d c.sq).fetched = [] →
      AnswersWith (exec (.completionWrite d n true) s) (fun t => t.out.any (fun m => decide (m = .hostWrite d (ringBase s F.CPR_CQ_BASE_LO.BASE_LO F.CPR_CQ_BASE_HI.BASE_HI d n + 16 * rf s F.CPR_CQ_PTR.TAIL d n) (compBytes c (rfb s F.CPR_CQ_CTRL.PHASE d n)) false)) = true ∧
        (cqOf t d n).waiting = cs ∧ rf t F.CPR_CQ_PTR.TAIL d n = (rf s F.CPR_CQ_PTR.TAIL d n + 1) % ringSize (rf s F.CPR_CQ_CTRL.LOG2SIZE d n) % 65536 ∧ countOf t d .CPR 1 = satAdd 32 (countOf s d .CPR 1) 1 ∧ butRings d t = butRings d s)) ∧
  (∀ (d : Die) (n : Nat) (c : Comp) (cs : List Comp) (s : State),
      s.Idle →
      n < 256 →
      (cqOf s d n).waiting = c :: cs →
      cqFull s d n = false →
      rfb s F.CPR_CQ_CTRL.ERROR d n = false →
      s.dev.mode ≠ .hold →
      AnswersWith (exec (.completionWrite d n false) s) (fun t => rf t F.CPR_CQ_CTRL.ERROR d n = 1 ∧ (cqOf t d n).waiting = [] ∧ rf t F.CPR_STATUS.WRITE_ERR d 0 = 1 ∧ Told s t 0x0F03 3 ∧ butRings d t = butRings d s)) ∧
  (∀ (d : Die) (e : Desc) (s : State),
      s.Runs d e 0 →
      e.arg = 0 →
      e.zero 16 48 = true →
      AnswersWith (exec (.nop d e.sq e.seq) s) (fun t => Completed s t d e 0 (e.num 8 4) 0 ∧ butRings d t = butRings d s)) ∧
  (∀ (d : Die) (e : Desc) (s : State),
      s.Runs d e 0 →
      e.arg ≠ 0 →
      AnswersWith (exec (.nop d e.sq e.seq) s) (fun t => Completed s t d e 3 0 0 ∧ butRings d t = butRings d s)) ∧
  (∀ (d : Die) (e : Desc) (s : State),
      s.Runs d e 3 →
      e.arg = 0 →
      e.zero 8 56 = true →
      AnswersWith (exec (.timestamp d e.sq e.seq) s) (fun t => Completed s t d e 0 (dieNum d) s.upNs ∧ butRings d t = butRings d s)) ∧
  (∀ (d : Die) (e : Desc) (k : RingKind) (s : State),
      s.Runs d e 4 →
      e.arg = 0 →
      e.zero 11 53 = true →
      ringKind (e.num 8 1) = some k →
      e.num 9 2 < (if k = .eq then 4 else 256) →
      AnswersWith (exec (.ringQuery d e.sq e.seq) s) (fun t => Completed s t d e 0 (rdReg s (ringPtr k) (queryDie s k d (e.num 9 2)) (e.num 9 2)) (ringState s k (queryDie s k d (e.num 9 2)) (e.num 9 2) + 8 * dieNum (queryDie s k d (e.num 9 2)) + 65536 * (if k = .sq then (sqOf s (queryDie s k d (e.num 9 2)) (e.num 9 2)).inFlight else 0)) ∧ butRings d t = butRings d s)) ∧
  (∀ (d : Die) (e : Desc) (host : List LineData) (s : State),
      s.Runs d e 1 →
      e.phase = 0 →
      copyFieldsOk e = true →
      copySrc e = ⟨false, (copySrc e).addr⟩ →
      copyDst e = ⟨true, (copyDst e).addr⟩ →
      domainCheck d e.sq (copyDst e).addr .cpr s = (true, s) →
      rangeStatus s (copyDst e).addr (copyLen e) true = 0 →
      exec (.memCopy d e.sq e.seq host) s = .next (settle (finishDesc d e (if (firstPoison (hostPieces host (copyLen e / 64))).isSome then 5 else 0) (copyLen e) (((firstPoison (hostPieces host (copyLen e / 64))).map (64 * ·)).getD (2 ^ 64 - 1)) (issueWrites d d e .cpr ((hostPieces host (copyLen e / 64)).zipIdx.flatMap (fun q => byteWrites ((copyDst e).addr + 64 * q.2) (lineBytes q.1.line) q.1.poison)) s)))) ∧
  (∀ (d : Die) (e : Desc) (host : List LineData) (s : State),
      s.Runs d e 1 →
      e.phase = 0 →
      copyFieldsOk e = true →
      copySrc e = ⟨true, (copySrc e).addr⟩ →
      copyDst e = ⟨false, (copyDst e).addr⟩ →
      domainCheck d e.sq (copySrc e).addr .cpr s = (true, s) →
      rangeStatus s (copySrc e).addr (copyLen e) false = 0 →
      exec (.memCopy d e.sq e.seq host) s = .next (settle (issueReads d d e .cpr 0 (rangeLines (copySrc e).addr (copyLen e)) (onDesc d e.sq e.seq (fun x => { x with phase := 1 }) s)))) ∧
  (∀ (d : Die) (e : Desc) (host : List LineData) (s : State),
      s.Runs d e 1 →
      e.phase = 1 →
      copyDst e = ⟨false, (copyDst e).addr⟩ →
      portAlive s d = true →
      AnswersWith (exec (.memCopy d e.sq e.seq host) s) (fun t => Completed s t d e (if (firstPoison (rangePieces e 0 (copySrc e).addr (copyLen e / 64))).isSome then 5 else 0) (copyLen e) (((firstPoison (rangePieces e 0 (copySrc e).addr (copyLen e / 64))).map (64 * ·)).getD (2 ^ 64 - 1)) ∧
        (rangePieces e 0 (copySrc e).addr (copyLen e / 64)).zipIdx.all (fun q => t.out.any (fun m => decide (m = .hostWrite d ((copyDst e).addr + 64 * q.2) (lineBytes q.1.line) q.1.poison))) = true ∧ butRings d t = butRings d s)) ∧
  (∀ (d : Die) (e : Desc) (s : State),
      s.Runs d e 2 →
      fillFieldsOk e = true →
      domainCheck d e.sq (e.num 8 8) .cpr s = (true, s) →
      rangeStatus s (e.num 8 8) (e.num 24 4) true = 0 →
      exec (.memFill d e.sq e.seq) s = .next (settle (finishDesc d e 0 (e.num 24 4) 0 (issueWrites d d e .cpr ((List.range (e.num 24 4 / 64)).flatMap (fun k => byteWrites (e.num 8 8 + 64 * k) (lineBytes (patternLine (BitVec.ofNat 64 (e.num 16 8)))) false)) s))))

/-- Chapter 13, Exact-match tables (R312): a lookup answers the result of the first slot, in the key's two buckets, that is visible under PUB's parity and holds the key. Longest-prefix tables (R317): the last hit on the walk. Lookups in batches (R321): each key is answered with a record of 8 bytes. Faults (R324): a key whose line was poison or malformed is answered POISON. What each line holds is read through the engine's view of the lines that have come; the lines that it still has to ask for are asked for first. -/
def Obligations.LookupsAnswerTheVisibleResult : Prop :=
  (∀ (d : Die) (e : Desc) (t0 : TblSt) (r : Nat × Nat × EmSlot) (s : State),
      s.Runs d e 0x10 →
      tableFor d e (fun t => t.type == 0) s = (.ok t0, s) →
      e.zero 8 8 = true →
      e.zero (16 + keyBytes t0) (48 - keyBytes t0) = true →
      (emFind t0 (emVisible t0.parity) (fromLe ((e.slice 16 (keyBytes t0)).take t0.keyLen)) (Eng.start (lookupDie s t0 d) t0.region e.got)).1 = some r →
      (emFind t0 (emVisible t0.parity) (fromLe ((e.slice 16 (keyBytes t0)).take t0.keyLen)) (Eng.start (lookupDie s t0 d) t0.region e.got)).2.whole = true →
      (emFind t0 (emVisible t0.parity) (fromLe ((e.slice 16 (keyBytes t0)).take t0.keyLen)) (Eng.start (lookupDie s t0 d) t0.region e.got)).2.bad = none →
      (emFind t0 (emVisible t0.parity) (fromLe ((e.slice 16 (keyBytes t0)).take t0.keyLen)) (Eng.start (lookupDie s t0 d) t0.region e.got)).2.mal = none →
      AnswersWith (exec (.emLookup d e.sq e.seq) s) (fun t => Completed s t d e 0 r.2.2.res 1 ∧ countOf t (lookupDie s t0 d) .LKE 2 = satAdd 32 (countOf s (lookupDie s t0 d) .LKE 2) 1 ∧ butRings d t = butRings d s)) ∧
  (∀ (d : Die) (e : Desc) (t0 : TblSt) (s : State),
      s.Runs d e 0x10 →
      tableFor d e (fun t => t.type == 0) s = (.ok t0, s) →
      e.zero 8 8 = true →
      e.zero (16 + keyBytes t0) (48 - keyBytes t0) = true →
      (emFind t0 (emVisible t0.parity) (fromLe ((e.slice 16 (keyBytes t0)).take t0.keyLen)) (Eng.start (lookupDie s t0 d) t0.region e.got)).1 = none →
      (emFind t0 (emVisible t0.parity) (fromLe ((e.slice 16 (keyBytes t0)).take t0.keyLen)) (Eng.start (lookupDie s t0 d) t0.region e.got)).2.whole = true →
      (emFind t0 (emVisible t0.parity) (fromLe ((e.slice 16 (keyBytes t0)).take t0.keyLen)) (Eng.start (lookupDie s t0 d) t0.region e.got)).2.bad = none →
      (emFind t0 (emVisible t0.parity) (fromLe ((e.slice 16 (keyBytes t0)).take t0.keyLen)) (Eng.start (lookupDie s t0 d) t0.region e.got)).2.mal = none →
      AnswersWith (exec (.emLookup d e.sq e.seq) s) (fun t => Completed s t d e 0 0 0 ∧ countOf t (lookupDie s t0 d) .LKE 2 = satAdd 32 (countOf s (lookupDie s t0 d) .LKE 2) 0 ∧ butRings d t = butRings d s)) ∧
  (∀ (d : Die) (e : Desc) (t0 : TblSt) (s : State),
      s.Runs d e 0x10 →
      tableFor d e (fun t => t.type == 0) s = (.ok t0, s) →
      e.zero 8 8 = true →
      e.zero (16 + keyBytes t0) (48 - keyBytes t0) = true →
      (lookupKey t0 (e.slice 16 (keyBytes t0)) (Eng.start (lookupDie s t0 d) t0.region e.got)).2.whole = true →
      (lookupKey t0 (e.slice 16 (keyBytes t0)) (Eng.start (lookupDie s t0 d) t0.region e.got)).1.poison = true →
      AnswersWith (exec (.emLookup d e.sq e.seq) s) (fun t => Completed s t d e 5 0 2 ∧ countOf t (lookupDie s t0 d) .LKE 8 = satAdd 32 (countOf s (lookupDie s t0 d) .LKE 8) 1 ∧ butRings d t = butRings d s)) ∧
  (∀ (d : Die) (e : Desc) (t0 : TblSt) (s : State),
      s.Runs d e 0x10 →
      tableFor d e (fun t => t.type == 0) s = (.ok t0, s) →
      e.zero 8 8 = true →
      e.zero (16 + keyBytes t0) (48 - keyBytes t0) = true →
      (lookupKey t0 (e.slice 16 (keyBytes t0)) (Eng.start (lookupDie s t0 d) t0.region e.got)).2.whole = false →
      exec (.emLookup d e.sq e.seq) s = .next (settle ((lookupKey t0 (e.slice 16 (keyBytes t0)) (Eng.start (lookupDie s t0 d) t0.region e.got)).2.ask d e .lke .LKE 3 (samplePub d e t0 s)))) ∧
  (∀ (d : Die) (e : Desc) (t0 : TblSt) (r : Nat) (s : State),
      s.Runs d e 0x12 →
      tableFor d e (fun t => t.type != 0) s = (.ok t0, s) →
      e.zero 8 8 = true →
      e.zero (16 + keyBytes t0) (48 - keyBytes t0) = true →
      (lpmFind t0 t0.parity (e.slice 16 (keyBytes t0)) (Eng.start (lookupDie s t0 d) t0.region e.got)).1 = some r →
      (lpmFind t0 t0.parity (e.slice 16 (keyBytes t0)) (Eng.start (lookupDie s t0 d) t0.region e.got)).2.whole = true →
      (lpmFind t0 t0.parity (e.slice 16 (keyBytes t0)) (Eng.start (lookupDie s t0 d) t0.region e.got)).2.bad = none →
      (lpmFind t0 t0.parity (e.slice 16 (keyBytes t0)) (Eng.start (lookupDie s t0 d) t0.region e.got)).2.mal = none →
      AnswersWith (exec (.lpmLookup d e.sq e.seq) s) (fun t => Completed s t d e 0 r 1 ∧ countOf t (lookupDie s t0 d) .LKE 2 = satAdd 32 (countOf s (lookupDie s t0 d) .LKE 2) 1 ∧ butRings d t = butRings d s)) ∧
  (∀ (d : Die) (e : Desc) (t0 : TblSt) (s : State),
      s.Runs d e 0x12 →
      tableFor d e (fun t => t.type != 0) s = (.ok t0, s) →
      e.zero 8 8 = true →
      e.zero (16 + keyBytes t0) (48 - keyBytes t0) = true →
      (lpmFind t0 t0.parity (e.slice 16 (keyBytes t0)) (Eng.start (lookupDie s t0 d) t0.region e.got)).1 = none →
      (lpmFind t0 t0.parity (e.slice 16 (keyBytes t0)) (Eng.start (lookupDie s t0 d) t0.region e.got)).2.whole = true →
      (lpmFind t0 t0.parity (e.slice 16 (keyBytes t0)) (Eng.start (lookupDie s t0 d) t0.region e.got)).2.bad = none →
      (lpmFind t0 t0.parity (e.slice 16 (keyBytes t0)) (Eng.start (lookupDie s t0 d) t0.region e.got)).2.mal = none →
      AnswersWith (exec (.lpmLookup d e.sq e.seq) s) (fun t => Completed s t d e 0 0 0 ∧ countOf t (lookupDie s t0 d) .LKE 2 = satAdd 32 (countOf s (lookupDie s t0 d) .LKE 2) 0 ∧ butRings d t = butRings d s)) ∧
  (∀ (d : Die) (e : Desc) (t0 : TblSt) (s : State),
      s.Runs d e 0x12 →
      tableFor d e (fun t => t.type != 0) s = (.ok t0, s) →
      e.zero 8 8 = true →
      e.zero (16 + keyBytes t0) (48 - keyBytes t0) = true →
      (lookupKey t0 (e.slice 16 (keyBytes t0)) (Eng.start (lookupDie s t0 d) t0.region e.got)).2.whole = true →
      (lookupKey t0 (e.slice 16 (keyBytes t0)) (Eng.start (lookupDie s t0 d) t0.region e.got)).1.poison = true →
      AnswersWith (exec (.lpmLookup d e.sq e.seq) s) (fun t => Completed s t d e 5 0 2 ∧ countOf t (lookupDie s t0 d) .LKE 8 = satAdd 32 (countOf s (lookupDie s t0 d) .LKE 8) 1 ∧ butRings d t = butRings d s)) ∧
  (∀ (d : Die) (e : Desc) (t0 : TblSt) (s : State),
      s.Runs d e 0x12 →
      tableFor d e (fun t => t.type != 0) s = (.ok t0, s) →
      e.zero 8 8 = true →
      e.zero (16 + keyBytes t0) (48 - keyBytes t0) = true →
      (lookupKey t0 (e.slice 16 (keyBytes t0)) (Eng.start (lookupDie s t0 d) t0.region e.got)).2.whole = false →
      exec (.lpmLookup d e.sq e.seq) s = .next (settle ((lookupKey t0 (e.slice 16 (keyBytes t0)) (Eng.start (lookupDie s t0 d) t0.region e.got)).2.ask d e .lke .LKE 3 (samplePub d e t0 s)))) ∧
  (∀ (d : Die) (e : Desc) (t0 : TblSt) (host : List LineData) (hs : List Hit) (s : State),
      s.Runs d e 0x11 →
      tableFor d e (fun t => t.type == 0) s = (.ok t0, s) →
      e.begun = true →
      e.num 9 1 = 0 →
      0 < e.num 8 1 →
      e.num 8 1 ≤ 16 →
      (batchHits t0 ((List.range (e.num 8 1)).map (fun i => ((arrayPart e ⟨false, e.num 16 8⟩ host (batchStride t0 * i) (batchStride t0)).1.take (keyBytes t0), (arrayPart e ⟨false, e.num 16 8⟩ host (batchStride t0 * i) (batchStride t0)).2))) none (Eng.start (lookupDie s t0 d) t0.region e.got)).1 = hs →
      (batchHits t0 ((List.range (e.num 8 1)).map (fun i => ((arrayPart e ⟨false, e.num 16 8⟩ host (batchStride t0 * i) (batchStride t0)).1.take (keyBytes t0), (arrayPart e ⟨false, e.num 16 8⟩ host (batchStride t0 * i) (batchStride t0)).2))) none (Eng.start (lookupDie s t0 d) t0.region e.got)).2.2.whole = true →
      portAlive s d = true →
      AnswersWith (exec (.emLookupBatch d e.sq e.seq host) s) (fun t => Completed s t d e (if hs.any (·.poison) then 5 else 0) (maskOf (·.hit) hs + 65536 * maskOf (·.poison) hs) (hs.filter (·.hit)).length ∧ t.out.any (fun m => decide (m = .hostWrite d (e.num 24 8) (hs.flatMap hitRecord) false)) = true ∧ butRings d t = butRings d s)) ∧
  (∀ (d : Die) (e : Desc) (t0 : TblSt) (host : List LineData) (hs : List Hit) (s : State),
      s.Runs d e 0x13 →
      tableFor d e (fun t => t.type != 0) s = (.ok t0, s) →
      e.begun = true →
      e.num 9 1 = 0 →
      0 < e.num 8 1 →
      e.num 8 1 ≤ 16 →
      (batchHits t0 ((List.range (e.num 8 1)).map (fun i => ((arrayPart e ⟨false, e.num 16 8⟩ host (batchStride t0 * i) (batchStride t0)).1.take (keyBytes t0), (arrayPart e ⟨false, e.num 16 8⟩ host (batchStride t0 * i) (batchStride t0)).2))) none (Eng.start (lookupDie s t0 d) t0.region e.got)).1 = hs →
      (batchHits t0 ((List.range (e.num 8 1)).map (fun i => ((arrayPart e ⟨false, e.num 16 8⟩ host (batchStride t0 * i) (batchStride t0)).1.take (keyBytes t0), (arrayPart e ⟨false, e.num 16 8⟩ host (batchStride t0 * i) (batchStride t0)).2))) none (Eng.start (lookupDie s t0 d) t0.region e.got)).2.2.whole = true →
      portAlive s d = true →
      AnswersWith (exec (.lpmLookupBatch d e.sq e.seq host) s) (fun t => Completed s t d e (if hs.any (·.poison) then 5 else 0) (maskOf (·.hit) hs + 65536 * maskOf (·.poison) hs) (hs.filter (·.hit)).length ∧ t.out.any (fun m => decide (m = .hostWrite d (e.num 24 8) (hs.flatMap hitRecord) false)) = true ∧ butRings d t = butRings d s))

/-- Chapter 13 (R308): a table that passes the checks of Table 13.1 is filled with zeros, and is valid when the fill is done. R313, R318: a change is made in the open stage, its lines written and logged; one that cannot be made changes nothing and completes with its status. R319: a publish raises PUB and counts the staged keys. R320: the cleanup settles the stage. R309: a table that no lookup or update uses is gone at once, one in use is no longer valid and goes when they have ended. That an update with displacements writes its lines one by one, and that one with PUBLISH publishes when its writes have been accepted, are the model's turns 22 to 25. -/
def Obligations.TablesAreMadeChangedAndPublished : Prop :=
  (∀ (d : Die) (e : Desc) (t0 : TblSt) (s : State),
      s.Runs d e 0x18 →
      tableFor d e (fun t => t.type == 0) s = (.ok t0, s) →
      e.num 8 1 ≤ 2 →
      e.zero 10 2 = true →
      e.num 15 1 = 0 →
      e.zero (16 + t0.keyLen) (48 - t0.keyLen) = true →
      e.num 9 1 = 0 →
      tableTurn s d e false = true →
      t0.cleanup = false →
      e.phase ≠ 3 →
      (emChange t0 (maxDepth s (tblHome s t0)) (e.num 8 1) (e.num 16 t0.keyLen) (e.num 12 3) (Eng.start (tblHome s t0) t0.region e.got)).2.whole = true →
      (emChange t0 (maxDepth s (tblHome s t0)) (e.num 8 1) (e.num 16 t0.keyLen) (e.num 12 3) (Eng.start (tblHome s t0) t0.region e.got)).2.bad = none →
      (emChange t0 (maxDepth s (tblHome s t0)) (e.num 8 1) (e.num 16 t0.keyLen) (e.num 12 3) (Eng.start (tblHome s t0) t0.region e.got)).2.mal = none →
      (emChange t0 (maxDepth s (tblHome s t0)) (e.num 8 1) (e.num 16 t0.keyLen) (e.num 12 3) (Eng.start (tblHome s t0) t0.region e.got)).1.status = 0 →
      (emChange t0 (maxDepth s (tblHome s t0)) (e.num 8 1) (e.num 16 t0.keyLen) (e.num 12 3) (Eng.start (tblHome s t0) t0.region e.got)).1.moves = 0 →
      logUsed s (tblHome s t0) - t0.log.entries + (logLines t0 (emChange t0 (maxDepth s (tblHome s t0)) (e.num 8 1) (e.num 16 t0.keyLen) (e.num 12 3) (Eng.start (tblHome s t0) t0.region e.got)).2 (emChange t0 (maxDepth s (tblHome s t0)) (e.num 8 1) (e.num 16 t0.keyLen) (e.num 12 3) (Eng.start (tblHome s t0) t0.region e.got)).1.log).entries ≤ 32768 →
      exec (.emUpdate d e.sq e.seq) s = .next (settle (finishDesc d e 0 (b2n (emChange t0 (maxDepth s (tblHome s t0)) (e.num 8 1) (e.num 16 t0.keyLen) (e.num 12 3) (Eng.start (tblHome s t0) t0.region e.got)).1.replaced) 0 ((emChange t0 (maxDepth s (tblHome s t0)) (e.num 8 1) (e.num 16 t0.keyLen) (e.num 12 3) (Eng.start (tblHome s t0) t0.region e.got)).2.commit d e .lke (addCount (tblHome s t0) .LKE 6 (emChange t0 (maxDepth s (tblHome s t0)) (e.num 8 1) (e.num 16 t0.keyLen) (e.num 12 3) (Eng.start (tblHome s t0) t0.region e.got)).1.moves (addCount (tblHome s t0) .LKE 4 1 (onTbl e.table (fun t => { t with stageOpen := true, staged := ((t.staged : Int) + (emChange t0 (maxDepth s (tblHome s t0)) (e.num 8 1) (e.num 16 t0.keyLen) (e.num 12 3) (Eng.start (tblHome s t0) t0.region e.got)).1.grow).toNat, log := (logLines t0 (emChange t0 (maxDepth s (tblHome s t0)) (e.num 8 1) (e.num 16 t0.keyLen) (e.num 12 3) (Eng.start (tblHome s t0) t0.region e.got)).2 (emChange t0 (maxDepth s (tblHome s t0)) (e.num 8 1) (e.num 16 t0.keyLen) (e.num 12 3) (Eng.start (tblHome s t0) t0.region e.got)).1.log) }) s))))))) ∧
  (∀ (d : Die) (e : Desc) (t0 : TblSt) (s : State),
      s.Runs d e 0x18 →
      tableFor d e (fun t => t.type == 0) s = (.ok t0, s) →
      e.num 8 1 ≤ 2 →
      e.zero 10 2 = true →
      e.num 15 1 = 0 →
      e.zero (16 + t0.keyLen) (48 - t0.keyLen) = true →
      e.num 9 1 = 1 →
      tableTurn s d e true = true →
      t0.cleanup = false →
      e.phase ≠ 3 →
      (emChange t0 (maxDepth s (tblHome s t0)) (e.num 8 1) (e.num 16 t0.keyLen) (e.num 12 3) (Eng.start (tblHome s t0) t0.region e.got)).2.whole = true →
      (emChange t0 (maxDepth s (tblHome s t0)) (e.num 8 1) (e.num 16 t0.keyLen) (e.num 12 3) (Eng.start (tblHome s t0) t0.region e.got)).2.bad = none →
      (emChange t0 (maxDepth s (tblHome s t0)) (e.num 8 1) (e.num 16 t0.keyLen) (e.num 12 3) (Eng.start (tblHome s t0) t0.region e.got)).2.mal = none →
      (emChange t0 (maxDepth s (tblHome s t0)) (e.num 8 1) (e.num 16 t0.keyLen) (e.num 12 3) (Eng.start (tblHome s t0) t0.region e.got)).1.status = 0 →
      (emChange t0 (maxDepth s (tblHome s t0)) (e.num 8 1) (e.num 16 t0.keyLen) (e.num 12 3) (Eng.start (tblHome s t0) t0.region e.got)).1.moves = 0 →
      logUsed s (tblHome s t0) - t0.log.entries + (logLines t0 (emChange t0 (maxDepth s (tblHome s t0)) (e.num 8 1) (e.num 16 t0.keyLen) (e.num 12 3) (Eng.start (tblHome s t0) t0.region e.got)).2 (emChange t0 (maxDepth s (tblHome s t0)) (e.num 8 1) (e.num 16 t0.keyLen) (e.num 12 3) (Eng.start (tblHome s t0) t0.region e.got)).1.log).entries ≤ 32768 →
      exec (.emUpdate d e.sq e.seq) s = .next (settle (later (.desc d e.sq e.seq) ((emChange t0 (maxDepth s (tblHome s t0)) (e.num 8 1) (e.num 16 t0.keyLen) (e.num 12 3) (Eng.start (tblHome s t0) t0.region e.got)).2.commit d e .lke (onDesc d e.sq e.seq (fun x => { x with phase := 3, vals := [(22, 0), (23, b2n (emChange t0 (maxDepth s (tblHome s t0)) (e.num 8 1) (e.num 16 t0.keyLen) (e.num 12 3) (Eng.start (tblHome s t0) t0.region e.got)).1.replaced), (24, (emChange t0 (maxDepth s (tblHome s t0)) (e.num 8 1) (e.num 16 t0.keyLen) (e.num 12 3) (Eng.start (tblHome s t0) t0.region e.got)).1.moves), (25, 1)] }) (addCount (tblHome s t0) .LKE 6 (emChange t0 (maxDepth s (tblHome s t0)) (e.num 8 1) (e.num 16 t0.keyLen) (e.num 12 3) (Eng.start (tblHome s t0) t0.region e.got)).1.moves (addCount (tblHome s t0) .LKE 4 1 (onTbl e.table (fun t => { t with stageOpen := true, staged := ((t.staged : Int) + (emChange t0 (maxDepth s (tblHome s t0)) (e.num 8 1) (e.num 16 t0.keyLen) (e.num 12 3) (Eng.start (tblHome s t0) t0.region e.got)).1.grow).toNat, log := (logLines t0 (emChange t0 (maxDepth s (tblHome s t0)) (e.num 8 1) (e.num 16 t0.keyLen) (e.num 12 3) (Eng.start (tblHome s t0) t0.region e.got)).2 (emChange t0 (maxDepth s (tblHome s t0)) (e.num 8 1) (e.num 16 t0.keyLen) (e.num 12 3) (Eng.start (tblHome s t0) t0.region e.got)).1.log) }) s)))))))) ∧
  (∀ (d : Die) (e : Desc) (t0 : TblSt) (s : State),
      s.Runs d e 0x18 →
      tableFor d e (fun t => t.type == 0) s = (.ok t0, s) →
      e.num 8 1 ≤ 2 →
      e.zero 10 2 = true →
      e.num 15 1 = 0 →
      e.zero (16 + t0.keyLen) (48 - t0.keyLen) = true →
      e.num 9 1 = 0 →
      tableTurn s d e false = true →
      t0.cleanup = false →
      e.phase ≠ 3 →
      (emChange t0 (maxDepth s (tblHome s t0)) (e.num 8 1) (e.num 16 t0.keyLen) (e.num 12 3) (Eng.start (tblHome s t0) t0.region e.got)).2.whole = true →
      (emChange t0 (maxDepth s (tblHome s t0)) (e.num 8 1) (e.num 16 t0.keyLen) (e.num 12 3) (Eng.start (tblHome s t0) t0.region e.got)).2.bad = none →
      (emChange t0 (maxDepth s (tblHome s t0)) (e.num 8 1) (e.num 16 t0.keyLen) (e.num 12 3) (Eng.start (tblHome s t0) t0.region e.got)).2.mal = none →
      (emChange t0 (maxDepth s (tblHome s t0)) (e.num 8 1) (e.num 16 t0.keyLen) (e.num 12 3) (Eng.start (tblHome s t0) t0.region e.got)).1.status = 0 →
      (emChange t0 (maxDepth s (tblHome s t0)) (e.num 8 1) (e.num 16 t0.keyLen) (e.num 12 3) (Eng.start (tblHome s t0) t0.region e.got)).1.moves ≠ 0 →
      logUsed s (tblHome s t0) - t0.log.entries + (logLines t0 (emChange t0 (maxDepth s (tblHome s t0)) (e.num 8 1) (e.num 16 t0.keyLen) (e.num 12 3) (Eng.start (tblHome s t0) t0.region e.got)).2 (emChange t0 (maxDepth s (tblHome s t0)) (e.num 8 1) (e.num 16 t0.keyLen) (e.num 12 3) (Eng.start (tblHome s t0) t0.region e.got)).1.log).entries ≤ 32768 →
      exec (.emUpdate d e.sq e.seq) s = .next (settle (later (.desc d e.sq e.seq) (holdTurns d e (emChange t0 (maxDepth s (tblHome s t0)) (e.num 8 1) (e.num 16 t0.keyLen) (e.num 12 3) (Eng.start (tblHome s t0) t0.region e.got)).2.turns.reverse (onDesc d e.sq e.seq (fun x => { x with phase := 3, vals := [(22, 0), (23, b2n (emChange t0 (maxDepth s (tblHome s t0)) (e.num 8 1) (e.num 16 t0.keyLen) (e.num 12 3) (Eng.start (tblHome s t0) t0.region e.got)).1.replaced), (24, (emChange t0 (maxDepth s (tblHome s t0)) (e.num 8 1) (e.num 16 t0.keyLen) (e.num 12 3) (Eng.start (tblHome s t0) t0.region e.got)).1.moves), (25, 0)] }) (addCount (tblHome s t0) .LKE 6 (emChange t0 (maxDepth s (tblHome s t0)) (e.num 8 1) (e.num 16 t0.keyLen) (e.num 12 3) (Eng.start (tblHome s t0) t0.region e.got)).1.moves (addCount (tblHome s t0) .LKE 4 1 (onTbl e.table (fun t => { t with stageOpen := true, staged := ((t.staged : Int) + (emChange t0 (maxDepth s (tblHome s t0)) (e.num 8 1) (e.num 16 t0.keyLen) (e.num 12 3) (Eng.start (tblHome s t0) t0.region e.got)).1.grow).toNat, log := (logLines t0 (emChange t0 (maxDepth s (tblHome s t0)) (e.num 8 1) (e.num 16 t0.keyLen) (e.num 12 3) (Eng.start (tblHome s t0) t0.region e.got)).2 (emChange t0 (maxDepth s (tblHome s t0)) (e.num 8 1) (e.num 16 t0.keyLen) (e.num 12 3) (Eng.start (tblHome s t0) t0.region e.got)).1.log) }) s)))))))) ∧
  (∀ (d : Die) (e : Desc) (t0 : TblSt) (s : State),
      s.Runs d e 0x19 →
      tableFor d e (fun t => t.type != 0) s = (.ok t0, s) →
      e.num 8 1 = 1 ∨ e.num 8 1 = 2 →
      e.num 11 1 = 0 →
      e.zero 32 32 = true →
      prefixOk t0 (e.slice 16 16) (e.num 10 1) = true →
      e.num 9 1 = 0 →
      tableTurn s d e false = true →
      t0.cleanup = false →
      e.phase ≠ 3 →
      (lpmChange t0 (e.slice 16 16) (e.num 10 1) (if e.num 8 1 = 1 then some (e.num 12 4) else none) (Eng.start (tblHome s t0) t0.region e.got)).2.whole = true →
      (lpmChange t0 (e.slice 16 16) (e.num 10 1) (if e.num 8 1 = 1 then some (e.num 12 4) else none) (Eng.start (tblHome s t0) t0.region e.got)).2.bad = none →
      (lpmChange t0 (e.slice 16 16) (e.num 10 1) (if e.num 8 1 = 1 then some (e.num 12 4) else none) (Eng.start (tblHome s t0) t0.region e.got)).2.mal = none →
      (lpmChange t0 (e.slice 16 16) (e.num 10 1) (if e.num 8 1 = 1 then some (e.num 12 4) else none) (Eng.start (tblHome s t0) t0.region e.got)).1.status = 0 →
      (lpmChange t0 (e.slice 16 16) (e.num 10 1) (if e.num 8 1 = 1 then some (e.num 12 4) else none) (Eng.start (tblHome s t0) t0.region e.got)).1.moves = 0 →
      logUsed s (tblHome s t0) - t0.log.entries + (logLines t0 (lpmChange t0 (e.slice 16 16) (e.num 10 1) (if e.num 8 1 = 1 then some (e.num 12 4) else none) (Eng.start (tblHome s t0) t0.region e.got)).2 (lpmChange t0 (e.slice 16 16) (e.num 10 1) (if e.num 8 1 = 1 then some (e.num 12 4) else none) (Eng.start (tblHome s t0) t0.region e.got)).1.log).entries ≤ 32768 →
      exec (.lpmUpdate d e.sq e.seq) s = .next (settle (finishDesc d e 0 (b2n (lpmChange t0 (e.slice 16 16) (e.num 10 1) (if e.num 8 1 = 1 then some (e.num 12 4) else none) (Eng.start (tblHome s t0) t0.region e.got)).1.replaced) 0 ((lpmChange t0 (e.slice 16 16) (e.num 10 1) (if e.num 8 1 = 1 then some (e.num 12 4) else none) (Eng.start (tblHome s t0) t0.region e.got)).2.commit d e .lke (addCount (tblHome s t0) .LKE 6 (lpmChange t0 (e.slice 16 16) (e.num 10 1) (if e.num 8 1 = 1 then some (e.num 12 4) else none) (Eng.start (tblHome s t0) t0.region e.got)).1.moves (addCount (tblHome s t0) .LKE 4 1 (onTbl e.table (fun t => { t with stageOpen := true, staged := ((t.staged : Int) + (lpmChange t0 (e.slice 16 16) (e.num 10 1) (if e.num 8 1 = 1 then some (e.num 12 4) else none) (Eng.start (tblHome s t0) t0.region e.got)).1.grow).toNat, log := (logLines t0 (lpmChange t0 (e.slice 16 16) (e.num 10 1) (if e.num 8 1 = 1 then some (e.num 12 4) else none) (Eng.start (tblHome s t0) t0.region e.got)).2 (lpmChange t0 (e.slice 16 16) (e.num 10 1) (if e.num 8 1 = 1 then some (e.num 12 4) else none) (Eng.start (tblHome s t0) t0.region e.got)).1.log) }) s))))))) ∧
  (∀ (d : Die) (e : Desc) (t0 : TblSt) (s : State),
      s.Runs d e 0x19 →
      tableFor d e (fun t => t.type != 0) s = (.ok t0, s) →
      e.num 8 1 = 1 ∨ e.num 8 1 = 2 →
      e.num 11 1 = 0 →
      e.zero 32 32 = true →
      prefixOk t0 (e.slice 16 16) (e.num 10 1) = true →
      e.num 9 1 = 1 →
      tableTurn s d e true = true →
      t0.cleanup = false →
      e.phase ≠ 3 →
      (lpmChange t0 (e.slice 16 16) (e.num 10 1) (if e.num 8 1 = 1 then some (e.num 12 4) else none) (Eng.start (tblHome s t0) t0.region e.got)).2.whole = true →
      (lpmChange t0 (e.slice 16 16) (e.num 10 1) (if e.num 8 1 = 1 then some (e.num 12 4) else none) (Eng.start (tblHome s t0) t0.region e.got)).2.bad = none →
      (lpmChange t0 (e.slice 16 16) (e.num 10 1) (if e.num 8 1 = 1 then some (e.num 12 4) else none) (Eng.start (tblHome s t0) t0.region e.got)).2.mal = none →
      (lpmChange t0 (e.slice 16 16) (e.num 10 1) (if e.num 8 1 = 1 then some (e.num 12 4) else none) (Eng.start (tblHome s t0) t0.region e.got)).1.status = 0 →
      (lpmChange t0 (e.slice 16 16) (e.num 10 1) (if e.num 8 1 = 1 then some (e.num 12 4) else none) (Eng.start (tblHome s t0) t0.region e.got)).1.moves = 0 →
      logUsed s (tblHome s t0) - t0.log.entries + (logLines t0 (lpmChange t0 (e.slice 16 16) (e.num 10 1) (if e.num 8 1 = 1 then some (e.num 12 4) else none) (Eng.start (tblHome s t0) t0.region e.got)).2 (lpmChange t0 (e.slice 16 16) (e.num 10 1) (if e.num 8 1 = 1 then some (e.num 12 4) else none) (Eng.start (tblHome s t0) t0.region e.got)).1.log).entries ≤ 32768 →
      exec (.lpmUpdate d e.sq e.seq) s = .next (settle (later (.desc d e.sq e.seq) ((lpmChange t0 (e.slice 16 16) (e.num 10 1) (if e.num 8 1 = 1 then some (e.num 12 4) else none) (Eng.start (tblHome s t0) t0.region e.got)).2.commit d e .lke (onDesc d e.sq e.seq (fun x => { x with phase := 3, vals := [(22, 0), (23, b2n (lpmChange t0 (e.slice 16 16) (e.num 10 1) (if e.num 8 1 = 1 then some (e.num 12 4) else none) (Eng.start (tblHome s t0) t0.region e.got)).1.replaced), (24, (lpmChange t0 (e.slice 16 16) (e.num 10 1) (if e.num 8 1 = 1 then some (e.num 12 4) else none) (Eng.start (tblHome s t0) t0.region e.got)).1.moves), (25, 1)] }) (addCount (tblHome s t0) .LKE 6 (lpmChange t0 (e.slice 16 16) (e.num 10 1) (if e.num 8 1 = 1 then some (e.num 12 4) else none) (Eng.start (tblHome s t0) t0.region e.got)).1.moves (addCount (tblHome s t0) .LKE 4 1 (onTbl e.table (fun t => { t with stageOpen := true, staged := ((t.staged : Int) + (lpmChange t0 (e.slice 16 16) (e.num 10 1) (if e.num 8 1 = 1 then some (e.num 12 4) else none) (Eng.start (tblHome s t0) t0.region e.got)).1.grow).toNat, log := (logLines t0 (lpmChange t0 (e.slice 16 16) (e.num 10 1) (if e.num 8 1 = 1 then some (e.num 12 4) else none) (Eng.start (tblHome s t0) t0.region e.got)).2 (lpmChange t0 (e.slice 16 16) (e.num 10 1) (if e.num 8 1 = 1 then some (e.num 12 4) else none) (Eng.start (tblHome s t0) t0.region e.got)).1.log) }) s)))))))) ∧
  (∀ (d : Die) (e : Desc) (t0 : TblSt) (s : State),
      s.Runs d e 0x18 →
      tableFor d e (fun t => t.type == 0) s = (.ok t0, s) →
      e.num 8 1 ≤ 2 →
      e.zero 10 2 = true →
      e.num 15 1 = 0 →
      e.zero (16 + t0.keyLen) (48 - t0.keyLen) = true →
      e.num 9 1 ≤ 1 →
      tableTurn s d e (e.num 9 1 == 1) = true →
      t0.cleanup = false →
      e.phase ≠ 3 →
      (emChange t0 (maxDepth s (tblHome s t0)) (e.num 8 1) (e.num 16 t0.keyLen) (e.num 12 3) (Eng.start (tblHome s t0) t0.region e.got)).2.whole = true →
      (emChange t0 (maxDepth s (tblHome s t0)) (e.num 8 1) (e.num 16 t0.keyLen) (e.num 12 3) (Eng.start (tblHome s t0) t0.region e.got)).2.bad = none →
      (emChange t0 (maxDepth s (tblHome s t0)) (e.num 8 1) (e.num 16 t0.keyLen) (e.num 12 3) (Eng.start (tblHome s t0) t0.region e.got)).2.mal = none →
      (emChange t0 (maxDepth s (tblHome s t0)) (e.num 8 1) (e.num 16 t0.keyLen) (e.num 12 3) (Eng.start (tblHome s t0) t0.region e.got)).1.status ≠ 0 →
      AnswersWith (exec (.emUpdate d e.sq e.seq) s) (fun t => Completed s t d e (emChange t0 (maxDepth s (tblHome s t0)) (e.num 8 1) (e.num 16 t0.keyLen) (e.num 12 3) (Eng.start (tblHome s t0) t0.region e.got)).1.status 0 0 ∧ t.tables = s.tables ∧ butRings d t = butRings d s)) ∧
  (∀ (d : Die) (e : Desc) (t0 : TblSt) (s : State),
      s.Runs d e 0x19 →
      tableFor d e (fun t => t.type != 0) s = (.ok t0, s) →
      e.num 8 1 = 1 ∨ e.num 8 1 = 2 →
      e.num 11 1 = 0 →
      e.zero 32 32 = true →
      prefixOk t0 (e.slice 16 16) (e.num 10 1) = true →
      e.num 9 1 ≤ 1 →
      tableTurn s d e (e.num 9 1 == 1) = true →
      t0.cleanup = false →
      e.phase ≠ 3 →
      (lpmChange t0 (e.slice 16 16) (e.num 10 1) (if e.num 8 1 = 1 then some (e.num 12 4) else none) (Eng.start (tblHome s t0) t0.region e.got)).2.whole = true →
      (lpmChange t0 (e.slice 16 16) (e.num 10 1) (if e.num 8 1 = 1 then some (e.num 12 4) else none) (Eng.start (tblHome s t0) t0.region e.got)).2.bad = none →
      (lpmChange t0 (e.slice 16 16) (e.num 10 1) (if e.num 8 1 = 1 then some (e.num 12 4) else none) (Eng.start (tblHome s t0) t0.region e.got)).2.mal = none →
      (lpmChange t0 (e.slice 16 16) (e.num 10 1) (if e.num 8 1 = 1 then some (e.num 12 4) else none) (Eng.start (tblHome s t0) t0.region e.got)).1.status ≠ 0 →
      AnswersWith (exec (.lpmUpdate d e.sq e.seq) s) (fun t => Completed s t d e (lpmChange t0 (e.slice 16 16) (e.num 10 1) (if e.num 8 1 = 1 then some (e.num 12 4) else none) (Eng.start (tblHome s t0) t0.region e.got)).1.status 0 0 ∧ t.tables = s.tables ∧ butRings d t = butRings d s)) ∧
  (∀ (d : Die) (e : Desc) (t0 : TblSt) (s : State),
      s.Runs d e 0x18 →
      tableFor d e (fun t => t.type == 0) s = (.ok t0, s) →
      e.num 8 1 ≤ 2 →
      e.zero 10 2 = true →
      e.num 15 1 = 0 →
      e.zero (16 + t0.keyLen) (48 - t0.keyLen) = true →
      e.num 9 1 ≤ 1 →
      tableTurn s d e (e.num 9 1 == 1) = true →
      t0.cleanup = false →
      e.phase ≠ 3 →
      (emChange t0 (maxDepth s (tblHome s t0)) (e.num 8 1) (e.num 16 t0.keyLen) (e.num 12 3) (Eng.start (tblHome s t0) t0.region e.got)).2.whole = false →
      exec (.emUpdate d e.sq e.seq) s = .next (settle ((emChange t0 (maxDepth s (tblHome s t0)) (e.num 8 1) (e.num 16 t0.keyLen) (e.num 12 3) (Eng.start (tblHome s t0) t0.region e.got)).2.ask d e .lke .LKE 3 s))) ∧
  (∀ (d : Die) (e : Desc) (t0 : TblSt) (s : State),
      s.Runs d e 0x19 →
      tableFor d e (fun t => t.type != 0) s = (.ok t0, s) →
      e.num 8 1 = 1 ∨ e.num 8 1 = 2 →
      e.num 11 1 = 0 →
      e.zero 32 32 = true →
      prefixOk t0 (e.slice 16 16) (e.num 10 1) = true →
      e.num 9 1 ≤ 1 →
      tableTurn s d e (e.num 9 1 == 1) = true →
      t0.cleanup = false →
      e.phase ≠ 3 →
      (lpmChange t0 (e.slice 16 16) (e.num 10 1) (if e.num 8 1 = 1 then some (e.num 12 4) else none) (Eng.start (tblHome s t0) t0.region e.got)).2.whole = false →
      exec (.lpmUpdate d e.sq e.seq) s = .next (settle ((lpmChange t0 (e.slice 16 16) (e.num 10 1) (if e.num 8 1 = 1 then some (e.num 12 4) else none) (Eng.start (tblHome s t0) t0.region e.got)).2.ask d e .lke .LKE 3 s))) ∧
  (∀ (d : Die) (e : Desc) (n : Nat) (seeds : List Nat) (s : State),
      s.Runs d e 0x20 →
      e.phase = 0 →
      domainCheck d e.sq (e.num 16 8) .lke s = (true, s) →
      createCheck s e = none →
      regionOf s (e.num 16 8) = some n →
      (newSeeds e (atHome (rgAttr s n)) s).1 = some seeds →
      AnswersWith (exec (.tableCreate d e.sq e.seq) s) (fun t => nget t.tables e.table = some ⟨false, some (d, e.sq, e.seq), e.num 8 1, e.num 11 1 % 2, n, e.num 9 1, e.num 10 1, e.num 16 8, e.num 24 8, 0, if e.num 8 1 = 0 then seeds else [], bitn (e.num 11 1) 1, false, false, 0, 0, StageLog.empty⟩ ∧ (∀ k, k ≠ e.table → nget t.tables k = nget s.tables k) ∧ t.slots = s.slots)) ∧
  (∀ (d : Die) (e : Desc) (t0 : TblSt) (k : Nat) (s : State),
      s.Idle →
      tblOf s k = some t0 →
      t0.maker = some (d, e.sq, e.seq) →
      startedDesc s d e.sq e.seq = some e →
      e.left = 0 →
      e.quiet = false →
      rfb s F.CPR_SQ_CTRL.ERROR d e.sq = false →
      rfb s F.CPR_CQ_CTRL.EN d (sqCq s d e.sq) = true →
      rfb s F.CPR_CQ_CTRL.ERROR d (sqCq s d e.sq) = false →
      AnswersWith (exec (.tableFillDone k) s) (fun t => Completed s t d e 0 0 0 ∧ nget t.tables k = some { t0 with valid := true, maker := none } ∧ (∀ j, j ≠ k → nget t.tables j = nget s.tables j) ∧ t.slots = s.slots)) ∧
  (∀ (d : Die) (e : Desc) (t0 : TblSt) (s : State),
      s.Runs d e 0x22 →
      tableCheck d e (fun _ => true) s = (.ok t0, s) →
      e.zero 8 56 = true →
      t0.cleanup = false →
      tableTurn s d e true = true →
      AnswersWith (exec (.tablePublish d e.sq e.seq) s) (fun t => Completed s t d e 0 ((t0.pub + 1) % 65536) 0 ∧ nget t.tables e.table = some { t0 with pub := t0.pub + 1, cleanup := t0.stageOpen, stageOpen := false, keys := t0.staged } ∧ countOf t (tblHome s t0) .LKE 5 = satAdd 32 (countOf s (tblHome s t0) .LKE 5) 1)) ∧
  (∀ (k id : Nat) (t0 : TblSt) (w : EngWork) (s s1 : State),
      s.Idle →
      tblOf s k = some t0 →
      t0.cleanup = true →
      oldLookups s k t0 = false →
      s.dev.mode ≠ .hold →
      takeWork (tblHome s t0) (.cleanup k) s = ((id, w), s1) →
      w.left = 0 →
      w.written = false →
      (settleStage t0 (Eng.start (tblHome s t0) t0.region w.got)).whole = true →
      (settleStage t0 (Eng.start (tblHome s t0) t0.region w.got)).bad = none →
      (settleStage t0 (Eng.start (tblHome s t0) t0.region w.got)).mal = none →
      (settleStage t0 (Eng.start (tblHome s t0) t0.region w.got)).put = [] →
      AnswersWith (exec (.lkeCleanup k) s) (fun t => nget t.tables k = some { t0 with cleanup := false, log := StageLog.empty } ∧ (∀ j, j ≠ k → nget t.tables j = nget s.tables j) ∧ nget (die t (tblHome s t0)).work id = none)) ∧
  (∀ (k id : Nat) (t0 : TblSt) (w : EngWork) (s s1 : State),
      s.Idle →
      tblOf s k = some t0 →
      t0.cleanup = true →
      oldLookups s k t0 = false →
      s.dev.mode ≠ .hold →
      takeWork (tblHome s t0) (.cleanup k) s = ((id, w), s1) →
      w.left = 0 →
      w.written = true →
      AnswersWith (exec (.lkeCleanup k) s) (fun t => nget t.tables k = some { t0 with cleanup := false, log := StageLog.empty } ∧ (∀ j, j ≠ k → nget t.tables j = nget s.tables j) ∧ nget (die t (tblHome s t0)).work id = none)) ∧
  (∀ (k id : Nat) (t0 : TblSt) (w : EngWork) (s s1 : State),
      s.Idle →
      tblOf s k = some t0 →
      t0.cleanup = true →
      oldLookups s k t0 = false →
      s.dev.mode ≠ .hold →
      takeWork (tblHome s t0) (.cleanup k) s = ((id, w), s1) →
      w.left = 0 →
      w.written = false →
      (settleStage t0 (Eng.start (tblHome s t0) t0.region w.got)).whole = true →
      (settleStage t0 (Eng.start (tblHome s t0) t0.region w.got)).bad = none →
      (settleStage t0 (Eng.start (tblHome s t0) t0.region w.got)).mal = none →
      (settleStage t0 (Eng.start (tblHome s t0) t0.region w.got)).put ≠ [] →
      exec (.lkeCleanup k) s = .next (settle (workWrites (tblHome s t0) id .lke t0.region (settleStage t0 (Eng.start (tblHome s t0) t0.region w.got)).writes (onWork (tblHome s t0) id (fun w => { w with written := true }) s1)))) ∧
  (∀ (k id : Nat) (t0 : TblSt) (w : EngWork) (s s1 : State),
      s.Idle →
      tblOf s k = some t0 →
      t0.cleanup = true →
      oldLookups s k t0 = false →
      s.dev.mode ≠ .hold →
      takeWork (tblHome s t0) (.cleanup k) s = ((id, w), s1) →
      w.left = 0 →
      w.written = false →
      (settleStage t0 (Eng.start (tblHome s t0) t0.region w.got)).whole = false →
      exec (.lkeCleanup k) s = .next (settle ((settleStage t0 (Eng.start (tblHome s t0) t0.region w.got)).askWork id .lke .LKE 3 s1))) ∧
  (∀ (d : Die) (e : Desc) (t0 : TblSt) (s : State),
      s.Runs d e 0x23 →
      tableCheck d e (fun _ => true) s = (.ok t0, s) →
      e.zero 8 56 = true →
      AnswersWith (exec (.tableQuery d e.sq e.seq) s) (fun t => Completed s t d e 0 (tblInfo t0) (t0.keys % 2 ^ 32 + t0.pub % 65536 * 2 ^ 32 + min t0.log.entries 65535 * 2 ^ 48) ∧ butRings d t = butRings d s)) ∧
  (∀ (d : Die) (e : Desc) (t0 : TblSt) (s : State),
      s.Runs d e 0x21 →
      e.phase ≠ 1 →
      tableCheck d e (fun _ => true) s = (.ok t0, s) →
      e.zero 8 56 = true →
      tableBusy s e.table (lookupOps ++ updateOps) d e = false →
      AnswersWith (exec (.tableDestroy d e.sq e.seq) s) (fun t => Completed s t d e 0 0 0 ∧ t.tables = nerase s.tables e.table ∧ t.slots = s.slots ∧ t.ops = s.ops)) ∧
  (∀ (d : Die) (e : Desc) (t0 : TblSt) (s : State),
      s.Runs d e 0x21 →
      e.phase ≠ 1 →
      tableCheck d e (fun _ => true) s = (.ok t0, s) →
      e.zero 8 56 = true →
      tableBusy s e.table (lookupOps ++ updateOps) d e = true →
      AnswersWith (exec (.tableDestroy d e.sq e.seq) s) (fun t => nget t.tables e.table = some { t0 with valid := false } ∧ (∀ k, k ≠ e.table → nget t.tables k = nget s.tables k) ∧ startedDesc t d e.sq e.seq = some { e with phase := 1 }))

/-- Chapter 14 (R327): a pool that passes the checks of Table 14.2 has all its cells free. R328: the free stack's top is kept on die by fills and spills of 256. R333: the engine reads a queue's first header, its second packet's head and header ahead. R334, R339: the queries, and QUEUE_SET in each state. R332: the pool is taken for one operation at a time, and is free again after it; `wakePool o k s = s` says that no peer's packet waits for it. -/
def Obligations.PoolsAndQueuesAreSetUpAndQueried : Prop :=
  (∀ (d : Die) (e : Desc) (r : Nat) (s : State),
      s.Runs d e 0x30 →
      clashBefore s d e = false →
      domainCheck d e.sq (e.num 8 8) .que s = (true, s) →
      poolCreateCheck s e = none →
      regionOf s (e.num 8 8) = some r →
      wakePool (dieOf (e.arg / 8)) (e.arg % 8) s = s →
      AnswersWith (exec (.poolCreate d e.sq e.seq) s) (fun t => poolOf t (dieOf (e.arg / 8)) (e.arg % 8) = some ⟨r, e.num 8 8, e.num 16 4 * 8192, e.num 20 4, e.num 24 4, e.num 16 4 * 8192, [], false, none⟩ ∧ t.tables = s.tables ∧ (∀ x, (die t x).queues = (die s x).queues))) ∧
  (∀ (d : Die) (e : Desc) (p : PoolAt) (s : State),
      s.Runs d e 0x31 →
      poolCheck d e s = (.ok p, s) →
      clashBefore s d e = false →
      p.pool.freeFor (.desc d e.sq e.seq) = true →
      wakePool p.die (p.num) s = s →
      e.zero 8 56 = true →
      poolBound s p.die p.num = false →
      AnswersWith (exec (.poolDestroy d e.sq e.seq) s) (fun t => Completed s t d e 0 0 0 ∧ (die t p.die).pools = nerase (die s p.die).pools p.num ∧ (die t p.die).queues = (die s p.die).queues)) ∧
  (∀ (d : Die) (e : Desc) (p : PoolAt) (s : State),
      s.Runs d e 0x31 →
      poolCheck d e s = (.ok p, s) →
      clashBefore s d e = false →
      p.pool.freeFor (.desc d e.sq e.seq) = true →
      wakePool p.die (p.num) s = s →
      e.zero 8 56 = true →
      p.pool.lock = none →
      poolBound s p.die p.num = true →
      AnswersWith (exec (.poolDestroy d e.sq e.seq) s) (fun t => Completed s t d e 0x42 0 0 ∧ butRings d t = butRings d s)) ∧
  (∀ (d : Die) (e : Desc) (p : PoolAt) (s : State),
      s.Runs d e 0x32 →
      poolCheck d e s = (.ok p, s) →
      clashBefore s d e = false →
      p.pool.freeFor (.desc d e.sq e.seq) = true →
      wakePool p.die (p.num) s = s →
      e.zero 8 56 = true →
      p.pool.lock = none →
      AnswersWith (exec (.poolQuery d e.sq e.seq) s) (fun t => Completed s t d e 0 (p.pool.region + 256 * b2n (decide (p.pool.free < p.pool.low))) p.pool.free ∧ butRings d t = butRings d s)) ∧
  (∀ (d : Die) (e : Desc) (p : PoolSt) (s : State),
      s.Runs d e 0x33 →
      e.arg < 2 ^ 18 →
      diePresent s (queueDie e.arg) = true →
      e.num 8 1 < 16 →
      e.zero 9 3 = true →
      e.zero 16 48 = true →
      bitn (e.num 8 1) 0 = true →
      (queueOf s (queueDie e.arg) (queueLocal e.arg)).st = .disabled →
      poolOf s (queueDie e.arg) (fld (e.num 8 1) 1 3) = some p →
      domainCheck d e.sq p.base .que s = (true, s) →
      clashBefore s d e = false →
      p.freeFor (.desc d e.sq e.seq) = true →
      wakePool (queueDie e.arg) (fld (e.num 8 1) 1 3) s = s →
      AnswersWith (exec (.queueSet d e.sq e.seq) s) (fun t => Completed s t d e 0 0 0 ∧ queueOf t (queueDie e.arg) (queueLocal e.arg) = { (queueOf s (queueDie e.arg) (queueLocal e.arg)).emptied with st := .enabled, pool := fld (e.num 8 1) 1 3, thresh := e.num 12 4, drops := 0 } ∧ (∀ k, k ≠ queueLocal e.arg → queueOf t (queueDie e.arg) k = queueOf s (queueDie e.arg) k))) ∧
  (∀ (d : Die) (e : Desc) (p : PoolSt) (x : QueueSt) (s : State),
      s.Runs d e 0x33 →
      e.arg < 2 ^ 18 →
      diePresent s (queueDie e.arg) = true →
      e.num 8 1 < 16 →
      e.zero 9 3 = true →
      e.zero 16 48 = true →
      queueOf s (queueDie e.arg) (queueLocal e.arg) = x →
      x.st = .enabled →
      bitn (e.num 8 1) 0 = true →
      fld (e.num 8 1) 1 3 = x.pool →
      poolOf s (queueDie e.arg) x.pool = some p →
      domainCheck d e.sq p.base .que s = (true, s) →
      clashBefore s d e = false →
      p.freeFor (.desc d e.sq e.seq) = true →
      wakePool (queueDie e.arg) (x.pool) s = s →
      AnswersWith (exec (.queueSet d e.sq e.seq) s) (fun t => Completed s t d e 0 0 0 ∧ queueOf t (queueDie e.arg) (queueLocal e.arg) = { x with thresh := e.num 12 4 } ∧ (∀ k, k ≠ queueLocal e.arg → queueOf t (queueDie e.arg) k = queueOf s (queueDie e.arg) k))) ∧
  (∀ (d : Die) (e : Desc) (p : PoolSt) (x : QueueSt) (s : State),
      s.Runs d e 0x33 →
      e.arg < 2 ^ 18 →
      diePresent s (queueDie e.arg) = true →
      e.num 8 1 < 16 →
      e.zero 9 3 = true →
      e.zero 16 48 = true →
      queueOf s (queueDie e.arg) (queueLocal e.arg) = x →
      x.st = .enabled →
      bitn (e.num 8 1) 0 = false →
      x.pkts = 0 →
      poolOf s (queueDie e.arg) x.pool = some p →
      domainCheck d e.sq p.base .que s = (true, s) →
      clashBefore s d e = false →
      p.freeFor (.desc d e.sq e.seq) = true →
      wakePool (queueDie e.arg) (x.pool) s = s →
      AnswersWith (exec (.queueSet d e.sq e.seq) s) (fun t => Completed s t d e 0 0 0 ∧ queueOf t (queueDie e.arg) (queueLocal e.arg) = { x with st := .disabled } ∧ (∀ k, k ≠ queueLocal e.arg → queueOf t (queueDie e.arg) k = queueOf s (queueDie e.arg) k))) ∧
  (∀ (d : Die) (e : Desc) (q : QueueAt) (s : State),
      s.Runs d e 0x34 →
      queueCheck d e s = (.ok q, s) →
      clashBefore s d e = false →
      q.at_.pool.freeFor (.desc d e.sq e.seq) = true →
      wakePool q.at_.die (q.at_.num) s = s →
      q.queue.st ≠ .fault →
      e.zero 8 56 = true →
      q.at_.pool.lock = none →
      AnswersWith (exec (.queueQuery d e.sq e.seq) s) (fun t => Completed s t d e 0 q.queue.cells (q.queue.bytes % 2 ^ 48 + queueStateNum q.queue.st * 2 ^ 48 + q.queue.pool * 2 ^ 50) ∧ butRings d t = butRings d s)) ∧
  (∀ (o : Die) (k id : Nat) (p : PoolSt) (w : EngWork) (s s1 : State),
      s.Idle →
      poolOf s o k = some p →
      p.held.length < 256 →
      256 ≤ p.deep →
      s.dev.mode ≠ .hold →
      takeWork o (.fill k) s = ((id, w), s1) →
      w.left = 0 →
      p.freeFor (.work id) = true →
      (stackFill p (Eng.start o p.region w.got)).2.2.whole = false →
      exec (.stackFill o k) s = .next (settle ((stackFill p (Eng.start o p.region w.got)).2.2.askWork id .que .QUE 8 (lockPool o k (.work id) s1)))) ∧
  (∀ (o : Die) (k id : Nat) (p : PoolSt) (w : EngWork) (s s1 : State),
      s.Idle →
      poolOf s o k = some p →
      p.held.length < 256 →
      256 ≤ p.deep →
      s.dev.mode ≠ .hold →
      takeWork o (.fill k) s = ((id, w), s1) →
      w.left = 0 →
      p.freeFor (.work id) = true →
      (stackFill p (Eng.start o p.region w.got)).2.2.whole = true →
      wakePool o k s = s →
      AnswersWith (exec (.stackFill o k) s) (fun t => (poolOf t o k).any (fun x => x.lock.isNone && decide (x.held = (stackFill p (Eng.start o p.region w.got)).1.held) && x.free + (stackFill p (Eng.start o p.region w.got)).2.1 == p.free && x.base == p.base && x.cells == p.cells) = true ∧ (die t o).queues = (die s o).queues ∧ nget (die t o).work id = none ∧ t.ops = s.ops)) ∧
  (∀ (o : Die) (k : Nat) (p : PoolSt) (s : State),
      s.Idle →
      poolOf s o k = some p →
      768 < p.held.length →
      p.lock = none →
      s.dev.mode ≠ .hold →
      AnswersWith (exec (.stackSpill o k) s) (fun t => poolOf t o k = some { p with held := p.held.take (p.held.length - 256) } ∧ (die t o).queues = (die s o).queues ∧ t.tables = s.tables)) ∧
  (∀ (o : Die) (k id : Nat) (p : PoolSt) (w : EngWork) (s s1 : State),
      s.Idle →
      poolOf s o (queueOf s o k).pool = some p →
      (queueOf s o k).st = .enabled →
      s.dev.mode ≠ .hold →
      takeWork o (.ahead k) s = ((id, w), s1) →
      w.left = 0 →
      p.freeFor (.work id) = true →
      (readAhead p 3 (queueOf s o k) (Eng.start o p.region w.got)).2.2.whole = false →
      exec (.readAhead o k) s = .next (settle ((readAhead p 3 (queueOf s o k) (Eng.start o p.region w.got)).2.2.askWork id .que .QUE 8 (lockPool o (queueOf s o k).pool (.work id) s1)))) ∧
  (∀ (o : Die) (k id : Nat) (p : PoolSt) (w : EngWork) (s s1 : State),
      s.Idle →
      poolOf s o (queueOf s o k).pool = some p →
      (queueOf s o k).st = .enabled →
      s.dev.mode ≠ .hold →
      takeWork o (.ahead k) s = ((id, w), s1) →
      w.left = 0 →
      p.freeFor (.work id) = true →
      (readAhead p 3 (queueOf s o k) (Eng.start o p.region w.got)).2.2.whole = true →
      (readAhead p 3 (queueOf s o k) (Eng.start o p.region w.got)).2.1 = none →
      wakePool o (queueOf s o k).pool s = s →
      AnswersWith (exec (.readAhead o k) s) (fun t => queueOf t o k = (readAhead p 3 (queueOf s o k) (Eng.start o p.region w.got)).1 ∧ (∀ j, j ≠ k → queueOf t o j = queueOf s o j) ∧ poolOf t o (queueOf s o k).pool = some { p with lock := none } ∧ nget (die t o).work id = none ∧ t.ops = s.ops))

/-- Chapter 14 (R335, R338): an allocation takes the cells from the top of the free stack; a free puts them back. R336, R337: a packet joins the end of its queue; a dequeue removes the first packet, and a peek only tells of it. R336: the threshold drops a packet. R340: a flush detaches the chain at once and its cells go back when the walk is made. R342: a remote enqueue sends the packet. R332: each is done in its turn on its pool, which is free again after it. -/
def Obligations.CellsAndPacketsMoveThroughQueues : Prop :=
  (∀ (d : Die) (e : Desc) (p : PoolAt) (c : Nat) (hs : List Nat) (s : State),
      s.Runs d e 0x38 →
      poolCheck d e s = (.ok p, s) →
      clashBefore s d e = false →
      p.pool.freeFor (.desc d e.sq e.seq) = true →
      wakePool p.die (p.num) s = s →
      e.num 8 2 = 1 →
      e.num 10 1 = 0 →
      e.zero 11 5 = true →
      e.zero 24 40 = true →
      p.pool.held = c :: hs →
      0 < p.pool.free →
      AnswersWith (exec (.allocate d e.sq e.seq) s) (fun t => Completed s t d e 0 c c ∧ (poolOf t p.die p.num).any (fun x => x.lock.isNone && decide (x.held = hs) && x.free == p.pool.free - 1) = true ∧ countOf t p.die .QUE 4 = satAdd 32 (countOf s p.die .QUE 4) 1 ∧ (die t p.die).queues = (die s p.die).queues)) ∧
  (∀ (d : Die) (e : Desc) (p : PoolAt) (cs : List Nat) (q : PoolSt) (lost : Nat) (v : Eng) (s : State),
      s.Runs d e 0x38 →
      poolCheck d e s = (.ok p, s) →
      clashBefore s d e = false →
      p.pool.freeFor (.desc d e.sq e.seq) = true →
      wakePool p.die (p.num) s = s →
      0 < e.num 8 2 →
      e.num 8 2 ≤ 256 →
      e.num 10 1 < 4 →
      e.zero 11 5 = true →
      e.zero 24 40 = true →
      (bitn (e.num 10 1) 0 && !e.begun) = true → placeDomain d e.sq ⟨bitn (e.num 10 1) 1, e.num 16 8⟩ s = (true, s) ∧ listStatus s ⟨bitn (e.num 10 1) 1, e.num 16 8⟩ (e.num 8 2) true = 0 →
      popCells (e.num 8 2) p.pool (p.view e) = (some cs, q, lost, v) →
      v.whole = true →
      AnswersWith (exec (.allocate d e.sq e.seq) s) (fun t => (poolOf t p.die p.num).any (fun x => x.lock.isNone && decide (x.held = q.held) && x.free == q.free) = true ∧ countOf t p.die .QUE 4 = satAdd 32 (countOf s p.die .QUE 4) (e.num 8 2) ∧ (die t p.die).queues = (die s p.die).queues)) ∧
  (∀ (d : Die) (e : Desc) (p : PoolAt) (w : Walk) (v : Eng) (host : List LineData) (s : State),
      s.Runs d e 0x39 →
      poolCheck d e s = (.ok p, s) →
      clashBefore s d e = false →
      p.pool.freeFor (.desc d e.sq e.seq) = true →
      wakePool p.die (p.num) s = s →
      e.phase ≠ 1 →
      0 < e.num 8 2 →
      e.num 8 2 ≤ 256 →
      e.num 10 1 = 0 ∨ e.num 10 1 = 2 →
      e.zero 11 5 = true →
      e.zero 28 36 = true →
      walkChain p.pool (e.num 8 2 - 1) (e.num 24 4) (p.view e) = (w, v) →
      v.whole = true →
      w.outside = false →
      w.poison = false →
      AnswersWith (exec (.free d e.sq e.seq host) s) (fun t => (p.pool.held.length + w.cells.length ≤ 1024 → Completed s t d e 0 w.cells.length 0) ∧ (poolOf t p.die p.num).any (fun x => x.lock.isNone && decide (x.held = (pushCells w.cells p.pool v).1.held) && x.free == p.pool.free + w.cells.length) = true ∧ countOf t p.die .QUE 5 = satAdd 32 (countOf s p.die .QUE 5) w.cells.length ∧ (die t p.die).queues = (die s p.die).queues)) ∧
  (∀ (d : Die) (e : Desc) (p : PoolAt) (cs : List Nat) (host : List LineData) (s : State),
      s.Runs d e 0x39 →
      poolCheck d e s = (.ok p, s) →
      clashBefore s d e = false →
      p.pool.freeFor (.desc d e.sq e.seq) = true →
      wakePool p.die (p.num) s = s →
      0 < e.num 8 2 →
      e.num 8 2 ≤ 256 →
      (e.num 10 1 = 1 ∧ e.phase ≠ 1) ∨ (e.num 10 1 = 3 ∧ e.phase = 1) →
      e.zero 11 5 = true →
      e.zero 28 36 = true →
      listIndices e ⟨bitn (e.num 10 1) 1, e.num 16 8⟩ host (e.num 8 2) = (cs, false) →
      cs.any (fun c => decide (p.pool.cells ≤ c)) = false →
      AnswersWith (exec (.free d e.sq e.seq host) s) (fun t => (p.pool.held.length + cs.length ≤ 1024 → Completed s t d e 0 (e.num 8 2) 0) ∧ (poolOf t p.die p.num).any (fun x => x.lock.isNone && decide (x.held = (pushCells cs p.pool (p.view e)).1.held) && x.free == p.pool.free + cs.length) = true ∧ countOf t p.die .QUE 5 = satAdd 32 (countOf s p.die .QUE 5) cs.length ∧ (die t p.die).queues = (die s p.die).queues)) ∧
  (∀ (d : Die) (e : Desc) (q : QueueAt) (l : Line) (s : State),
      s.Runs d e 0x3A →
      queueCheck d e s = (.ok q, s) →
      clashBefore s d e = false →
      q.at_.pool.freeFor (.desc d e.sq e.seq) = true →
      wakePool q.at_.die (q.at_.num) s = s →
      q.queue.st = .enabled →
      e.num 8 4 < q.at_.pool.cells →
      e.num 12 4 < q.at_.pool.cells →
      0 < e.num 16 2 →
      e.num 16 2 ≤ 65520 →
      decide (e.num 8 4 = e.num 12 4) = decide (cellsFor (e.num 16 2) = 1) →
      e.zero 18 2 = true →
      e.zero 24 40 = true →
      tailDrops q.queue (cellsFor (e.num 16 2)) = false →
      (((q.at_.view e).fetch (q.at_.pool.cell (e.num 8 4) :: if q.queue.pkts = 0 then [] else [q.at_.pool.link q.queue.tailLast])).tryRead (q.at_.pool.cell (e.num 8 4))).1 = some l →
      (linkOn q.at_.pool q.queue (e.num 8 4) ((((q.at_.view e).fetch (q.at_.pool.cell (e.num 8 4) :: if q.queue.pkts = 0 then [] else [q.at_.pool.link q.queue.tailLast])).tryRead (q.at_.pool.cell (e.num 8 4))).2.write (q.at_.pool.cell (e.num 8 4)) (lineSet l 0 16 (header (e.num 16 2) 0 (e.num 12 4) (e.num 20 4))))).1 = true →
      (linkOn q.at_.pool q.queue (e.num 8 4) ((((q.at_.view e).fetch (q.at_.pool.cell (e.num 8 4) :: if q.queue.pkts = 0 then [] else [q.at_.pool.link q.queue.tailLast])).tryRead (q.at_.pool.cell (e.num 8 4))).2.write (q.at_.pool.cell (e.num 8 4)) (lineSet l 0 16 (header (e.num 16 2) 0 (e.num 12 4) (e.num 20 4))))).2.whole = true →
      AnswersWith (exec (.enqueue d e.sq e.seq) s) (fun t => queueOf t q.at_.die q.num = q.queue.joined (e.num 8 4) (e.num 12 4) (header (e.num 16 2) 0 (e.num 12 4) (e.num 20 4)) ∧ countOf t q.at_.die .QUE 0 = satAdd 32 (countOf s q.at_.die .QUE 0) 1 ∧ countOf t q.at_.die .QUE 2 = satAdd 32 (countOf s q.at_.die .QUE 2) (cellsFor (e.num 16 2)) ∧ (∀ k, k ≠ q.num → queueOf t q.at_.die k = queueOf s q.at_.die k))) ∧
  (∀ (d : Die) (e : Desc) (q : QueueAt) (s : State),
      s.Runs d e 0x3A →
      queueCheck d e s = (.ok q, s) →
      clashBefore s d e = false →
      q.at_.pool.freeFor (.desc d e.sq e.seq) = true →
      wakePool q.at_.die (q.at_.num) s = s →
      q.queue.st = .enabled →
      e.num 8 4 < q.at_.pool.cells →
      e.num 12 4 < q.at_.pool.cells →
      0 < e.num 16 2 →
      e.num 16 2 ≤ 65520 →
      decide (e.num 8 4 = e.num 12 4) = decide (cellsFor (e.num 16 2) = 1) →
      e.zero 18 2 = true →
      e.zero 24 40 = true →
      tailDrops q.queue (cellsFor (e.num 16 2)) = false →
      (((q.at_.view e).fetch (q.at_.pool.cell (e.num 8 4) :: if q.queue.pkts = 0 then [] else [q.at_.pool.link q.queue.tailLast])).tryRead (q.at_.pool.cell (e.num 8 4))).1.isSome = true →
      (((q.at_.view e).fetch (q.at_.pool.cell (e.num 8 4) :: if q.queue.pkts = 0 then [] else [q.at_.pool.link q.queue.tailLast])).tryRead (q.at_.pool.cell (e.num 8 4))).2.whole = false →
      q.queue.pkts = 0 →
      exec (.enqueue d e.sq e.seq) s = .next (settle (lockPool q.at_.die q.at_.num (.desc d e.sq e.seq) ((((q.at_.view e).fetch (q.at_.pool.cell (e.num 8 4) :: if q.queue.pkts = 0 then [] else [q.at_.pool.link q.queue.tailLast])).tryRead (q.at_.pool.cell (e.num 8 4))).2.ask d e .que .QUE 8 s)))) ∧
  (∀ (d : Die) (e : Desc) (q : QueueAt) (s : State),
      s.Runs d e 0x3A →
      queueCheck d e s = (.ok q, s) →
      clashBefore s d e = false →
      q.at_.pool.freeFor (.desc d e.sq e.seq) = true →
      wakePool q.at_.die (q.at_.num) s = s →
      q.queue.st = .enabled →
      e.num 8 4 < q.at_.pool.cells →
      e.num 12 4 < q.at_.pool.cells →
      0 < e.num 16 2 →
      e.num 16 2 ≤ 65520 →
      decide (e.num 8 4 = e.num 12 4) = decide (cellsFor (e.num 16 2) = 1) →
      e.zero 18 2 = true →
      e.zero 24 40 = true →
      tailDrops q.queue (cellsFor (e.num 16 2)) = true →
      AnswersWith (exec (.enqueue d e.sq e.seq) s) (fun t => Completed s t d e 0x0B 0 0 ∧ queueOf t q.at_.die q.num = { q.queue with drops := satAdd 32 q.queue.drops 1 } ∧ poolOf t q.at_.die q.at_.num = some { q.at_.pool with lock := none })) ∧
  (∀ (d : Die) (e : Desc) (q : QueueAt) (s : State),
      s.Runs d e 0x3B →
      queueCheck d e s = (.ok q, s) →
      clashBefore s d e = false →
      q.at_.pool.freeFor (.desc d e.sq e.seq) = true →
      wakePool q.at_.die (q.at_.num) s = s →
      q.queue.st = .enabled →
      bitn (e.num 8 1) 0 = false →
      e.num 8 1 < 4 →
      e.zero 9 7 = true →
      e.zero 24 40 = true →
      q.queue.pkts ≠ 0 →
      (readAhead q.at_.pool 2 q.queue (q.at_.view e)).2.1 = none →
      (readAhead q.at_.pool 2 q.queue (q.at_.view e)).2.2.whole = true →
      AnswersWith (exec (.dequeue d e.sq e.seq) s) (fun t => Completed s t d e 0 (readAhead q.at_.pool 2 q.queue (q.at_.view e)).1.head (hdrResult ((readAhead q.at_.pool 2 q.queue (q.at_.view e)).1.hdr.getD 0)) ∧ queueOf t q.at_.die q.num = (readAhead q.at_.pool 2 q.queue (q.at_.view e)).1.removed ∧ poolOf t q.at_.die q.at_.num = some { q.at_.pool with lock := none } ∧ (∀ k, k ≠ q.num → queueOf t q.at_.die k = queueOf s q.at_.die k) ∧ t.ops = s.ops)) ∧
  (∀ (d : Die) (e : Desc) (q : QueueAt) (s : State),
      s.Runs d e 0x3C →
      queueCheck d e s = (.ok q, s) →
      clashBefore s d e = false →
      q.at_.pool.freeFor (.desc d e.sq e.seq) = true →
      wakePool q.at_.die (q.at_.num) s = s →
      q.queue.st = .enabled →
      e.zero 8 56 = true →
      q.queue.pkts ≠ 0 →
      (readAhead q.at_.pool 1 q.queue (q.at_.view e)).2.1 = none →
      (readAhead q.at_.pool 1 q.queue (q.at_.view e)).2.2.whole = true →
      AnswersWith (exec (.peek d e.sq e.seq) s) (fun t => Completed s t d e 0 (readAhead q.at_.pool 1 q.queue (q.at_.view e)).1.head (hdrResult ((readAhead q.at_.pool 1 q.queue (q.at_.view e)).1.hdr.getD 0)) ∧ queueOf t q.at_.die q.num = (readAhead q.at_.pool 1 q.queue (q.at_.view e)).1 ∧ poolOf t q.at_.die q.at_.num = some { q.at_.pool with lock := none } ∧ (∀ k, k ≠ q.num → queueOf t q.at_.die k = queueOf s q.at_.die k) ∧ t.ops = s.ops)) ∧
  (∀ (d : Die) (e : Desc) (q : QueueAt) (s : State),
      s.Runs d e 0x3B →
      queueCheck d e s = (.ok q, s) →
      clashBefore s d e = false →
      q.at_.pool.freeFor (.desc d e.sq e.seq) = true →
      wakePool q.at_.die (q.at_.num) s = s →
      q.queue.st = .enabled →
      e.num 8 1 = 1 →
      e.zero 9 7 = true →
      e.zero 24 40 = true →
      q.queue.pkts ≠ 0 →
      (readAhead q.at_.pool 2 q.queue (q.at_.view e)).2.1 = none →
      (readAhead q.at_.pool 2 q.queue (q.at_.view e)).2.2.whole = true →
      (walkChain q.at_.pool (cellsFor (hdrLen ((readAhead q.at_.pool 2 q.queue (q.at_.view e)).1.hdr.getD 0)) - 1) (readAhead q.at_.pool 2 q.queue (q.at_.view e)).1.head (readAhead q.at_.pool 2 q.queue (q.at_.view e)).2.2).2.whole = true →
      (walkChain q.at_.pool (cellsFor (hdrLen ((readAhead q.at_.pool 2 q.queue (q.at_.view e)).1.hdr.getD 0)) - 1) (readAhead q.at_.pool 2 q.queue (q.at_.view e)).1.head (readAhead q.at_.pool 2 q.queue (q.at_.view e)).2.2).1.poison = false →
      (walkChain q.at_.pool (cellsFor (hdrLen ((readAhead q.at_.pool 2 q.queue (q.at_.view e)).1.hdr.getD 0)) - 1) (readAhead q.at_.pool 2 q.queue (q.at_.view e)).1.head (readAhead q.at_.pool 2 q.queue (q.at_.view e)).2.2).1.outside = false →
      portAlive s d = true →
      AnswersWith (exec (.dequeue d e.sq e.seq) s) (fun t => Completed s t d e 0 (readAhead q.at_.pool 2 q.queue (q.at_.view e)).1.head (hdrResult ((readAhead q.at_.pool 2 q.queue (q.at_.view e)).1.hdr.getD 0)) ∧ queueOf t q.at_.die q.num = (readAhead q.at_.pool 2 q.queue (q.at_.view e)).1.removed ∧ t.out.any (fun m => decide (m = .hostWrite d (e.num 16 8) ((walkChain q.at_.pool (cellsFor (hdrLen ((readAhead q.at_.pool 2 q.queue (q.at_.view e)).1.hdr.getD 0)) - 1) (readAhead q.at_.pool 2 q.queue (q.at_.view e)).1.head (readAhead q.at_.pool 2 q.queue (q.at_.view e)).2.2).1.cells.flatMap (fun c => leBytes 4 c)) false)) = true ∧ (∀ k, k ≠ q.num → queueOf t q.at_.die k = queueOf s q.at_.die k))) ∧
  (∀ (d : Die) (e : Desc) (q : QueueAt) (s : State),
      s.Runs d e 0x3B →
      queueCheck d e s = (.ok q, s) →
      clashBefore s d e = false →
      q.at_.pool.freeFor (.desc d e.sq e.seq) = true →
      wakePool q.at_.die (q.at_.num) s = s →
      q.queue.st = .enabled →
      bitn (e.num 8 1) 0 = false →
      e.num 8 1 < 4 →
      e.zero 9 7 = true →
      e.zero 24 40 = true →
      q.queue.pkts ≠ 0 →
      (readAhead q.at_.pool 2 q.queue (q.at_.view e)).2.2.whole = false →
      exec (.dequeue d e.sq e.seq) s = .next (settle (lockPool q.at_.die q.at_.num (.desc d e.sq e.seq) ((readAhead q.at_.pool 2 q.queue (q.at_.view e)).2.2.ask d e .que .QUE 8 s)))) ∧
  (∀ (d : Die) (e : Desc) (q : QueueAt) (s : State),
      s.Runs d e 0x3D →
      queueCheck d e s = (.ok q, s) →
      clashBefore s d e = false →
      q.at_.pool.freeFor (.desc d e.sq e.seq) = true →
      wakePool q.at_.die (q.at_.num) s = s →
      e.phase = 0 →
      q.queue.st = .enabled →
      e.zero 8 56 = true →
      0 < q.queue.pkts →
      AnswersWith (exec (.flush d e.sq e.seq) s) (fun t => queueOf t q.at_.die q.num = q.queue.emptied ∧ startedDesc t d e.sq e.seq = some { e with phase := 1, vals := [(0, q.queue.head), (1, q.queue.cells), (2, q.queue.pkts), (3, q.at_.num)] } ∧ poolOf t q.at_.die q.at_.num = some { q.at_.pool with lock := none } ∧ (∀ k, k ≠ q.num → queueOf t q.at_.die k = queueOf s q.at_.die k))) ∧
  (∀ (d : Die) (e : Desc) (q : QueueAt) (s : State),
      s.Runs d e 0x3D →
      queueCheck d e s = (.ok q, s) →
      clashBefore s d e = false →
      q.at_.pool.freeFor (.desc d e.sq e.seq) = true →
      wakePool q.at_.die (q.at_.num) s = s →
      e.phase = 0 →
      q.queue.st = .enabled →
      e.zero 8 56 = true →
      q.queue.pkts = 0 →
      q.at_.pool.lock = none →
      AnswersWith (exec (.flush d e.sq e.seq) s) (fun t => Completed s t d e 0 0 0 ∧ butRings d t = butRings d s)) ∧
  (∀ (d : Die) (e : Desc) (p : PoolSt) (c n k : Nat) (w : Walk) (v : Eng) (s : State),
      s.Runs d e 0x3D →
      e.phase = 1 →
      ngetD e.vals 0 0 = c →
      ngetD e.vals 1 0 = n →
      ngetD e.vals 2 0 = k →
      poolOf s (queueDie e.arg) (ngetD e.vals 3 0) = some p →
      p.freeFor (.desc d e.sq e.seq) = true →
      wakePool (queueDie e.arg) (ngetD e.vals 3 0) s = s →
      walkChain p (n - 1) c (Eng.start (queueDie e.arg) p.region e.got) = (w, v) →
      v.whole = true →
      w.outside = false →
      w.poison = false →
      w.cells.all (fun c => decide (c < p.cells)) = true →
      AnswersWith (exec (.flushDone d e.sq e.seq) s) (fun t => (p.held.length + w.cells.length ≤ 1024 → Completed s t d e 0 k w.cells.length) ∧ (poolOf t (queueDie e.arg) (ngetD e.vals 3 0)).any (fun x => x.lock.isNone && decide (x.held = (pushCells w.cells p v).1.held) && x.free == p.free + w.cells.length) = true)) ∧
  (∀ (d : Die) (e : Desc) (p : PoolSt) (c n k : Nat) (s : State),
      s.Runs d e 0x3D →
      e.phase = 1 →
      ngetD e.vals 0 0 = c →
      ngetD e.vals 1 0 = n →
      ngetD e.vals 2 0 = k →
      poolOf s (queueDie e.arg) (ngetD e.vals 3 0) = some p →
      p.freeFor (.desc d e.sq e.seq) = true →
      (walkChain p (n - 1) c (Eng.start (queueDie e.arg) p.region e.got)).2.whole = false →
      exec (.flushDone d e.sq e.seq) s = .next (settle (unlockPool (queueDie e.arg) (ngetD e.vals 3 0) ((walkChain p (n - 1) c (Eng.start (queueDie e.arg) p.region e.got)).2.ask d e .que .QUE 8 s)))) ∧
  (∀ (d : Die) (e : Desc) (host : List LineData) (s : State),
      s.Runs d e 0x3E →
      e.phase = 0 →
      e.num 10 1 = 0 →
      e.num 11 1 = 0 →
      0 < e.num 12 2 →
      e.num 12 2 ≤ 64 →
      e.arg < 2 ^ 21 →
      e.num 8 2 < 4096 →
      e.zero 14 2 = true →
      e.zero 24 40 = true →
      outPort s d (e.num 8 2) = some d →
      inFlight s d < 8192 →
      s.FabOpen d (e.num 8 2) →
      (ctx s d (e.num 8 2)).unacked.length < 1024 →
      AnswersWith (exec (.remoteEnqueue d e.sq e.seq host) s) (fun t => SentFrame t d (fun f => f.op == 5 && f.arg == e.arg + e.num 12 2 * 2 ^ 32 && !f.more && decide (f.payload = ((lineBytes (host.headD poisoned).line).take (e.num 12 2))) && f.mask.isSome == (host.headD poisoned).poison && f.seq == (ctx s d (e.num 8 2)).nextSeq) ∧
        (ctx t d (e.num 8 2)).reqs = (ctx s d (e.num 8 2)).reqs ++ [⟨(ctx s d (e.num 8 2)).nextTag, 5, .enq d e.sq e.seq, 0, e.num 12 2, []⟩] ∧ (startedDesc t d e.sq e.seq).any (fun x => x.phase == 2 && x.left == 1) = true))

/-- Chapter 15 (R352): a commit that leaves N and PFD_SEL copies the masked outputs, a delay alone being stepped toward; R353: one that falls due while the synthesizer relocks or is gated waits. R358: loss of lock is flagged and posted; CKS-C and CKS-A relock at once, a CKS-M first quiesces with its channels in CLOCK_RECOVERY (R359). R355: a stored band, then two full searches, then FAILED (R363). R356: outputs are released after lock. R364: an armed injection is taken at the loss that it makes. -/
def Obligations.SynthesizersCommitLockAndRecover : Prop :=
  (∀ (d : Die) (m : Nat) (v : Word) (s : State),
      s.Idle →
      diePresent s d = true →
      m < 4 →
      verdict s .CKS d false = .take →
      rfc s F.DEV_MODE.LOCKED 0 = 0 →
      bitn v.toNat 0 = true →
      (synth s d m).phase = .locked →
      (synth s d m).n = (planStage s d m (fld v.toNat 1 1) (fld v.toNat 8 6)).n →
      (synth s d m).pfd = (planStage s d m (fld v.toNat 1 1) (fld v.toNat 8 6)).pfd →
      AnswersWith (exec (.cksCommit d m v) s) (fun t => (synth t d m).phase = .locked ∧ (synth t d m).outs = commitOuts false (fld v.toNat 8 6) (synth s d m).outs (planStage s d m (fld v.toNat 1 1) (fld v.toNat 8 6)).outs ∧ rf t F.CKS_STATUS.POINT d m = fld v.toNat 1 1 ∧ (∀ k, k ≠ m → synth t d k = synth s d k) ∧ t.out = s.out ∧ (die t d).chans = (die s d).chans)) ∧
  (∀ (d : Die) (m : Nat) (v : Word) (s : State),
      s.Idle →
      diePresent s d = true →
      m < 4 →
      verdict s .CKS d false = .take →
      rfc s F.DEV_MODE.LOCKED 0 = 0 →
      bitn v.toNat 0 = true →
      (synth s d m).phase ≠ .locked →
      (synth s d m).phase ≠ .failed →
      exec (.cksCommit d m v) s = .next (onSynth d m (fun y => { y with pend := some (mergeStage y.pend (planStage s d m (fld v.toNat 1 1) (fld v.toNat 8 6))) }) s)) ∧
  (∀ (d : Die) (m : Nat) (v : Word) (s : State),
      s.Idle →
      diePresent s d = true →
      m < 4 →
      verdict s .CKS d false = .take →
      rfc s F.DEV_MODE.LOCKED 0 = 1 →
      exec (.cksCommit d m v) s = .next (cntF F.DEV_IGNORED_COUNT.LOCKED .east 0 1 s)) ∧
  (∀ (d : Die) (m k : Nat) (o : OutSt) (s : State),
      (synth s d m).phase = .locked →
      (synth s d m).outs[k]? = some o →
      AnswersWith (exec (.delayStep d m k) s) (fun t => (synth t d m).outs[k]? = some { o with delay := if o.delay < o.want then o.delay + 1 else if o.want < o.delay then o.delay - 1 else o.delay } ∧ (∀ j, j ≠ k → (synth t d m).outs[j]? = (synth s d m).outs[j]?) ∧ t.regs = s.regs ∧ t.out = s.out)) ∧
  (∀ (d : Die) (m : Nat) (s : State),
      s.Idle →
      diePresent s d = true →
      m < 4 →
      (synth s d m).phase = .locked →
      rfb s F.CKS_INJ.ARMED d m = false →
      isM m = false →
      (die s d).refLost = false →
      AnswersWith (exec (.cksLockLost d m) s) (fun t => (synth t d m).phase = (if (bandSlot (synth s d m)).isSome then .stored else .search 1) ∧ (synth t d m).lost = true ∧ (synth t d m).n = (synth s d m).n ∧ rf t F.CKS_STATUS.LOL d m = 1 ∧ rf t F.CKS_STATUS.LOCKED d m = 0 ∧ Told s t 0x1040 1 ∧ (∀ k, k ≠ m → synth t d k = synth s d k) ∧ (die t d).chans = (die s d).chans)) ∧
  (∀ (d : Die) (m : Nat) (s : State),
      s.Idle →
      diePresent s d = true →
      m < 4 →
      (synth s d m).phase = .locked →
      rfb s F.CKS_INJ.ARMED d m = true →
      isM m = true →
      AnswersWith (exec (.cksLockLost d m) s) (fun t => (synth t d m).phase = .quiesce ∧ (synthChans m).all (fun c => (chan t d c).clockRec) = true ∧ rf t F.CKS_STATUS.LOL d m = 1 ∧ rf t F.CKS_STATUS.HOLDOVER d m = 1 ∧ rf t F.CKS_STATUS.INJ_DONE d m = 1 ∧ rf t F.CKS_INJ.ARMED d m = 0 ∧ Told s t 0x1040 1 ∧ Told s t 0x1045 0 ∧ (die t d).subs = (die s d).subs)) ∧
  (∀ (d : Die) (m : Nat) (s : State),
      s.Idle →
      diePresent s d = true →
      m < 4 →
      (synth s d m).phase = .locked →
      rfb s F.CKS_INJ.ARMED d m = false →
      isM m = true →
      AnswersWith (exec (.cksLockLost d m) s) (fun t => (synth t d m).phase = .quiesce ∧ (synth t d m).lost = true ∧ (synthChans m).all (fun c => (chan t d c).clockRec) = true ∧ rf t F.CKS_STATUS.LOL d m = 1 ∧ rf t F.CKS_STATUS.HOLDOVER d m = 1 ∧ Told s t 0x1040 1 ∧ (∀ k, k ≠ m → synth t d k = synth s d k) ∧ (die t d).subs = (die s d).subs)) ∧
  (∀ (d : Die) (m : Nat) (s : State),
      s.Idle →
      diePresent s d = true →
      m < 4 →
      (synth s d m).phase = .quiesce →
      (synthSubs m).all (fun i => subQuiet (sub s d i)) = true →
      (die s d).refLost = false →
      AnswersWith (exec (.ckmQuiesceDone d m) s) (fun t => (synth t d m).phase = (if (bandSlot (synth s d m)).isSome then .stored else .search 1) ∧ (synthSubs m).all (fun i => (sub t d i).r0.selfRefresh && (sub t d i).r1.selfRefresh) = true ∧ rf t F.CKS_STATUS.GATED d m = 1)) ∧
  (∀ (d : Die) (m : Nat) (s : State),
      s.Idle →
      diePresent s d = true →
      m < 4 →
      (synth s d m).phase = .stored →
      AnswersWith (exec (.storedBandTimeout d m) s) (fun t => synth t d m = { synth s d m with phase := .search 1, byStored := false } ∧ rf t F.CKS_STATUS.SEARCH d m = 1 ∧ (∀ k, k ≠ m → synth t d k = synth s d k) ∧ t.out = s.out)) ∧
  (∀ (d : Die) (m band k : Nat) (b : BandSt) (s : State),
      s.Idle →
      diePresent s d = true →
      m < 4 →
      (synth s d m).phase = .stored →
      bandSlot (synth s d m) = some (k, b) →
      band = b.band ∨ band + 1 = b.band ∨ band = b.band + 1 →
      band < 64 →
      AnswersWith (exec (.lockDeclared d m band) s) (fun t => (synth t d m).phase = .relocked ∧ rf t F.CKS_STATUS.LOCKED d m = 1 ∧ rf t F.CKS_STATUS.BAND d m = band ∧ nget (synth t d m).bands k = some { b with used := (synth s d m).uses + 1 } ∧ t.out = s.out)) ∧
  (∀ (d : Die) (m : Nat) (s : State),
      s.Idle →
      diePresent s d = true →
      m < 4 →
      (synth s d m).phase = .qualify →
      AnswersWith (exec (.lockDeclared d m (rf s F.CKS_STATUS.BAND d m)) s) (fun t => synth t d m = { synth s d m with phase := .relocked } ∧ rf t F.CKS_STATUS.LOCKED d m = 1 ∧ (∀ k, k ≠ m → synth t d k = synth s d k) ∧ t.out = s.out)) ∧
  (∀ (d : Die) (m : Nat) (s : State),
      s.Idle →
      diePresent s d = true →
      m < 4 →
      (synth s d m).phase = .relocked →
      isM m = false →
      (synth s d m).pend = none →
      s.dev.trans = none →
      AnswersWith (exec (.outputRelease d m) s) (fun t => synth t d m = { synth s d m with phase := .locked, lost := false } ∧ rf t F.CKS_STATUS.GATED d m = 0 ∧ ((synth s d m).lost = true → Told s t 0x1041 0) ∧ (∀ k, k ≠ m → synth t d k = synth s d k) ∧ (die t d).subs = (die s d).subs)) ∧
  (∀ (d : Die) (m : Nat) (s : State),
      s.Idle →
      diePresent s d = true →
      m < 4 →
      (synth s d m).phase = .relocked →
      isM m = true →
      (synth s d m).pend = none →
      s.dev.trans = none →
      (synthChans m).all (fun c => (chan s d c).clockRec && (chan s d c).frozen.isNone) = true →
      AnswersWith (exec (.outputRelease d m) s) (fun t => (synth t d m).phase = .locked ∧ (synth t d m).lost = false ∧ (synthSubs m).all (fun i => decide ((sub s d i).st ≠ .live) || (!(sub t d i).r0.selfRefresh && !(sub t d i).r1.selfRefresh)) = true ∧ rf t F.CKS_STATUS.GATED d m = 0)) ∧
  (∀ (d : Die) (m k b : Nat) (temp : Int) (s : State),
      s.Idle →
      diePresent s d = true →
      m < 4 →
      (synth s d m).phase = .search k →
      b < 64 →
      isM m = false ∨ s.dev.mode ≠ .boot ∨ livePoint s d m ≠ 1 →
      AnswersWith (exec (.cksFullSearch d m (some b) temp) s) (fun t => (synth t d m).phase = .qualify ∧ rf t F.CKS_STATUS.BAND d m = b ∧ nget (synth t d m).bands (searchSlot (synth s d m)) = some ⟨(synth s d m).pfd, (synth s d m).n, b, temp, (synth s d m).uses + 1⟩ ∧ Told s t 0x1042 0 ∧ (die t d).chans = (die s d).chans)) ∧
  (∀ (d : Die) (m k b : Nat) (temp : Int) (s : State),
      s.Idle →
      diePresent s d = true →
      m < 4 →
      (synth s d m).phase = .search k →
      b < 64 →
      isM m = true →
      s.dev.mode = .boot →
      livePoint s d m = 1 →
      AnswersWith (exec (.cksFullSearch d m (some b) temp) s) (fun t => (synth t d m).phase = .search 1 ∧ livePoint t d m = 0 ∧ (synth t d m).n = planN s d m 0 ∧ nget (synth t d m).bands (searchSlot (synth s d m)) = some ⟨(synth s d m).pfd, (synth s d m).n, b, temp, (synth s d m).uses + 1⟩ ∧ Told s t 0x1042 0)) ∧
  (∀ (d : Die) (m : Nat) (temp : Int) (s : State),
      s.Idle →
      diePresent s d = true →
      m < 4 →
      (synth s d m).phase = .search 1 →
      AnswersWith (exec (.cksFullSearch d m none temp) s) (fun t => (synth t d m).phase = .search 2 ∧ (synth t d m).bands = (synth s d m).bands ∧ Told s t 0x1042 0 ∧ (die t d).chans = (die s d).chans)) ∧
  (∀ (d : Die) (temp : Int) (s : State),
      s.Idle →
      diePresent s d = true →
      (synth s d 3).phase = .search 2 →
      AnswersWith (exec (.cksFullSearch d 3 none temp) s) (fun t => (synth t d 3).phase = .failed ∧ rf t F.CKS_STATUS.FAILED d 3 = 1 ∧ Told s t 0x1043 3 ∧ t.dev = s.dev ∧ (die t d).subs = (die s d).subs)) ∧
  (∀ (d : Die) (m : Nat) (s : State),
      s.Idle →
      diePresent s d = true →
      m < 4 →
      verdict s .CKS d false = .take →
      exec (.cksInjArm d m) s = .next (wf F.CKS_INJ.ARMED d m 1 s)) ∧
  (∀ (d : Die) (m : Nat) (s : State),
      s.Idle →
      diePresent s d = true →
      m < 4 →
      verdict s .CKS d false = .take →
      exec (.cksInjDisarm d m) s = .next (wf F.CKS_INJ.ARMED d m 0 s))

/-- Chapter 15 and chapter 21, Reference clocks (R362, R450): at the declaration every present die notes the loss, no synthesizer stays locked and the host ports are down; when REFCLK is present again the synthesizers that wait relock; where it stays away for 1 ms they become FAILED, the senior's first. -/
def Obligations.LossOfRefclkStopsBothDies : Prop :=
  (∀ (s : State),
      s.Idle →
      s.east.refLost = false →
      s.west.refLost = false →
      AnswersWith (exec .refclkLost s) (fun t => (diesPresent s).all (fun d => (die t d).refLost && (List.range 4).all (fun m => decide ((synth t d m).phase ≠ .locked)) && !(portUp t d)) = true ∧ t.slots = s.slots)) ∧
  (∀ (d : Die) (m : Nat) (s : State),
      s.Idle →
      diePresent s d = true →
      m < 4 →
      (die s d).refLost = true →
      (synth s d m).phase = .off →
      (synth s d m).lost = true →
      AnswersWith (exec .refclkPresent s) (fun t => (diesPresent s).all (fun x => !((die t x).refLost)) = true ∧ (synth t d m).phase = (if (bandSlot (synth s d m)).isSome then .stored else .search 1) ∧ t.dev = s.dev ∧ t.slots = s.slots)) ∧
  (∀ (s : State),
      s.Idle →
      (die s (seniorDie s)).refLost = true →
      s.dev.mode ≠ .hold →
      s.dev.mode ≠ .boot →
      (synth s (seniorDie s) 0).phase ≠ .failed →
      AnswersWith (exec .refclkFailTimer s) (fun t => (List.range 4).all (fun m => decide ((synth t (seniorDie s) m).phase = .failed)) = true ∧ t.dev.mode = .frozen ∧ t.slots = s.slots))

/-- Chapters 16 and 21 (R448, R377): at power good the straps are sampled and, unless the PERST pins hold the device in reset, the boot sequence starts with CKS-A, and goes on with firmware, image and the other synthesizers. R449, R451: the fall of PWR_OK, or every PERST pin low, resets the device; straps, flash, pins and test access ports are kept. R452: one PERST pin of two takes its port down. R367: with firmware, image and clocks the device enters TRAIN. R377: the background check of copy B. The commands that wait in the model's queue are kept over a reset: the model's choice (log entry 135). -/
def Obligations.PowerAndResetBringTheDeviceToTrain : Prop :=
  (∀ (w : Bool) (den rank p3 : Nat) (te : Bool) (s : State),
      s.Idle →
      s.pins.pwrOk = false →
      perstReset s = true →
      AnswersWith (exec (.powerGood w den rank p3 te none) s) (fun t => t.pins = { s.pins with pwrOk := true } ∧ t.dev = { s.dev with straps := ⟨w, den, rank, p3, te⟩ } ∧ t.upNs = 0 ∧ t.east = s.east ∧ t.west = s.west ∧ t.out = s.out ∧ rfc t F.DEV_STATUS.SENIOR_WEST 0 = b2n w)) ∧
  (∀ (w : Bool) (den rank p3 : Nat) (s : State),
      s.Idle →
      s.pins.pwrOk = false →
      perstReset s = false →
      s.dev.mode = .boot →
      s.east.refLost = false →
      s.west.refLost = false →
      AnswersWith (exec (.powerGood w den rank p3 true none) s) (fun t => t.pins = { s.pins with pwrOk := true } ∧ t.dev.straps = ⟨w, den, rank, p3, true⟩ ∧ t.upNs = 0 ∧ t.dev.mode = .boot ∧ (diesPresent s).all (fun d => decide ((synth t d 3).phase = .search 1)) = true ∧ t.out = s.out)) ∧
  (∀ (w : Bool) (den rank p3 k : Nat) (s : State),
      s.Idle →
      s.pins.pwrOk = false →
      perstReset s = false →
      s.dev.mode = .boot →
      s.east.refLost = false →
      s.west.refLost = false →
      fwBoots s.dev.flash = some k →
      AnswersWith (exec (.powerGood w den rank p3 false none) s) (fun t => t.pins = { s.pins with pwrOk := true } ∧ t.dev.straps = ⟨w, den, rank, p3, false⟩ ∧ t.upNs = 0 ∧ t.dev.mode = .boot ∧ t.fw.running = k ∧ (diesPresent s).all (fun d => [0, 1, 2, 3].all (fun m => decide ((synth t d m).phase = .search 1))) = true ∧ t.dev.flash = s.dev.flash)) ∧
  (∀ (s : State),
      s.pins.pwrOk = true →
      s.dev.flash.jobs = [] →
      AnswersWith (exec .pwrOkFall s) (fun t => t.dev.mode = .boot ∧ t.pins = { s.pins with pwrOk := false, thermTrip := false, dramReset := true } ∧ t.dev.straps = s.dev.straps ∧ t.dev.flash = { s.dev.flash with half := false } ∧ t.tap = s.tap ∧ t.pending = s.pending ∧ t.slots = [] ∧ t.metaKey = none ∧ t.tables = [] ∧ t.ops = [] ∧ t.todo = [] ∧ t.sani = none ∧
        t.east.subs = [] ∧ t.west.subs = [] ∧ t.east.cks = [] ∧ t.east.fpc = FpcSt.reset ∧ t.spdm = SpdmSt.reset ∧ t.nowNs = s.nowNs ∧ t.upNs = 0 ∧ rfc t F.DEV_MODE.LOCKED 0 = 0)) ∧
  (∀ (p : Die) (s : State),
      diePresent s p = true →
      perstReset (setPerst p true s) = true →
      s.pins.pwrOk = true →
      s.pins.thermTrip = false →
      s.dev.flash.jobs = [] →
      AnswersWith (exec (.perstAssert p) s) (fun t => t.dev.mode = .boot ∧ perstReset t = true ∧ t.pins.pwrOk = true ∧ t.dev.straps = s.dev.straps ∧ t.dev.flash = { s.dev.flash with half := false } ∧ t.tap = s.tap ∧ t.pending = s.pending ∧ t.slots = [] ∧ t.metaKey = none ∧ t.east.subs = [] ∧ t.west.subs = [] ∧ t.ops = [] ∧ t.todo = [])) ∧
  (∀ (p : Die) (s : State),
      s.Idle →
      diePresent s p = true →
      perstReset (setPerst p true s) = false →
      portUp s p = true →
      s.ops = [] →
      s.fw.xfer = none →
      portDb s p = false →
      AnswersWith (exec (.perstAssert p) s) (fun t => portUp t p = false ∧ t.pins = (setPerst p true s).pins ∧ (die t p).hpc.hdm = [] ∧ (die t p).hpc.msixMask = [] ∧ t.slots = s.slots ∧ t.east.subs = s.east.subs)) ∧
  (∀ (p : Die) (s : State),
      s.Idle →
      diePresent s p = true →
      perstLow s p = true →
      s.dev.mode ≠ .boot →
      s.dev.mode ≠ .hold →
      s.dev.trans = none →
      AnswersWith (exec (.perstRelease p) s) (fun t => t.pins = (setPerst p false s).pins ∧ t.dev = s.dev ∧ t.slots = s.slots ∧ t.east.subs = s.east.subs ∧ ((portEn s p = true ∧ portAlive s p = false ∧ coreBypass s p = false ∧ fenced s p = false ∧ s.dev.mode = .serve ∧ perstLow (setPerst p false s) p = false) → (die t p).hpc.training = true))) ∧
  (∀ (s : State),
      s.Idle →
      s.dev.mode = .boot →
      s.pins.pwrOk = true →
      s.dev.straps.testEn = false →
      perstReset s = false →
      (diesPresent s).all (fun d => [0, 1, 2].all (fun m => (synth s d m).phase == .locked)) = true →
      (die s (seniorDie s)).drbgStopped = false →
      AnswersWith (exec .bootDone s) (fun t => t.dev.mode = .train ∧ rfc t F.DEV_MODE.MODE 0 = 1 ∧ rfc t F.DEV_MODE.PREV 0 = 0 ∧ t.pins = { s.pins with dramReset := false } ∧ t.metaKey.isSome = true ∧ Told s t 0x1001 0 ∧ t.dev.flash = s.dev.flash ∧ (diesPresent s).all (fun d => decide ((die t d).sru.positions = (livePositions s d).length)) = true)) ∧
  (∀ (s : State),
      rfc s F.DEV_MODE.LOCKED 0 = 1 →
      rfc s F.CFG_STATUS.CHECKED 0 = 0 →
      AnswersWith (exec .copyBCheck s) (fun t => rfc t F.CFG_STATUS.CHECKED 0 = 1 ∧ rfc t F.CFG_STATUS.B_VALID 0 = b2n (imageFault s s.dev.flash.imgB).isNone ∧ { t with regs := s.regs } = s))

/-- Chapter 16 (R367, R379): a request that Table 16.2 admits begins a transition, BUSY standing; one that it does not is refused with a REASON and 0x1009. R380 to R382: THRIFT is entered when every clock has come to its point, HOLD when nothing is in flight and the node caches are written back, with the DRAM asleep, and it ends when clocks and ranks are back. R383: FROZEN is entered at once, with the DRAM in self-refresh. R367, R368: TRAIN ends in SERVE or DEGRADED with the lock, and stays where no host port is enabled. -/
def Obligations.ModesChangeAsRequested : Prop :=
  (∀ (s : State),
      s.Idle →
      verdict s .DEV .east false = .take →
      s.dev.mode = .serve ∨ s.dev.mode = .degraded →
      s.dev.trans = none →
      AnswersWith (exec .reqThrift s) (fun t => t.dev = { s.dev with trans := some .toThrift, trig := 2, left := s.dev.mode } ∧ rfc t F.DEV_MODE.BUSY 0 = 1 ∧ t.therm.took = false ∧ t.slots = s.slots ∧ t.out = s.out)) ∧
  (∀ (s : State),
      s.Idle →
      verdict s .DEV .east false = .take →
      s.dev.mode = .thrift →
      s.dev.trans = none →
      AnswersWith (exec .reqServe s) (fun t => t.dev = { s.dev with trans := some .fromThrift, trig := 2 } ∧ rfc t F.DEV_MODE.BUSY 0 = 1 ∧ t.slots = s.slots)) ∧
  (∀ (s : State),
      s.Idle →
      verdict s .DEV .east false = .take →
      s.dev.mode = .thrift →
      s.dev.trans = none →
      exec .reqThrift s = .next { s with therm := { s.therm with took := false } }) ∧
  (∀ (s : State),
      s.Idle →
      verdict s .DEV .east false = .take →
      s.dev.mode = .serve ∨ s.dev.mode = .degraded →
      s.dev.trans = none →
      exec .reqServe s = .next s) ∧
  (∀ (s : State),
      s.Idle →
      verdict s .DEV .east false = .take →
      s.dev.mode = .train →
      s.dev.trans = none →
      AnswersWith (exec .reqThrift s) (fun t => rfc t F.DEV_MODE_CTRL.REFUSED 0 = 1 ∧ rfc t F.DEV_MODE_CTRL.REASON 0 = 1 ∧ Told s t 0x1009 0 ∧ t.quiet = { s with therm := { s.therm with took := false } }.quiet)) ∧
  (∀ (s : State),
      s.Idle →
      verdict s .DEV .east false = .take →
      s.dev.mode = .train →
      s.dev.trans = none →
      AnswersWith (exec .reqServe s) (fun t => rfc t F.DEV_MODE_CTRL.REFUSED 0 = 1 ∧ rfc t F.DEV_MODE_CTRL.REASON 0 = 1 ∧ Told s t 0x1009 0 ∧ t.quiet = s.quiet)) ∧
  (∀ (s : State),
      s.Idle →
      verdict s .DEV .east false = .take →
      serving s = true →
      s.dev.trans = none →
      holdBarred s = false →
      exec .reqHold s = .next (wfc F.DEV_MODE.BUSY 1 0 { s with dev := { s.dev with trans := some .toHold, trig := 2, left := s.dev.mode } })) ∧
  (∀ (s : State),
      s.Idle →
      verdict s .DEV .east false = .take →
      s.dev.trans = none →
      holdBarred s = true →
      AnswersWith (exec .reqHold s) (fun t => rfc t F.DEV_MODE_CTRL.REFUSED 0 = 1 ∧ rfc t F.DEV_MODE_CTRL.REASON 0 = 3 ∧ Told s t 0x1009 0 ∧ t.quiet = s.quiet)) ∧
  (∀ (s : State),
      s.Idle →
      verdict s .DEV .east false = .take →
      s.dev.trans.isSome = true →
      AnswersWith (exec .reqThrift s) (fun t => rfc t F.DEV_MODE_CTRL.REFUSED 0 = 1 ∧ rfc t F.DEV_MODE_CTRL.REASON 0 = 4 ∧ Told s t 0x1009 0 ∧ t.dev = s.dev)) ∧
  (∀ (s : State),
      s.Idle →
      verdict s .DEV .east false = .take →
      s.dev.trans.isSome = true →
      AnswersWith (exec .reqServe s) (fun t => rfc t F.DEV_MODE_CTRL.REFUSED 0 = 1 ∧ rfc t F.DEV_MODE_CTRL.REASON 0 = 4 ∧ Told s t 0x1009 0 ∧ t.dev = s.dev)) ∧
  (∀ (s : State),
      s.Idle →
      verdict s .DEV .east false = .take →
      s.dev.trans.isSome = true →
      AnswersWith (exec .reqHold s) (fun t => rfc t F.DEV_MODE_CTRL.REFUSED 0 = 1 ∧ rfc t F.DEV_MODE_CTRL.REASON 0 = 4 ∧ Told s t 0x1009 0 ∧ t.dev = s.dev)) ∧
  (∀ (s : State),
      s.Idle →
      verdict s .DEV .east false = .take →
      s.dev.mode ≠ .boot →
      s.dev.mode ≠ .hold →
      AnswersWith (exec .reqFreeze s) (fun t => t.dev.mode = .frozen ∧ (s.dev.mode ≠ .frozen → t.dev.trans = none ∧ rfc t F.DEV_MODE.BUSY 0 = 0 ∧ rfc t F.DEV_MODE.PREV 0 = modeNum s.dev.mode ∧ (diesPresent s).all (fun d => (List.range 12).all (fun i => (sub t d i).r0.selfRefresh && (sub t d i).r1.selfRefresh)) = true) ∧
        rfc t F.DEV_STATUS.FATAL 0 = rfc s F.DEV_STATUS.FATAL 0 ∧ t.ops = s.ops ∧ t.slots = s.slots)) ∧
  (∀ (s : State),
      s.Idle →
      s.dev.trans = some .toThrift →
      (modeDies s).all (diePoint s 1) = true →
      s.therm.took = false →
      s.dev.mode ≠ .thrift →
      AnswersWith (exec .modeTransitionDone s) (fun t => t.dev.mode = .thrift ∧ t.dev.trans = none ∧ rfc t F.DEV_MODE.BUSY 0 = 0 ∧ rfc t F.DEV_MODE.PREV 0 = modeNum s.dev.mode ∧ Told s t 0x1001 0 ∧ t.ops = s.ops ∧ t.east.subs = s.east.subs)) ∧
  (∀ (s : State),
      s.Idle →
      s.dev.trans = some .toHold →
      holdDrained s = true →
      (modeDies s).any (nodesDirty s) = false →
      s.dev.wake = none →
      s.dev.mode ≠ .hold →
      AnswersWith (exec .modeTransitionDone s) (fun t => t.dev.mode = .hold ∧ t.dev.trans = none ∧ rfc t F.DEV_MODE.BUSY 0 = 0 ∧ (modeDies s).all (fun d => (List.range 12).all (fun i => (sub t d i).r0.selfRefresh && (sub t d i).r1.selfRefresh) && !(rfb t F.FPC_LINK_STATUS.UP d 0) && [0, 1, 2].all (fun m => decide ((synth t d m).phase = .off) || decide ((synth s d m).phase = .failed))) = true ∧ t.slots = s.slots)) ∧
  (∀ (s : State),
      s.Idle →
      s.dev.trans = some .toHold →
      holdDrained s = true →
      (modeDies s).any (nodesDirty s) = true →
      exec .modeTransitionDone s = .next (settle (each (modeDies s) flushNodes s))) ∧
  (∀ (s : State),
      s.Idle →
      s.dev.trans = some .fromThrift →
      (modeDies s).all (diePoint s 0) = true →
      s.therm.waits = false →
      s.dev.mode = .thrift →
      AnswersWith (exec .modeTransitionDone s) (fun t => t.dev.mode = serveMode s ∧ t.dev.trans = none ∧ rfc t F.DEV_MODE.BUSY 0 = 0 ∧ rfc t F.DEV_MODE.PREV 0 = 4 ∧ Told s t 0x1001 0 ∧ t.ops = s.ops ∧ t.east.subs = s.east.subs)) ∧
  (∀ (s : State),
      s.Idle →
      s.dev.trans = some .fromHold →
      (modeDies s).all (dieAwake s) = true →
      s.therm.took = false →
      s.therm.waits = false →
      s.dev.left = .thrift →
      s.dev.mode = .hold →
      anyFabDown s = false →
      AnswersWith (exec .modeTransitionDone s) (fun t => t.dev.mode = .thrift ∧ t.dev.trans = none ∧ rfc t F.DEV_MODE.BUSY 0 = 0 ∧ rfc t F.DEV_MODE.PREV 0 = 5 ∧ t.quiet = { s with dev := { s.dev with mode := .thrift, trans := none } }.quiet)) ∧
  (∀ (s : State),
      s.Idle →
      s.dev.trans = some .toHold →
      s.therm.waits = false →
      s.therm.took = false →
      AnswersWith (exec .holdDrainTimeout s) (fun t => t.dev = { s.dev with trans := none, wake := none } ∧ rfc t F.DEV_MODE.BUSY 0 = 0 ∧ rfc t F.DEV_MODE_CTRL.REFUSED 0 = 1 ∧ rfc t F.DEV_MODE_CTRL.REASON 0 = 2 ∧ Told s t 0x1009 0 ∧ t.ops = s.ops)) ∧
  (∀ (p : Die) (s : State),
      s.Idle →
      diePresent s p = true →
      portEn s p = true →
      fenced s p = false →
      s.dev.mode = .hold →
      s.dev.trans = none →
      AnswersWith (exec (.l1Exit p) s) (fun t => t.dev = { s.dev with trans := some .fromHold, trig := 9, wake := none } ∧ rfc t F.DEV_MODE.BUSY 0 = 1 ∧ (modeDies s).all (fun d => (List.range 6).all (fun c => (chan t d c).clockRec)) = true ∧ t.slots = s.slots)) ∧
  (∀ (s : State),
      s.Idle →
      s.dev.mode = .train →
      trainFinished s = true →
      rfc s F.DEV_STATUS.NO_HOST 0 = 0 →
      (diesPresent s).any (portEn s) = true →
      imageRegions s = [] →
      imageRecords s 3 16 = [] →
      AnswersWith (exec .trainExit s) (fun t => (t.dev.mode = .serve ∨ t.dev.mode = .degraded) ∧ rfc t F.DEV_MODE.LOCKED 0 = 1 ∧ rfc t F.DEV_MODE.PREV 0 = 1 ∧ Told s t 0x1001 0 ∧ (diesPresent s).all (fun d => decide ((die t d).sru.liveList = (livePlan s d).list)) = true ∧ t.slots = s.slots)) ∧
  (∀ (s : State),
      s.Idle →
      s.dev.mode = .train →
      trainFinished s = true →
      rfc s F.DEV_STATUS.NO_HOST 0 = 0 →
      (diesPresent s).any (portEn s) = false →
      AnswersWith (exec .trainExit s) (fun t => rfc t F.DEV_STATUS.NO_HOST 0 = 1 ∧ Told s t 0x100C 3 ∧ t.quiet = s.quiet))

/-- Chapter 16, Seniority (R384): each die sends its claim; a heartbeat whose claim differs from the receiver's is agreement; one that fails its check counts as a claim. R385: the same claim is disagreement, flagged, posted, and a Passage reset is forced, as by three missed heartbeats; after it the cycle counters are aligned and what waited to cross goes on. R385, R386: the loss of the Passage leaves the senior in DEGRADED and the junior fenced. That a Passage reset is posted for both causes is the model's reading (DEDUCED, log entry 44). -/
def Obligations.ThePassageKeepsOneSenior : Prop :=
  (∀ (d : Die) (s : State),
      beating s d = true →
      exec (.passageHeartbeatSend d) s = .next { s with psg := { s.psg with fly := s.psg.fly ++ [(d, claims s d)] } }) ∧
  (∀ (d : Die) (c ok : Bool) (s : State),
      s.Idle →
      beating s d = true →
      s.psg.resetting = false →
      s.psg.fly.find? (fun p => p.1 == otherDie d) = some (otherDie d, c) →
      (c || !ok) ≠ claims s d →
      AnswersWith (exec (.passageHeartbeat d ok) s) (fun t => t.psg = { s.psg with fly := s.psg.fly.erase (otherDie d, c), disagree := false } ∧ rf t F.PSG_STATUS.MISSED d 0 = 0 ∧ { t with psg := s.psg, regs := s.regs } = s)) ∧
  (∀ (d : Die) (c ok : Bool) (s : State),
      s.Idle →
      beating s d = true →
      s.psg.resetting = false →
      s.psg.fly.find? (fun p => p.1 == otherDie d) = some (otherDie d, c) →
      (c || !ok) = claims s d →
      (s.psg.found.filter (fun t => decide (s.nowNs < t + 1000000000))).length < 2 →
      AnswersWith (exec (.passageHeartbeat d ok) s) (fun t => t.psg.disagree = true ∧ t.psg.resetting = true ∧ rfc t F.DEV_STATUS.DISAGREE 0 = 1 ∧ rf t F.PSG_STATUS.LINK_UP d 0 = 0 ∧ rf t F.PSG_STATUS.RESET_SEEN d 0 = 1 ∧ Told s t 0x1005 3 ∧ Told s t 0x1006 1 ∧ t.dev = s.dev ∧ t.ops = s.ops)) ∧
  (∀ (d : Die) (c ok : Bool) (s : State),
      s.Idle →
      beating s d = true →
      s.psg.resetting = false →
      s.psg.fly.find? (fun p => p.1 == otherDie d) = some (otherDie d, c) →
      (c || !ok) = claims s d →
      2 ≤ (s.psg.found.filter (fun t => decide (s.nowNs < t + 1000000000))).length →
      s.dev.mode ≠ .boot →
      AnswersWith (exec (.passageHeartbeat d ok) s) (fun t => t.psg.disagree = true ∧ t.psg.resetting = false ∧ rfc t F.DEV_STATUS.DISAGREE 0 = 1 ∧ t.dev.mode = .frozen ∧ Told s t 0x1005 3 ∧ Told s t 0x100B 4 ∧ (s.dev.mode ≠ .frozen → rfc t F.DEV_STATUS.FATAL 0 = 1))) ∧
  (∀ (d : Die) (s : State),
      s.Idle →
      beating s d = true →
      s.psg.resetting = false →
      rfb s F.PSG_STATUS.LINK_UP d 0 = true →
      AnswersWith (exec (.heartbeatMissed d) s) (fun t => t.psg = { s.psg with resetting := true } ∧ (∀ x : Die, rf t F.PSG_STATUS.LINK_UP x 0 = 0 ∧ rf t F.PSG_STATUS.RESET_SEEN x 0 = 1) ∧ Told s t 0x1006 1 ∧ t.quiet = { s with psg := { s.psg with resetting := true } }.quiet)) ∧
  (∀ (e w : Bool) (s : State),
      s.Idle →
      s.psg.resetting = true →
      s.psg.lost = false →
      s.psg.disagree = false →
      s.psg.barHeld = [] →
      s.east.psgHeld = [] →
      s.west.psgHeld = [] →
      AnswersWith (exec (.passageResetDone e w) s) (fun t => t.psg = { s.psg with resetting := false } ∧ (∀ x : Die, rf t F.PSG_STATUS.LINK_UP x 0 = 1) ∧ (die t (otherDie (seniorDie s))).cyc = (die s (seniorDie s)).cyc ∧ (die t (seniorDie s)).cyc = (die s (seniorDie s)).cyc ∧ t.dev = s.dev ∧ t.out = s.out)) ∧
  (∀ (e w : Bool) (s : State),
      s.Idle →
      s.psg.resetting = true →
      s.psg.lost = false →
      s.psg.disagree = true →
      s.psg.barHeld = [] →
      s.east.psgHeld = [] →
      s.west.psgHeld = [] →
      AnswersWith (exec (.passageResetDone e w) s) (fun t => t.psg = { s.psg with resetting := false, claimEast := !e, claimWest := w } ∧ (∀ x : Die, rf t F.PSG_STATUS.LINK_UP x 0 = 1) ∧ t.dev = { s.dev with straps := { s.dev.straps with seniorWest := if e = w then w else s.dev.straps.seniorWest } } ∧ (die t (otherDie (seniorDie t))).cyc = (die s (seniorDie t)).cyc ∧ t.out = s.out)) ∧
  (∀ (e w : Bool) (s : State),
      s.psg.resetting = true →
      s.psg.lost = false →
      s.psg.disagree = false →
      exec (.passageResetDone e w) s = .next (settle (crossingsGo (onDie (otherDie (seniorDie s)) (fun x => { x with cyc := (die s (seniorDie s)).cyc }) (each bothDies (fun d => wf F.PSG_STATUS.LINK_UP d 0 1) { s with psg := { s.psg with resetting := false } }))))) ∧
  (∀ (l : Bool) (s : State),
      s.Idle →
      partDual s.dev.part = true →
      s.pins.pwrOk = true →
      s.psg.lost = false →
      fenced s (otherDie (seniorDie s)) = false →
      fenced s (seniorDie s) = false →
      s.ops = [] →
      s.dev.mode = .serve →
      portAlive s (otherDie (seniorDie s)) = false →
      s.psg.barHeld = [] →
      s.east.psgHeld = [] →
      s.west.psgHeld = [] →
      AnswersWith (exec (.passageLost l) s) (fun t => t.psg.lost = true ∧ t.psg.fly = [] ∧ (∀ x : Die, rf t F.PSG_STATUS.LINK_UP x 0 = 0) ∧ rfc t F.DEV_STATUS.DEG_PASSAGE 0 = 1 ∧ t.dev.mode = .degraded ∧ fenced t (otherDie (seniorDie s)) = true ∧ rf t F.PSG_STATUS.DIE_MODE (otherDie (seniorDie s)) 0 = 6 ∧ Told s t 0x1007 3 ∧ Told s t 0x1008 3))

/-- Chapter 18 (R408): a counter that passes 2^48 goes on from 0 and sets its bit of PMC_OVF, with 0x1065 where OVF_EVT asks. R410, R411: a read of the low half latches the high one, a write of the high half waits in the stage for the low one. R417: FREEZE and CLEAR_ALL act on both dies, and after the copy where a snapshot is pending (log entry 136). R414, R415: a snapshot copies each die's counters when its cycle counter reaches the target, and SEQ advances with the last. R418: the descriptors write the snapshot or the telemetry. R462: occurrences held back are told when the interval ends. -/
def Obligations.CountersWrapAreWrittenAndSnapped : Prop :=
  (∀ (d : Die) (n past : Nat) (s : State),
      n < 64 →
      ctrRun s = true →
      bitn (ctrCfg s d n) 24 = true →
      bitn (ctrCfg s d n) 26 = false →
      ctrChained s d n = false →
      (ngetD (die s d).pmc.cnt n 0) < 2 ^ 48 →
      past < 2 ^ 48 →
      n % 2 = 1 ∨ ctrChained s d (n + 1) = false →
      AnswersWith (exec (.counterWrap d n past) s) (fun t => (ngetD (die t d).pmc.cnt n 0) = past ∧ (∀ k, k ≠ n → (ngetD (die t d).pmc.cnt k 0) = (ngetD (die s d).pmc.cnt k 0)) ∧ bitn (rf t (if n < 32 then F.PMC_OVF_LO.OVF else F.PMC_OVF_HI.OVF) d 0) (n % 32) = true ∧ t.out = s.out ∧ t.quiet = s.quiet)) ∧
  (∀ (d : Die) (n past : Nat) (s : State),
      n < 64 →
      ctrRun s = true →
      bitn (ctrCfg s d n) 24 = true →
      bitn (ctrCfg s d n) 26 = true →
      ctrChained s d n = false →
      (ngetD (die s d).pmc.cnt n 0) < 2 ^ 48 →
      n % 2 = 1 ∨ ctrChained s d (n + 1) = false →
      nget (die s d).posts (postKey 0x1065 n) = none →
      AnswersWith (exec (.counterWrap d n past) s) (fun t => bitn (rf t (if n < 32 then F.PMC_OVF_LO.OVF else F.PMC_OVF_HI.OVF) d 0) (n % 32) = true ∧ ToldBy s t (fun r => r.code == 0x1065 && decide (r.details = packDetails [it1 n])) ∧ t.quiet = s.quiet)) ∧
  (∀ (d : Die) (n : Nat) (s : State),
      n < 64 →
      AnswersWith (exec (.counterLoRead d (some n)) s) (fun t => t.out = s.out ++ [.regData (regAddr .PMC_CNT_LO d n) (BitVec.ofNat 32 (ngetD (die s d).pmc.cnt n 0))] ∧ ngetD (die t d).pmc.latch n 0 = fld (ngetD (die s d).pmc.cnt n 0) 32 16 ∧ (die t d).pmc.cnt = (die s d).pmc.cnt ∧ t.regs = s.regs ∧ (∀ k, k ≠ n → nget (die t d).pmc.latch k = nget (die s d).pmc.latch k))) ∧
  (∀ (d : Die) (s : State),
      exec (.counterLoRead d none) s = .next (send (.regData (regAddr .PMC_CYC_LO d 0) (BitVec.ofNat 32 (die s d).cyc)) (onPmc d (fun p => { p with cycLatch := fld (die s d).cyc 32 32 }) s))) ∧
  (∀ (d : Die) (n : Nat) (v : Word) (s : State),
      verdict s .PMC d false = .take →
      n < 64 →
      AnswersWith (exec (.counterStageWrite d n v) s) (fun t => ngetD (die t d).pmc.stage n 0 = v.toNat % 65536 ∧ (∀ k, k ≠ n → nget (die t d).pmc.stage k = nget (die s d).pmc.stage k) ∧ (die t d).pmc.cnt = (die s d).pmc.cnt ∧ t.regs = s.regs ∧ t.out = s.out)) ∧
  (∀ (d : Die) (n : Nat) (v : Word) (s : State),
      verdict s .PMC d false = .take →
      n < 64 →
      AnswersWith (exec (.reprogrammingWrite d n v) s) (fun t => (ngetD (die t d).pmc.cnt n 0) = ngetD (die s d).pmc.stage n 0 * 2 ^ 32 + v.toNat ∧ (∀ k, k ≠ n → (ngetD (die t d).pmc.cnt k 0) = (ngetD (die s d).pmc.cnt k 0)) ∧ (die t d).pmc.stage = (die s d).pmc.stage ∧ t.regs = s.regs ∧ t.out = s.out)) ∧
  (∀ (s : State),
      verdict s .CTRG (seniorDie s) false = .take →
      s.snapTarget = none →
      exec .ctrgSnap s = .next (wfc F.CTRG_STATUS.BUSY 1 0 { s with snapTarget := some ((die s (seniorDie s)).cyc + 64) })) ∧
  (∀ (d : Die) (T : Nat) (s : State),
      s.snapTarget = some T →
      (snapDies s).contains d = true →
      (die s d).pmc.copied = false →
      coreBypass s d = false →
      (snapDies s).any (fun o => o != d && !(die s o).pmc.copied) = true →
      AnswersWith (exec (.snapshotCopy d) s) (fun t => (∀ n, n < 64 → ngetD (die t d).pmc.shadow n 0 = (ngetD (die s d).pmc.cnt n 0)) ∧ ngetD (die t d).pmc.shadow 64 0 = T ∧ ngetD (die t d).pmc.shadow 65 0 = stampNs s d ∧ (die t d).cyc = max (die s d).cyc T ∧ (die t d).pmc.cnt = (die s d).pmc.cnt ∧ t.snapTarget = some T ∧ t.regs = s.regs)) ∧
  (∀ (d : Die) (T : Nat) (s : State),
      s.snapTarget = some T →
      (snapDies s).contains d = true →
      (die s d).pmc.copied = false →
      (snapDies s).any (fun o => o != d && !(die s o).pmc.copied) = false →
      AnswersWith (exec (.snapshotCopy d) s) (fun t => (∀ n, n < 64 → ngetD (die t d).pmc.shadow n 0 = (ngetD (die s d).pmc.cnt n 0)) ∧ ngetD (die t d).pmc.shadow 64 0 = T ∧ t.snapTarget = none ∧ t.ctrgWait = [] ∧ rfc t F.CTRG_STATUS.SEQ 0 = (rfc s F.CTRG_STATUS.SEQ 0 + 1) % 65536 ∧ rfc t F.CTRG_STATUS.BUSY 0 = 0 ∧ (diesPresent s).all (fun o => !(die t o).pmc.copied) = true)) ∧
  (∀ (s : State),
      verdict s .CTRG (seniorDie s) false = .take →
      s.snapTarget = none →
      rfc s F.CTRG_CTRL.FREEZE 0 ≠ 1 →
      exec .counterFreeze s = .next (s |> wfc F.CTRG_CTRL.FREEZE 1 0 |> wfc F.CTRG_STATUS.FROZEN 1 0)) ∧
  (∀ (s : State),
      verdict s .CTRG (seniorDie s) false = .take →
      s.snapTarget = none →
      rfc s F.CTRG_CTRL.FREEZE 0 ≠ 0 →
      exec .counterUnfreeze s = .next (s |> wfc F.CTRG_CTRL.FREEZE 0 0 |> wfc F.CTRG_STATUS.FROZEN 0 0)) ∧
  (∀ (s : State),
      verdict s .CTRG (seniorDie s) false = .take →
      s.snapTarget.isSome = true →
      rfc s F.CTRG_CTRL.FREEZE 0 ≠ 1 →
      exec .counterFreeze s = .next { wfc F.CTRG_CTRL.FREEZE 1 0 s with ctrgWait := s.ctrgWait ++ [1] }) ∧
  (∀ (s : State),
      verdict s .CTRG (seniorDie s) false = .take →
      s.snapTarget.isSome = true →
      rfc s F.CTRG_CTRL.FREEZE 0 ≠ 0 →
      exec .counterUnfreeze s = .next { wfc F.CTRG_CTRL.FREEZE 0 0 s with ctrgWait := s.ctrgWait ++ [0] }) ∧
  (∀ (s : State),
      verdict s .CTRG (seniorDie s) false = .take →
      rfc s F.CTRG_CTRL.FREEZE 0 = 1 →
      exec .counterFreeze s = .next s) ∧
  (∀ (s : State),
      verdict s .CTRG (seniorDie s) false = .take →
      rfc s F.CTRG_CTRL.FREEZE 0 = 0 →
      exec .counterUnfreeze s = .next s) ∧
  (∀ (s : State),
      verdict s .CTRG (seniorDie s) false = .take →
      s.snapTarget = none →
      AnswersWith (exec .clearAll s) (fun t => (diesPresent s).all (fun d => decide ((die t d).pmc.cnt = [] ∧ rf t F.PMC_OVF_LO.OVF d 0 = 0 ∧ rf t F.PMC_OVF_HI.OVF d 0 = 0 ∧ (die t d).pmc.cfg = (die s d).pmc.cfg ∧ (die t d).pmc.shadow = (die s d).pmc.shadow)) = true ∧ t.out = s.out ∧ t.sideband = s.sideband)) ∧
  (∀ (s : State),
      verdict s .CTRG (seniorDie s) false = .take →
      s.snapTarget.isSome = true →
      exec .clearAll s = .next { s with ctrgWait := s.ctrgWait ++ [2] }) ∧
  (∀ (d : Die) (e : Desc) (s : State),
      s.Runs d e 0x80 →
      e.phase = 0 →
      pmcCheck d e 1056 s = (0, s) →
      AnswersWith (exec (.pmcSnapshot d e.sq e.seq) s) (fun t => t.snapTarget = some (s.snapTarget.getD ((die s (seniorDie s)).cyc + 64)) ∧ (s.snapTarget = none → rfc t F.CTRG_STATUS.BUSY 0 = 1) ∧ startedDesc t d e.sq e.seq = some { e with phase := 1 } ∧ t.out = s.out)) ∧
  (∀ (d : Die) (e : Desc) (s : State),
      s.Runs d e 0x80 →
      e.phase = 1 →
      s.snapTarget = none →
      e.num 8 1 = 0 →
      portAlive s d = true →
      e.left = 0 →
      AnswersWith (exec (.pmcSnapshot d e.sq e.seq) s) (fun t => Completed s t d e 0 (rfc s F.CTRG_STATUS.SEQ 0) (ngetD s.east.pmc.shadow 64 0) ∧ t.out.any (fun m => decide (m = .hostWrite d (e.num 16 8) (snapBytes s .east ++ snapBytes s .west) false)) = true ∧ butRings d t = butRings d s)) ∧
  (∀ (d : Die) (e : Desc) (s : State),
      s.Runs d e 0x80 →
      e.phase = 1 →
      s.snapTarget = none →
      e.num 8 1 = 1 →
      exec (.pmcSnapshot d e.sq e.seq) s = .next (settle (finishDesc d e 0 (rfc s F.CTRG_STATUS.SEQ 0) (ngetD s.east.pmc.shadow 64 0) (issueWrites d d e .cpr (byteWrites (e.num 16 8) (snapBytes s .east ++ snapBytes s .west) false) s)))) ∧
  (∀ (d : Die) (e : Desc) (s : State),
      s.Runs d e 0x81 →
      e.arg = 0 →
      e.num 8 1 = 0 →
      e.zero 9 7 = true →
      e.zero 24 40 = true →
      portAlive s d = true →
      e.left = 0 →
      AnswersWith (exec (.pmcTelemetry d e.sq e.seq) s) (fun t => Completed s t d e 0 (sbyte (tjHighest s)) 0 ∧ t.out.any (fun m => decide (m = .hostWrite d (e.num 16 8) (telemetryDie s .east ++ telemetryDie s .west) false)) = true ∧ butRings d t = butRings d s)) ∧
  (∀ (d : Die) (e : Desc) (s : State),
      s.Runs d e 0x81 →
      e.arg = 0 →
      e.num 8 1 = 1 →
      e.zero 9 7 = true →
      e.zero 24 40 = true →
      placeDomain d e.sq (pmcDst e) s = (true, s) →
      placeStatus s (pmcDst e) 128 true = 0 →
      exec (.pmcTelemetry d e.sq e.seq) s = .next (settle (finishDesc d e 0 (sbyte (tjHighest s)) 0 (issueWrites d d e .cpr (byteWrites (e.num 16 8) (telemetryDie s .east ++ telemetryDie s .west) false) s)))) ∧
  (∀ (d : Die) (e : Desc) (s : State),
      s.Runs d e 0x81 →
      e.num 8 1 = 0 →
      e.arg ≠ 0 ∨ e.zero 9 7 = false ∨ e.zero 24 40 = false →
      e.left = 0 →
      AnswersWith (exec (.pmcTelemetry d e.sq e.seq) s) (fun t => Completed s t d e 3 0 0 ∧ butRings d t = butRings d s)) ∧
  (∀ (d : Die) (code scope iv : Nat) (k : LimKind) (p : PostLim) (s : State),
      nget (die s d).posts (postKey code scope) = some p →
      limitOf code = some (iv, k) →
      p.held ≠ 0 →
      AnswersWith (exec (.postingIntervalEnd d code scope) s) (fun t => ToldBy s t (fun r => r.code == code && r.sev == p.sev && decide (r.details = packDetails (limItems k p.held p.first p.acc))) ∧ t.quiet = s.quiet)) ∧
  (∀ (d : Die) (code scope : Nat) (p : PostLim) (s : State),
      nget (die s d).posts (postKey code scope) = some p →
      p.held = 0 →
      exec (.postingIntervalEnd d code scope) s = .next s)

/-- Chapter 18 (R419): readings are stored, a sensor that fails is marked bad once, TJ_MAX is the highest good one. R421: the rails and their sum. R422: a limit that is reached brings the request, with 0x1060 and THRIFT; a thousand samples under both limits less the hysteresis end it, with 0x1061. R423: a good sensor at 115 degrees trips. -/
def Obligations.TemperaturesPowerAndTheThermalRequest : Prop :=
  (∀ (d : Die) (temps : List Int) (k : Nat) (x : Int) (s : State),
      rf s F.PMC_THROTTLE.BAD_MASK d 0 = 0 →
      (List.range 8).all (fun k => decide (-40 ≤ temps.getD k 0) && decide (temps.getD k 0 ≤ 150)) = true →
      hottest ((List.range 8).map (fun k => (k, temps.getD k 0))) = some (k, x) →
      AnswersWith (exec (.sensorSample d temps 0) s) (fun t => rf t F.PMC_TJ_SUM.TJ_MAX d 0 = sbyte x ∧ rf t F.PMC_TJ_SUM.TJ_SENSOR d 0 = k ∧ (∀ j, j < 8 → fld (rdReg t (tjReg j) d 0) (8 * (j % 4)) 8 = sbyte (temps.getD j 0)) ∧ rf t F.PMC_THROTTLE.BAD_MASK d 0 = 0 ∧ t.quiet = s.quiet ∧ t.out = s.out)) ∧
  (∀ (d : Die) (temps : List Int) (failed k : Nat) (s : State),
      k < 8 →
      bitn failed k = true ∨ temps.getD k 0 < -40 ∨ 150 < temps.getD k 0 →
      sensorBad s d k = false →
      AnswersWith (exec (.sensorSample d temps failed) s) (fun t => sensorBad t d k = true ∧ rf t F.PMC_THROTTLE.SENSOR_BAD d 0 = 1 ∧ ToldBy s t (fun r => r.code == 0x1063 && r.sev == 3 && decide (r.details = packDetails [it1 (dieNum d), it1 k])))) ∧
  (∀ (d : Die) (rails : List Nat) (s : State),
      AnswersWith (exec (.powerEstimate d rails) s) (fun t => rf t F.PMC_PWR_A.RAIL_LO d 0 = rails.getD 0 0 % 65536 ∧ rf t F.PMC_PWR_A.RAIL_HI d 0 = rails.getD 1 0 % 65536 ∧ rf t F.PMC_PWR_B.RAIL_LO d 0 = rails.getD 2 0 % 65536 ∧ rf t F.PMC_PWR_B.RAIL_HI d 0 = rails.getD 3 0 % 65536 ∧ rf t F.PMC_PWR_C.RAIL_LO d 0 = rails.getD 4 0 % 65536 ∧ rf t F.PMC_PWR_C.RAIL_HI d 0 = rails.getD 5 0 % 65536 ∧
        rf t F.PMC_PWR_DIE.RAIL_LO d 0 = min 65535 (((List.range 6).map (fun k => rails.getD k 0 % 65536)).sum) ∧ { t with regs := s.regs } = s)) ∧
  (∀ (d1 d2 : Die) (a b : Int) (s : State),
      s.Idle →
      s.pins.pwrOk = true →
      hotDie (tjMax s) (thermDies s) = some (d1, a) →
      hotDie (fun d => (dramMax s d).temp) (thermDies s) = some (d2, b) →
      s.therm.since = none →
      rfb s F.PMC_THERM_CFG.EN .east 0 = true →
      (throtC s : Int) ≤ a →
      s.dev.mode = .serve ∨ s.dev.mode = .degraded →
      s.dev.trans = none →
      AnswersWith (exec .thermalEval s) (fun t => t.dev = { s.dev with trans := some .toThrift, trig := 4, left := s.dev.mode } ∧ (diesPresent s).all (fun d => decide (rf t F.PMC_THROTTLE.REQUEST d 0 = 1)) = true ∧ (diesPresent s).all (fun d => decide (rf t F.PMC_THROTTLE.BY_TJ d 0 = 1)) = true ∧ t.therm.since = some s.nowNs ∧ ToldBy s t (fun r => r.code == 0x1060 && decide (r.details = packDetails [it1 (dieNum d1), it1 0, it1 (sbyte a)])) ∧ t.slots = s.slots)) ∧
  (∀ (d1 d2 : Die) (a b : Int) (s : State),
      s.Idle →
      s.pins.pwrOk = true →
      hotDie (tjMax s) (thermDies s) = some (d1, a) →
      hotDie (fun d => (dramMax s d).temp) (thermDies s) = some (d2, b) →
      s.therm.since = none →
      a < (throtC s : Int) →
      b < (dramC s : Int) →
      AnswersWith (exec .thermalEval s) (fun t => (diesPresent s).all (fun d => decide (rf t F.PMC_THROTTLE.REQUEST d 0 = 0)) = true ∧ t.quiet = s.quiet ∧ t.out = s.out ∧ t.sideband = s.sideband)) ∧
  (∀ (d1 d2 : Die) (a b : Int) (t0 : Nat) (s : State),
      s.Idle →
      s.pins.pwrOk = true →
      hotDie (tjMax s) (thermDies s) = some (d1, a) →
      hotDie (fun d => (dramMax s d).temp) (thermDies s) = some (d2, b) →
      s.therm.since = some t0 →
      a ≤ (throtC s : Int) - hystC s →
      b ≤ (dramC s : Int) - hystC s →
      s.therm.cool + 1 < 1000 →
      AnswersWith (exec .thermalEval s) (fun t => (diesPresent s).all (fun d => decide (rf t F.PMC_THROTTLE.REQUEST d 0 = 1)) = true ∧ t.quiet = { s with therm := { s.therm with cool := s.therm.cool + 1 } }.quiet ∧ t.out = s.out)) ∧
  (∀ (d1 d2 : Die) (a b : Int) (t0 : Nat) (s : State),
      s.Idle →
      s.pins.pwrOk = true →
      hotDie (tjMax s) (thermDies s) = some (d1, a) →
      hotDie (fun d => (dramMax s d).temp) (thermDies s) = some (d2, b) →
      s.therm.since = some t0 →
      (throtC s : Int) - hystC s < a ∨ (dramC s : Int) - hystC s < b →
      AnswersWith (exec .thermalEval s) (fun t => (diesPresent s).all (fun d => decide (rf t F.PMC_THROTTLE.REQUEST d 0 = 1)) = true ∧ t.quiet = { s with therm := { s.therm with cool := 0 } }.quiet ∧ t.out = s.out)) ∧
  (∀ (d1 d2 : Die) (a b : Int) (t0 : Nat) (s : State),
      s.Idle →
      s.pins.pwrOk = true →
      hotDie (tjMax s) (thermDies s) = some (d1, a) →
      hotDie (fun d => (dramMax s d).temp) (thermDies s) = some (d2, b) →
      s.therm.since = some t0 →
      a ≤ (throtC s : Int) - hystC s →
      b ≤ (dramC s : Int) - hystC s →
      1000 ≤ s.therm.cool + 1 →
      AnswersWith (exec .thermalEval s) (fun t => (diesPresent s).all (fun d => decide (rf t F.PMC_THROTTLE.REQUEST d 0 = 0)) = true ∧ t.therm.since = none ∧ t.therm.cool = 0 ∧ t.therm.underNs = s.therm.underNs + (s.nowNs - t0) ∧ Told s t 0x1061 0 ∧ t.slots = s.slots)) ∧
  (∀ (d : Die) (k : Nat) (temp : Int) (s : State),
      s.Idle →
      diePresent s d = true →
      s.pins.pwrOk = true →
      k < 8 →
      115 ≤ temp →
      sensorBad s d k = false →
      rfb s F.PMC_THROTTLE.TRIPPED d 0 = false →
      s.dev.mode ≠ .frozen →
      s.dev.mode ≠ .boot →
      AnswersWith (exec (.thermalTrip d k temp) s) (fun t => t.pins = { s.pins with thermTrip := true } ∧ rf t F.PMC_THROTTLE.TRIPPED d 0 = 1 ∧ t.dev.mode = .frozen ∧ t.dev.trans = none ∧ rfc t F.DEV_STATUS.FATAL 0 = 1 ∧ Told s t 0x1062 4 ∧ t.slots = s.slots))

/-- Chapter 20 (R430, R434): an accepted write of 4 or 8 bytes has its register's effect; R249: a smaller one is reported and has none; R432: one that has to cross the Passage waits for the end of a Passage reset. R442, R455: the sideband reads the registers that R442 names and zero elsewhere, writes no more than REQ_SERVE and REQ_FREEZE, and hands out its records. R376: an image is written to copy B, then to copy A, each with read-back. -/
def Obligations.RegisterWritesAndTheSideband : Prop :=
  (∀ (p d : Die) (r : RegName) (a i : Nat) (v : BitVec 64) (sess : Option Nat) (s : State),
      portAlive s p = true →
      (s.psg.resetting && (barDie s a != p || s.psg.barHeld.any (fun x => x.port == p))) = false →
      a % 4 = 0 →
      regAt a = some (r, d, i) →
      verdict s (regPlace r).block d (sessOwner s sess) = .take →
      exec (.registerWrite p a v 4 sess) s = .next (settle (regEffect r d i (fld v.toNat 0 32) s))) ∧
  (∀ (p d : Die) (r : RegName) (a i : Nat) (v : BitVec 64) (sess : Option Nat) (s : State),
      s.Idle →
      portAlive s p = true →
      (s.psg.resetting && (barDie s a != p || s.psg.barHeld.any (fun x => x.port == p))) = false →
      a % 4 = 0 →
      regAt a = some (r, d, i) →
      verdict s (regPlace r).block d (sessOwner s sess) = .locked →
      hasFlags r = false →
      exec (.registerWrite p a v 4 sess) s = .next (cntF F.DEV_IGNORED_COUNT.LOCKED .east 0 1 s)) ∧
  (∀ (p : Die) (a size : Nat) (v : BitVec 64) (sess : Option Nat) (s : State),
      s.Idle →
      portAlive s p = true →
      (s.psg.resetting && (barDie s a != p || s.psg.barHeld.any (fun x => x.port == p))) = false →
      size < 4 →
      AnswersWith (exec (.registerWrite p a v size sess) s) (fun t => rf t F.HPC_STATUS.BAD_ACC p 0 = 1 ∧ t.quiet = s.quiet)) ∧
  (∀ (p : Die) (a : Nat) (v : BitVec 64) (sess : Option Nat) (s : State),
      portAlive s p = true →
      (s.psg.resetting && (barDie s a != p || s.psg.barHeld.any (fun x => x.port == p))) = false →
      a % 8 = 0 →
      exec (.registerWrite p a v 8 sess) s = .next (settle (writeWord (a + 4) (fld v.toNat 32 32) sess (writeWord a (fld v.toNat 0 32) sess s)))) ∧
  (∀ (p : Die) (a size : Nat) (v : BitVec 64) (sess : Option Nat) (s : State),
      s.Idle →
      portAlive s p = true →
      (s.psg.resetting && (barDie s a != p || s.psg.barHeld.any (fun x => x.port == p))) = true →
      exec (.registerWrite p a v size sess) s = .next { s with psg := { s.psg with barHeld := s.psg.barHeld ++ [⟨p, a, v, size, sess⟩] } }) ∧
  (∀ (a i : Nat) (r : RegName) (d : Die) (s : State),
      s.pins.pwrOk = true →
      regAt a = some (r, d, i) →
      sidebandReads r = true →
      exec (.sidebandRead a) s = .next (send (.sideband (leBytes 4 (readWord s a).toNat)) s)) ∧
  (∀ (a : Nat) (s : State),
      s.pins.pwrOk = true →
      (regAt a).all (fun q => !(sidebandReads q.1)) = true →
      exec (.sidebandRead a) s = .next (send (.sideband [0, 0, 0, 0]) s)) ∧
  (∀ (v : Word) (s : State),
      s.Idle →
      s.pins.pwrOk = true →
      bitn v.toNat 3 = true →
      s.dev.mode ≠ .boot →
      s.dev.mode ≠ .hold →
      s.dev.trans = none →
      AnswersWith (exec (.sidebandWrite (regAddr .DEV_MODE_CTRL .east 0) v) s) (fun t => t.dev.mode = .frozen ∧ rfc t F.DEV_STATUS.FATAL 0 = rfc s F.DEV_STATUS.FATAL 0 ∧ rfc t F.DEV_MODE_CTRL.THRIFT_X8 0 = rfc s F.DEV_MODE_CTRL.THRIFT_X8 0 ∧ t.ops = s.ops ∧ t.slots = s.slots)) ∧
  (∀ (v : Word) (s : State),
      s.Idle →
      s.pins.pwrOk = true →
      bitn v.toNat 3 = false →
      bitn v.toNat 1 = true →
      s.dev.mode = .thrift →
      s.dev.trans = none →
      AnswersWith (exec (.sidebandWrite (regAddr .DEV_MODE_CTRL .east 0) v) s) (fun t => t.dev = { s.dev with trans := some .fromThrift, trig := 3 } ∧ rfc t F.DEV_MODE.BUSY 0 = 1 ∧ t.slots = s.slots)) ∧
  (∀ (v : Word) (s : State),
      s.Idle →
      s.pins.pwrOk = true →
      bitn v.toNat 3 = false →
      bitn v.toNat 1 = true →
      s.dev.mode = .hold →
      s.dev.trans = none →
      AnswersWith (exec (.sidebandWrite (regAddr .DEV_MODE_CTRL .east 0) v) s) (fun t => t.dev = { s.dev with trans := some .fromHold, trig := 3, wake := none } ∧ rfc t F.DEV_MODE.BUSY 0 = 1 ∧ t.slots = s.slots)) ∧
  (∀ (a : Nat) (v : Word) (s : State),
      a ≠ regAddr .DEV_MODE_CTRL .east 0 →
      exec (.sidebandWrite a v) s = .next s) ∧
  (∀ (r : EventRec) (rs : List EventRec) (s : State),
      s.pins.pwrOk = true →
      s.sideband = r :: rs →
      exec .sidebandEvent s = .next { s with sideband := rs, out := s.out ++ [.sideband (eventBytes r false)] }) ∧
  (∀ (s : State),
      s.pins.pwrOk = true →
      s.sideband = [] →
      exec .sidebandEvent s = .next { s with out := s.out ++ [.sideband (List.replicate 32 0)] }) ∧
  (∀ (code : Nat) (bs : List Byte) (s : State),
      s.pins.pwrOk = true →
      0x20 ≤ code →
      code ≤ 0x2F →
      exec (.sidebandTransfer code bs .more) s = .next { s with sbXfer := s.sbXfer ++ bs }) ∧
  (∀ (code slot : Nat) (bs : List Byte) (sig : Bool) (s : State),
      flashLive s = true →
      0x20 ≤ code →
      code ≤ 0x2F →
      slot < 2 →
      AnswersWith (exec (.sidebandTransfer code bs (.firmware slot sig)) s) (fun t => t.sbXfer = [] ∧ t.dev = { s.dev with flash := { s.dev.flash with fw0 := if slot = 0 then sig else s.dev.flash.fw0, fw1 := if slot = 1 then sig else s.dev.flash.fw1 } } ∧ { t with dev := s.dev, sbXfer := s.sbXfer } = s)) ∧
  (∀ (bs : List Byte) (s : State),
      flashLive s = true →
      AnswersWith (exec (.imageUpdate none bs) s) (fun t => t.dev = { s.dev with flash := { s.dev.flash with jobs := s.dev.flash.jobs ++ [.image (s.sbXfer ++ bs)] } } ∧ t.sbXfer = [] ∧ rfc t F.CFG_STATUS.UPDATING 0 = 1 ∧ t.out = s.out ∧ t.slots = s.slots)) ∧
  (∀ (p : Die) (n : Nat) (x : SpdmSess) (bs : List Byte) (s : State),
      mboxOpen s p = true →
      3 ≤ s.spdm.stage →
      nget s.spdm.sessions n = some x →
      x.open_ = true →
      flashLive s = true →
      rfc s F.SEC_POLICY.LOCKDOWN 0 = 0 ∨ x.owner = true →
      exec (.imageUpdate (some (p, n)) bs) s = .next (wfc F.CFG_STATUS.UPDATING 1 0 { s with dev := { s.dev with flash := { s.dev.flash with jobs := s.dev.flash.jobs ++ [.image bs] } } })) ∧
  (∀ (bs : List Byte) (js : List FlashJob) (s : State),
      flashLive s = true →
      nextJobs s.dev.flash = .image bs :: js →
      s.dev.flash.half = false →
      exec (.flashUpdateDone true) s = .next (wfc F.CFG_STATUS.UPDATING 1 0 { s with dev := { s.dev with flash := { s.dev.flash with imgB := bs, jobs := .image bs :: js, half := true } } })) ∧
  (∀ (bs : List Byte) (s : State),
      flashLive s = true →
      nextJobs s.dev.flash = [.image bs] →
      s.dev.flash.half = true →
      exec (.flashUpdateDone true) s = .next (wfc F.CFG_STATUS.UPDATING 0 0 { s with dev := { s.dev with flash := { s.dev.flash with imgA := bs, jobs := [], half := false } } })) ∧
  (∀ (bs : List Byte) (js : List FlashJob) (s : State),
      flashLive s = true →
      nextJobs s.dev.flash = .image bs :: js →
      s.dev.flash.half = false →
      AnswersWith (exec (.flashUpdateDone false) s) (fun t => t.dev.flash = { s.dev.flash with imgB := [], jobs := .image bs :: js, half := true } ∧ Told s t 0x1003 3 ∧ t.slots = s.slots)) ∧
  (∀ (rs : List (BitVec 64)) (js : List FlashJob) (s : State),
      flashLive s = true →
      nextJobs s.dev.flash = .repair rs :: js →
      s.dev.flash.half = false →
      exec (.flashUpdateDone true) s = .next (wfc F.CFG_STATUS.UPDATING 1 0 { s with dev := { s.dev with flash := { s.dev.flash with repA := ⟨true, max s.dev.flash.repA.seq s.dev.flash.repB.seq + 1, rs⟩, jobs := .repair rs :: js, half := true } } })) ∧
  (∀ (a : Option Key) (b : NMap (List Byte)) (js : List FlashJob) (s : State),
      flashLive s = true →
      nextJobs s.dev.flash = (.secrets a b) :: js →
      s.dev.flash.half = false →
      exec (.flashUpdateDone true) s = .next (wfc F.CFG_STATUS.UPDATING (b2n (!js.isEmpty)) 0 { s with dev := { s.dev with flash := { s.dev.flash with jobs := js, half := false } } }))

/-- Chapter 21, Boundary scan (R457): IDCODE selects 32 bits of the value of R457, SAMPLE_PRELOAD the boundary cells, BYPASS one bit. R458: EXTEST, CLAMP, HIGHZ, EXTEST_PULSE and EXTEST_TRAIN load as BYPASS unless TEST_EN was 1 at the last sampling. The length of the boundary register is the silicon's (log entry 6). -/
def Obligations.TheTestAccessPort : Prop :=
  (∀ (d : Die) (s : State),
      diePresent s d = true →
      AnswersWith (exec (.idcode d) s) (fun t => tapOf t d = ⟨1, (tapOf s d).cells, .normal⟩ ∧ t.out = s.out ++ [.tdo d 32 ((stepping d / 16 * 2 ^ 28 + 0x4B16 * 2 ^ 12 + 0x76B) % 2 ^ 32)] ∧ { t with tap := s.tap, out := s.out } = s)) ∧
  (∀ (d : Die) (pins cells : Nat) (s : State),
      diePresent s d = true →
      AnswersWith (exec (.samplePreload d pins cells) s) (fun t => tapOf t d = ⟨2, cells % 2 ^ scanLen, .normal⟩ ∧ t.out = s.out ++ [.tdo d scanLen (pins % 2 ^ scanLen)] ∧ { t with tap := s.tap, out := s.out } = s)) ∧
  (∀ (d : Die) (s : State),
      diePresent s d = true →
      AnswersWith (exec (.bypass d) s) (fun t => tapOf t d = ⟨0xFF, (tapOf s d).cells, .normal⟩ ∧ t.out = s.out ++ [.tdo d 1 0] ∧ { t with tap := s.tap, out := s.out } = s)) ∧
  (∀ (d : Die) (pins : Nat) (s : State),
      diePresent s d = true →
      AnswersWith (exec (.extest d pins) s) (fun t => tapOf t d = (if s.dev.straps.testEn then ⟨3, (tapOf s d).cells, .cells⟩ else ⟨0xFF, (tapOf s d).cells, .normal⟩) ∧ t.out = s.out ++ [if s.dev.straps.testEn then .tdo d scanLen (pins % 2 ^ scanLen) else .tdo d 1 0] ∧ { t with tap := s.tap, out := s.out } = s)) ∧
  (∀ (d : Die) (pins : Nat) (s : State),
      diePresent s d = true →
      AnswersWith (exec (.extestPulse d pins) s) (fun t => tapOf t d = (if s.dev.straps.testEn then ⟨6, (tapOf s d).cells, .pulse⟩ else ⟨0xFF, (tapOf s d).cells, .normal⟩) ∧ t.out = s.out ++ [if s.dev.straps.testEn then .tdo d scanLen (pins % 2 ^ scanLen) else .tdo d 1 0] ∧ { t with tap := s.tap, out := s.out } = s)) ∧
  (∀ (d : Die) (pins : Nat) (s : State),
      diePresent s d = true →
      AnswersWith (exec (.extestTrain d pins) s) (fun t => tapOf t d = (if s.dev.straps.testEn then ⟨7, (tapOf s d).cells, .train⟩ else ⟨0xFF, (tapOf s d).cells, .normal⟩) ∧ t.out = s.out ++ [if s.dev.straps.testEn then .tdo d scanLen (pins % 2 ^ scanLen) else .tdo d 1 0] ∧ { t with tap := s.tap, out := s.out } = s)) ∧
  (∀ (d : Die) (s : State),
      diePresent s d = true →
      AnswersWith (exec (.clamp d) s) (fun t => tapOf t d = (if s.dev.straps.testEn then ⟨4, (tapOf s d).cells, .clamp⟩ else ⟨0xFF, (tapOf s d).cells, .normal⟩) ∧ t.out = s.out ++ [if s.dev.straps.testEn then .tdo d 1 (0 % 2 ^ 1) else .tdo d 1 0] ∧ { t with tap := s.tap, out := s.out } = s)) ∧
  (∀ (d : Die) (s : State),
      diePresent s d = true →
      AnswersWith (exec (.highz d) s) (fun t => tapOf t d = (if s.dev.straps.testEn then ⟨5, (tapOf s d).cells, .highz⟩ else ⟨0xFF, (tapOf s d).cells, .normal⟩) ∧ t.out = s.out ++ [if s.dev.straps.testEn then .tdo d 1 (0 % 2 ^ 1) else .tdo d 1 0] ∧ { t with tap := s.tap, out := s.out } = s))

/-- The command at the front of the queue is carried out with the rest of the queue left waiting. What a step does on an empty queue is the model's choice (log entry 2): the management timer of R389 and the cycle counters of R413 go on by 5 ns, and no work of the device is done. -/
def Obligations.StepRunsTheFrontCommand : Prop :=
  (∀ (c : Instr) (q : List Instr) (s : State),
      step { s with pending := c :: q } = exec c { s with pending := q }) ∧
  (∀ (s : State),
      s.pending = [] →
      AnswersWith (step s) (fun t => t.nowNs = s.nowNs + 5 ∧ t.upNs = s.upNs + 5 ∧ t.pending = [] ∧ t.dev = s.dev ∧ t.ops = s.ops ∧ t.slots = s.slots ∧ t.pins = s.pins ∧ t.east.subs = s.east.subs ∧ t.west.subs = s.west.subs ∧ (diesPresent s).all (fun d => decide ((die t d).cyc = ((die s d).cyc + (if s.dev.mode = .hold then 0 else cyclesIn s.nowNs (coreMhz s d) 1)) % 2 ^ 64)) = true))

/-- R435: at reset a field takes its given value. The device is in BOOT with no lock, no key, no request, no region bound, no record unread and nothing left to do. Fields whose reset value comes from the Makody image or the straps read here what log entry 3 names. -/
def Obligations.ResetLeavesTheGivenValues : Prop :=
  (∀ (r : RegName) (f : Fld) (d : Die) (i : Nat),
      f ∈ regFields r →
      rf State.reset f d i = f.rst) ∧
  (      State.reset.Idle ∧ State.reset.dev.mode = .boot ∧ State.reset.dev.trans = none ∧ rfc State.reset F.DEV_MODE.LOCKED 0 = 0 ∧ State.reset.ops = [] ∧ State.reset.serves = [] ∧ State.reset.slots = [] ∧ State.reset.metaKey = none ∧ State.reset.tables = [] ∧ State.reset.spdm.sessions = [] ∧ State.reset.sideband = [] ∧ State.reset.pending = [] ∧ State.reset.pins.pwrOk = false ∧ State.reset.out = [])

/-- The work that a command starts inside the device is done within its step: no later step finds any of it left. That a step takes no time is the model's form (log entry 31); that State.reset meets the invariant is part of ResetLeavesTheGivenValues. -/
def Obligations.EveryStepDoesAllItsWork : Prop :=
  (∀ (s : State),
      s.todo = [] →
      AnswersWith (step s) (fun t => t.todo = []))

/-- The text after R367: no transition leaves FROZEN, and a FROZEN device stays FROZEN until device reset. That no transition runs in FROZEN (R383) is the invariant that the statement keeps with it. -/
def Obligations.NoModeCommandLeavesFrozen : Prop :=
  (∀ (s : State),
      s.Idle →
      s.dev.mode = .frozen →
      s.dev.trans = none →
      AnswersWith (exec .reqThrift s) (fun t => t.dev.mode = .frozen ∧ t.dev.trans = none)) ∧
  (∀ (s : State),
      s.Idle →
      s.dev.mode = .frozen →
      s.dev.trans = none →
      AnswersWith (exec .reqServe s) (fun t => t.dev.mode = .frozen ∧ t.dev.trans = none)) ∧
  (∀ (s : State),
      s.Idle →
      s.dev.mode = .frozen →
      s.dev.trans = none →
      AnswersWith (exec .reqHold s) (fun t => t.dev.mode = .frozen ∧ t.dev.trans = none)) ∧
  (∀ (s : State),
      s.Idle →
      s.dev.mode = .frozen →
      s.dev.trans = none →
      AnswersWith (exec .reqFreeze s) (fun t => t.dev.mode = .frozen ∧ t.dev.trans = none)) ∧
  (∀ (s : State),
      s.Idle →
      s.dev.mode = .frozen →
      s.dev.trans = none →
      AnswersWith (exec .modeTransitionDone s) (fun t => t.dev.mode = .frozen ∧ t.dev.trans = none)) ∧
  (∀ (s : State),
      s.Idle →
      s.dev.mode = .frozen →
      s.dev.trans = none →
      AnswersWith (exec .holdDrainTimeout s) (fun t => t.dev.mode = .frozen ∧ t.dev.trans = none)) ∧
  (∀ (p : Die) (s : State),
      s.Idle →
      s.dev.mode = .frozen →
      s.dev.trans = none →
      AnswersWith (exec (.l1Exit p) s) (fun t => t.dev.mode = .frozen ∧ t.dev.trans = none)) ∧
  (∀ (s : State),
      s.Idle →
      s.dev.mode = .frozen →
      s.dev.trans = none →
      AnswersWith (exec .trainExit s) (fun t => t.dev.mode = .frozen ∧ t.dev.trans = none)) ∧
  (∀ (s : State),
      s.Idle →
      s.dev.mode = .frozen →
      s.dev.trans = none →
      AnswersWith (exec .bootDone s) (fun t => t.dev.mode = .frozen ∧ t.dev.trans = none)) ∧
  (∀ (s : State),
      s.Idle →
      s.dev.mode = .frozen →
      s.dev.trans = none →
      AnswersWith (exec .sanitizeDone s) (fun t => t.dev.mode = .frozen ∧ t.dev.trans = none)) ∧
  (∀ (s : State),
      s.Idle →
      s.dev.mode = .frozen →
      s.dev.trans = none →
      AnswersWith (exec .thermalEval s) (fun t => t.dev.mode = .frozen ∧ t.dev.trans = none)) ∧
  (∀ (d : Die) (k : Nat) (x : Int) (s : State),
      s.Idle →
      s.dev.mode = .frozen →
      s.dev.trans = none →
      AnswersWith (exec (.thermalTrip d k x) s) (fun t => t.dev.mode = .frozen ∧ t.dev.trans = none)) ∧
  (∀ (a : Nat) (v : Word) (s : State),
      s.Idle →
      s.dev.mode = .frozen →
      s.dev.trans = none →
      AnswersWith (exec (.sidebandWrite a v) s) (fun t => t.dev.mode = .frozen ∧ t.dev.trans = none)) ∧
  (∀ (p : Die) (s : State),
      s.Idle →
      s.dev.mode = .frozen →
      s.dev.trans = none →
      AnswersWith (exec (.perstRelease p) s) (fun t => t.dev.mode = .frozen ∧ t.dev.trans = none)) ∧
  (∀ (s : State),
      s.dev.mode = .frozen →
      s.pending = [] →
      AnswersWith (step s) (fun t => t.dev = s.dev))

/-- R434, Table 20.3: RW takes what is written, RO keeps what it holds, a bit of a W1C field is cleared by a 1 and kept by a 0. R436: before the lock an RWL field takes what is written; after it a write that would change an RWL field of the register leaves all of them as they are and is counted. -/
def Obligations.FieldsFollowTheirAccessTypes : Prop :=
  (∀ (r : RegName) (f : Fld) (d : Die) (i v : Nat) (s : State),
      f ∈ regFields r →
      f.acc = .RW →
      i < regCopies r →
      rf (plainWrite r d i v s) f d i = fld v f.lo f.w) ∧
  (∀ (r : RegName) (f : Fld) (d : Die) (i v : Nat) (s : State),
      f ∈ regFields r →
      f.acc = .RO ∨ f.acc = .W1S ∨ f.acc = .WO →
      r ≠ .DEV_IGNORED_COUNT →
      i < regCopies r →
      rf (plainWrite r d i v s) f d i = rf s f d i) ∧
  (∀ (r : RegName) (f : Fld) (d : Die) (i v k : Nat) (s : State),
      f ∈ regFields r →
      f.acc = .W1C →
      k < f.w →
      i < regCopies r →
      bitn (rf (plainWrite r d i v s) f d i) k = (bitn (rf s f d i) k && !(bitn v (f.lo + k)))) ∧
  (∀ (r : RegName) (f : Fld) (d : Die) (i v : Nat) (s : State),
      f ∈ regFields r →
      f.acc = .RWL →
      i < regCopies r →
      rfc s F.DEV_MODE.LOCKED 0 = 0 ∨ rwlChanged r (rdReg s r d i) v = false →
      rf (plainWrite r d i v s) f d i = fld v f.lo f.w ∧ rfc (plainWrite r d i v s) F.DEV_IGNORED_COUNT.LOCKED 0 = rfc s F.DEV_IGNORED_COUNT.LOCKED 0) ∧
  (∀ (r : RegName) (f : Fld) (d : Die) (i v : Nat) (s : State),
      f ∈ regFields r →
      f.acc = .RWL →
      i < regCopies r →
      rfc s F.DEV_MODE.LOCKED 0 = 1 →
      rwlChanged r (rdReg s r d i) v = true →
      rf (plainWrite r d i v s) f d i = rf s f d i ∧ rfc (plainWrite r d i v s) F.DEV_IGNORED_COUNT.LOCKED 0 = satAdd F.DEV_IGNORED_COUNT.LOCKED.w (rfc s F.DEV_IGNORED_COUNT.LOCKED 0) 1)

/-- R439: which blocks a part lacks (the West window and PSG on single-die parts, LKE and QUE on the KM-1622 and KM-1602, FPC on the KM-1602), that they read as zero and ignore every write, that such a write is not counted and posts nothing, and that the HPC block of a present die is always present. -/
def Obligations.AbsentUnitsReadZeroAndIgnoreWrites : Prop :=
  (∀ (b : RegBlock) (d : Die) (s : State),
      blockAbsent s b d = true ↔ ((partDual s.dev.part = false ∧ ((d = .west ∧ blockCommon b = false) ∨ b = .PSG)) ∨ ((s.dev.part = .km1622 ∨ s.dev.part = .km1602) ∧ (b = .LKE ∨ b = .QUE)) ∨ (s.dev.part = .km1602 ∧ b = .FPC))) ∧
  (∀ (d : Die) (s : State),
      diePresent s d = true →
      blockAbsent s .HPC d = false) ∧
  (∀ (a i : Nat) (r : RegName) (d : Die) (s : State),
      regAt a = some (r, d, i) →
      blockAbsent s (regPlace r).block d = true →
      readWord s a = 0) ∧
  (∀ (p d : Die) (a i : Nat) (r : RegName) (v : BitVec 64) (sess : Option Nat) (s : State),
      s.Idle →
      portAlive s p = true →
      (s.psg.resetting && (barDie s a != p || s.psg.barHeld.any (fun x => x.port == p))) = false →
      a % 4 = 0 →
      regAt a = some (r, d, i) →
      blockAbsent s (regPlace r).block d = true →
      exec (.registerWrite p a v 4 sess) s = .next s)

/-- R95: a poisoned word is encoded as usual, with the fold of its home address, and its check symbols are XORed with 0xC6, 0xA5 and 0x63; every word of a poisoned line is written so, and the data symbols are written as supplied. -/
def Obligations.PoisonIsWrittenIntoTheCheckSymbols : Prop :=
  (∀ (h : Nat) (l : Line) (w : Nat),
      w < 8 →
      sym (encodeLine h l true none) w 8 = sym (encodeLine h l false none) w 8 ^^^ 0xC6 ∧ sym (encodeLine h l true none) w 9 = sym (encodeLine h l false none) w 9 ^^^ 0xA5 ∧ sym (encodeLine h l true none) w 10 = sym (encodeLine h l false none) w 10 ^^^ 0x63 ∧ (∀ i, i < 8 → sym (encodeLine h l true none) w i = lineByte l (8 * w + i) ∧ sym (encodeLine h l false none) w i = lineByte l (8 * w + i)))

/-- R100, Table 4.3, for every word of every line at every home address: what is written is read back; one faulty symbol is corrected, two are detected; under an erasure mark the marked symbol is rebuilt whatever it reads, with one more fault corrected; a read for an address that moves one fold symbol is told as ADDRESS, one that moves both as UNCORRECTABLE; a poisoned word reads as POISON, and with one more fault as UNCORRECTABLE. -/
def Obligations.TheWordCodeKeepsItsAssurances : Prop :=
  (∀ (h : Nat) (l : Line) (w : Nat),
      w < 8 →
      (decodeWord h none (encodeLine h l false none) w).Gives .none l w ∧ (decodeWord h none (encodeLine h l true none) w).outc = .poison) ∧
  (∀ (h : Nat) (l : Line) (w : Nat) (i : Nat) (e : Byte),
      w < 8 →
      i < 11 →
      e ≠ 0 →
      (decodeWord h none (flipSym w i e (encodeLine h l false none)) w).Gives .corrected l w ∧ (decodeWord h none (flipSym w i e (encodeLine h l false none)) w).pos = i ∧ (decodeWord h none (flipSym w i e (encodeLine h l true none)) w).outc = .uncorrectable) ∧
  (∀ (h : Nat) (l : Line) (w : Nat) (i j : Nat) (e g : Byte),
      w < 8 →
      i < j →
      j < 11 →
      e ≠ 0 →
      g ≠ 0 →
      (decodeWord h none (flipSym w i e (flipSym w j g (encodeLine h l false none))) w).outc = .uncorrectable) ∧
  (∀ (h : Nat) (l : Line) (w : Nat) (a : Nat) (x : Byte),
      w < 8 →
      a < 11 →
      (decodeWord h (some a) (flipSym w a x (encodeLine h l false none)) w).Gives .none l w ∧ (decodeWord h (some a) (flipSym w a x (encodeLine h l true none)) w).outc = .poison) ∧
  (∀ (h : Nat) (l : Line) (w : Nat) (a i : Nat) (x e : Byte),
      w < 8 →
      a < 11 →
      i < 11 →
      i ≠ a →
      e ≠ 0 →
      (decodeWord h (some a) (flipSym w a x (flipSym w i e (encodeLine h l false none))) w).Gives .corrected l w ∧ (decodeWord h (some a) (flipSym w a x (flipSym w i e (encodeLine h l false none))) w).pos = i) ∧
  (∀ (h : Nat) (l : Line) (w : Nat) (k a : Nat) (x : Byte),
      w < 8 →
      a < 11 →
      foldV0 k w ≠ foldV0 h w →
      foldV1 k = foldV1 h →
      (decodeWord k none (encodeLine h l false none) w).outc = .address ∧ (decodeWord k none (encodeLine h l false none) w).pos = 11 ∧ (decodeWord k (some a) (flipSym w a x (encodeLine h l false none)) w).outc = .address ∧ (decodeWord k (some a) (flipSym w a x (encodeLine h l false none)) w).pos = 11) ∧
  (∀ (h : Nat) (l : Line) (w : Nat) (k a : Nat) (x : Byte),
      w < 8 →
      a < 11 →
      foldV0 k w = foldV0 h w →
      foldV1 k ≠ foldV1 h →
      (decodeWord k none (encodeLine h l false none) w).outc = .address ∧ (decodeWord k none (encodeLine h l false none) w).pos = 12 ∧ (decodeWord k (some a) (flipSym w a x (encodeLine h l false none)) w).outc = .address ∧ (decodeWord k (some a) (flipSym w a x (encodeLine h l false none)) w).pos = 12) ∧
  (∀ (h : Nat) (l : Line) (w : Nat) (k : Nat),
      w < 8 →
      foldV0 k w ≠ foldV0 h w →
      foldV1 k ≠ foldV1 h →
      (decodeWord k none (encodeLine h l false none) w).outc = .uncorrectable)

/-- R165 to R173: the bytes of a coded page pass the header checks of Table 7.4 and the CRC, and rebuild its 64 lines; and each line comes from the header sector and the one sector that holds its payload. -/
def Obligations.ACodedPageDecodesToItself : Prop :=
  (∀ (p : List Line) (i : Nat),
      p.length = 64 →
      pageValue p = none →
      (codeLines p [] 32).2 ≤ 2048 →
      i < 64 →
      decodePage (codePage p).bytes (codePage p).size = some (p, true) ∧ (match headerOk ((codePage p).bytes.take 256) (codePage p).size with | some cs => extractLine cs (codePage p).bytes (fun k => k == 0 || k == lineSector cs i) i = p[i]? | none => False))
end

