-- ==== Sys2Proof/Laws/State.lean ====
section
/-!
SUPPORT. Sys2Proof/Laws/State.lean: what each of the plain updates leaves of each part of the state. The updates are a write of a
register or of a field, a message sent, a free value taken, and a change of a die, of a subchannel or of a channel.
-/

namespace Sys2Proof.Machine

/-! ### wrReg -/

@[simp] theorem wrReg_bound (r : RegName) (d : Die) (i v : Nat) (s : State) : (wrReg r d i v s).bound = s.bound := rfl
@[simp] theorem wrReg_east (r : RegName) (d : Die) (i v : Nat) (s : State) : (wrReg r d i v s).east = s.east := rfl
@[simp] theorem wrReg_west (r : RegName) (d : Die) (i v : Nat) (s : State) : (wrReg r d i v s).west = s.west := rfl
@[simp] theorem wrReg_ops (r : RegName) (d : Die) (i v : Nat) (s : State) : (wrReg r d i v s).ops = s.ops := rfl
@[simp] theorem wrReg_seq (r : RegName) (d : Die) (i v : Nat) (s : State) : (wrReg r d i v s).seq = s.seq := rfl
@[simp] theorem wrReg_nowNs (r : RegName) (d : Die) (i v : Nat) (s : State) : (wrReg r d i v s).nowNs = s.nowNs := rfl
@[simp] theorem wrReg_upNs (r : RegName) (d : Die) (i v : Nat) (s : State) : (wrReg r d i v s).upNs = s.upNs := rfl
@[simp] theorem wrReg_dev (r : RegName) (d : Die) (i v : Nat) (s : State) : (wrReg r d i v s).dev = s.dev := rfl
@[simp] theorem wrReg_sideband (r : RegName) (d : Die) (i v : Nat) (s : State) : (wrReg r d i v s).sideband = s.sideband := rfl
@[simp] theorem wrReg_cxlOffset (r : RegName) (d : Die) (i v : Nat) (s : State) : (wrReg r d i v s).cxlOffset = s.cxlOffset := rfl
@[simp] theorem wrReg_snapTarget (r : RegName) (d : Die) (i v : Nat) (s : State) : (wrReg r d i v s).snapTarget = s.snapTarget := rfl
@[simp] theorem wrReg_ctrgWait (r : RegName) (d : Die) (i v : Nat) (s : State) : (wrReg r d i v s).ctrgWait = s.ctrgWait := rfl
@[simp] theorem wrReg_slots (r : RegName) (d : Die) (i v : Nat) (s : State) : (wrReg r d i v s).slots = s.slots := rfl
@[simp] theorem wrReg_rots (r : RegName) (d : Die) (i v : Nat) (s : State) : (wrReg r d i v s).rots = s.rots := rfl
@[simp] theorem wrReg_metaKey (r : RegName) (d : Die) (i v : Nat) (s : State) : (wrReg r d i v s).metaKey = s.metaKey := rfl
@[simp] theorem wrReg_msx (r : RegName) (d : Die) (i v : Nat) (s : State) : (wrReg r d i v s).msx = s.msx := rfl
@[simp] theorem wrReg_therm (r : RegName) (d : Die) (i v : Nat) (s : State) : (wrReg r d i v s).therm = s.therm := rfl
@[simp] theorem wrReg_psg (r : RegName) (d : Die) (i v : Nat) (s : State) : (wrReg r d i v s).psg = s.psg := rfl
@[simp] theorem wrReg_todo (r : RegName) (d : Die) (i v : Nat) (s : State) : (wrReg r d i v s).todo = s.todo := rfl
@[simp] theorem wrReg_serves (r : RegName) (d : Die) (i v : Nat) (s : State) : (wrReg r d i v s).serves = s.serves := rfl
@[simp] theorem wrReg_tables (r : RegName) (d : Die) (i v : Nat) (s : State) : (wrReg r d i v s).tables = s.tables := rfl
@[simp] theorem wrReg_spdm (r : RegName) (d : Die) (i v : Nat) (s : State) : (wrReg r d i v s).spdm = s.spdm := rfl
@[simp] theorem wrReg_tap (r : RegName) (d : Die) (i v : Nat) (s : State) : (wrReg r d i v s).tap = s.tap := rfl
@[simp] theorem wrReg_pins (r : RegName) (d : Die) (i v : Nat) (s : State) : (wrReg r d i v s).pins = s.pins := rfl
@[simp] theorem wrReg_fw (r : RegName) (d : Die) (i v : Nat) (s : State) : (wrReg r d i v s).fw = s.fw := rfl
@[simp] theorem wrReg_sani (r : RegName) (d : Die) (i v : Nat) (s : State) : (wrReg r d i v s).sani = s.sani := rfl
@[simp] theorem wrReg_sbXfer (r : RegName) (d : Die) (i v : Nat) (s : State) : (wrReg r d i v s).sbXfer = s.sbXfer := rfl
@[simp] theorem wrReg_injected (r : RegName) (d : Die) (i v : Nat) (s : State) : (wrReg r d i v s).injected = s.injected := rfl
@[simp] theorem wrReg_out (r : RegName) (d : Die) (i v : Nat) (s : State) : (wrReg r d i v s).out = s.out := rfl
@[simp] theorem wrReg_freeCtr (r : RegName) (d : Die) (i v : Nat) (s : State) : (wrReg r d i v s).freeCtr = s.freeCtr := rfl
@[simp] theorem wrReg_pending (r : RegName) (d : Die) (i v : Nat) (s : State) : (wrReg r d i v s).pending = s.pending := rfl

/-! ### wf -/

@[simp] theorem wf_bound (f : Fld) (d : Die) (i v : Nat) (s : State) : (wf f d i v s).bound = s.bound := rfl
@[simp] theorem wf_east (f : Fld) (d : Die) (i v : Nat) (s : State) : (wf f d i v s).east = s.east := rfl
@[simp] theorem wf_west (f : Fld) (d : Die) (i v : Nat) (s : State) : (wf f d i v s).west = s.west := rfl
@[simp] theorem wf_ops (f : Fld) (d : Die) (i v : Nat) (s : State) : (wf f d i v s).ops = s.ops := rfl
@[simp] theorem wf_seq (f : Fld) (d : Die) (i v : Nat) (s : State) : (wf f d i v s).seq = s.seq := rfl
@[simp] theorem wf_nowNs (f : Fld) (d : Die) (i v : Nat) (s : State) : (wf f d i v s).nowNs = s.nowNs := rfl
@[simp] theorem wf_upNs (f : Fld) (d : Die) (i v : Nat) (s : State) : (wf f d i v s).upNs = s.upNs := rfl
@[simp] theorem wf_dev (f : Fld) (d : Die) (i v : Nat) (s : State) : (wf f d i v s).dev = s.dev := rfl
@[simp] theorem wf_sideband (f : Fld) (d : Die) (i v : Nat) (s : State) : (wf f d i v s).sideband = s.sideband := rfl
@[simp] theorem wf_cxlOffset (f : Fld) (d : Die) (i v : Nat) (s : State) : (wf f d i v s).cxlOffset = s.cxlOffset := rfl
@[simp] theorem wf_snapTarget (f : Fld) (d : Die) (i v : Nat) (s : State) : (wf f d i v s).snapTarget = s.snapTarget := rfl
@[simp] theorem wf_ctrgWait (f : Fld) (d : Die) (i v : Nat) (s : State) : (wf f d i v s).ctrgWait = s.ctrgWait := rfl
@[simp] theorem wf_slots (f : Fld) (d : Die) (i v : Nat) (s : State) : (wf f d i v s).slots = s.slots := rfl
@[simp] theorem wf_rots (f : Fld) (d : Die) (i v : Nat) (s : State) : (wf f d i v s).rots = s.rots := rfl
@[simp] theorem wf_metaKey (f : Fld) (d : Die) (i v : Nat) (s : State) : (wf f d i v s).metaKey = s.metaKey := rfl
@[simp] theorem wf_msx (f : Fld) (d : Die) (i v : Nat) (s : State) : (wf f d i v s).msx = s.msx := rfl
@[simp] theorem wf_therm (f : Fld) (d : Die) (i v : Nat) (s : State) : (wf f d i v s).therm = s.therm := rfl
@[simp] theorem wf_psg (f : Fld) (d : Die) (i v : Nat) (s : State) : (wf f d i v s).psg = s.psg := rfl
@[simp] theorem wf_todo (f : Fld) (d : Die) (i v : Nat) (s : State) : (wf f d i v s).todo = s.todo := rfl
@[simp] theorem wf_serves (f : Fld) (d : Die) (i v : Nat) (s : State) : (wf f d i v s).serves = s.serves := rfl
@[simp] theorem wf_tables (f : Fld) (d : Die) (i v : Nat) (s : State) : (wf f d i v s).tables = s.tables := rfl
@[simp] theorem wf_spdm (f : Fld) (d : Die) (i v : Nat) (s : State) : (wf f d i v s).spdm = s.spdm := rfl
@[simp] theorem wf_tap (f : Fld) (d : Die) (i v : Nat) (s : State) : (wf f d i v s).tap = s.tap := rfl
@[simp] theorem wf_pins (f : Fld) (d : Die) (i v : Nat) (s : State) : (wf f d i v s).pins = s.pins := rfl
@[simp] theorem wf_fw (f : Fld) (d : Die) (i v : Nat) (s : State) : (wf f d i v s).fw = s.fw := rfl
@[simp] theorem wf_sani (f : Fld) (d : Die) (i v : Nat) (s : State) : (wf f d i v s).sani = s.sani := rfl
@[simp] theorem wf_sbXfer (f : Fld) (d : Die) (i v : Nat) (s : State) : (wf f d i v s).sbXfer = s.sbXfer := rfl
@[simp] theorem wf_injected (f : Fld) (d : Die) (i v : Nat) (s : State) : (wf f d i v s).injected = s.injected := rfl
@[simp] theorem wf_out (f : Fld) (d : Die) (i v : Nat) (s : State) : (wf f d i v s).out = s.out := rfl
@[simp] theorem wf_freeCtr (f : Fld) (d : Die) (i v : Nat) (s : State) : (wf f d i v s).freeCtr = s.freeCtr := rfl
@[simp] theorem wf_pending (f : Fld) (d : Die) (i v : Nat) (s : State) : (wf f d i v s).pending = s.pending := rfl

/-! ### wfc -/

@[simp] theorem wfc_bound (f : Fld) (v i : Nat) (s : State) : (wfc f v i s).bound = s.bound := rfl
@[simp] theorem wfc_east (f : Fld) (v i : Nat) (s : State) : (wfc f v i s).east = s.east := rfl
@[simp] theorem wfc_west (f : Fld) (v i : Nat) (s : State) : (wfc f v i s).west = s.west := rfl
@[simp] theorem wfc_ops (f : Fld) (v i : Nat) (s : State) : (wfc f v i s).ops = s.ops := rfl
@[simp] theorem wfc_seq (f : Fld) (v i : Nat) (s : State) : (wfc f v i s).seq = s.seq := rfl
@[simp] theorem wfc_nowNs (f : Fld) (v i : Nat) (s : State) : (wfc f v i s).nowNs = s.nowNs := rfl
@[simp] theorem wfc_upNs (f : Fld) (v i : Nat) (s : State) : (wfc f v i s).upNs = s.upNs := rfl
@[simp] theorem wfc_dev (f : Fld) (v i : Nat) (s : State) : (wfc f v i s).dev = s.dev := rfl
@[simp] theorem wfc_sideband (f : Fld) (v i : Nat) (s : State) : (wfc f v i s).sideband = s.sideband := rfl
@[simp] theorem wfc_cxlOffset (f : Fld) (v i : Nat) (s : State) : (wfc f v i s).cxlOffset = s.cxlOffset := rfl
@[simp] theorem wfc_snapTarget (f : Fld) (v i : Nat) (s : State) : (wfc f v i s).snapTarget = s.snapTarget := rfl
@[simp] theorem wfc_ctrgWait (f : Fld) (v i : Nat) (s : State) : (wfc f v i s).ctrgWait = s.ctrgWait := rfl
@[simp] theorem wfc_slots (f : Fld) (v i : Nat) (s : State) : (wfc f v i s).slots = s.slots := rfl
@[simp] theorem wfc_rots (f : Fld) (v i : Nat) (s : State) : (wfc f v i s).rots = s.rots := rfl
@[simp] theorem wfc_metaKey (f : Fld) (v i : Nat) (s : State) : (wfc f v i s).metaKey = s.metaKey := rfl
@[simp] theorem wfc_msx (f : Fld) (v i : Nat) (s : State) : (wfc f v i s).msx = s.msx := rfl
@[simp] theorem wfc_therm (f : Fld) (v i : Nat) (s : State) : (wfc f v i s).therm = s.therm := rfl
@[simp] theorem wfc_psg (f : Fld) (v i : Nat) (s : State) : (wfc f v i s).psg = s.psg := rfl
@[simp] theorem wfc_todo (f : Fld) (v i : Nat) (s : State) : (wfc f v i s).todo = s.todo := rfl
@[simp] theorem wfc_serves (f : Fld) (v i : Nat) (s : State) : (wfc f v i s).serves = s.serves := rfl
@[simp] theorem wfc_tables (f : Fld) (v i : Nat) (s : State) : (wfc f v i s).tables = s.tables := rfl
@[simp] theorem wfc_spdm (f : Fld) (v i : Nat) (s : State) : (wfc f v i s).spdm = s.spdm := rfl
@[simp] theorem wfc_tap (f : Fld) (v i : Nat) (s : State) : (wfc f v i s).tap = s.tap := rfl
@[simp] theorem wfc_pins (f : Fld) (v i : Nat) (s : State) : (wfc f v i s).pins = s.pins := rfl
@[simp] theorem wfc_fw (f : Fld) (v i : Nat) (s : State) : (wfc f v i s).fw = s.fw := rfl
@[simp] theorem wfc_sani (f : Fld) (v i : Nat) (s : State) : (wfc f v i s).sani = s.sani := rfl
@[simp] theorem wfc_sbXfer (f : Fld) (v i : Nat) (s : State) : (wfc f v i s).sbXfer = s.sbXfer := rfl
@[simp] theorem wfc_injected (f : Fld) (v i : Nat) (s : State) : (wfc f v i s).injected = s.injected := rfl
@[simp] theorem wfc_out (f : Fld) (v i : Nat) (s : State) : (wfc f v i s).out = s.out := rfl
@[simp] theorem wfc_freeCtr (f : Fld) (v i : Nat) (s : State) : (wfc f v i s).freeCtr = s.freeCtr := rfl
@[simp] theorem wfc_pending (f : Fld) (v i : Nat) (s : State) : (wfc f v i s).pending = s.pending := rfl

/-! ### setFlag -/

@[simp] theorem setFlag_bound (f : Fld) (d : Die) (i : Nat) (s : State) : (setFlag f d i s).bound = s.bound := rfl
@[simp] theorem setFlag_east (f : Fld) (d : Die) (i : Nat) (s : State) : (setFlag f d i s).east = s.east := rfl
@[simp] theorem setFlag_west (f : Fld) (d : Die) (i : Nat) (s : State) : (setFlag f d i s).west = s.west := rfl
@[simp] theorem setFlag_ops (f : Fld) (d : Die) (i : Nat) (s : State) : (setFlag f d i s).ops = s.ops := rfl
@[simp] theorem setFlag_seq (f : Fld) (d : Die) (i : Nat) (s : State) : (setFlag f d i s).seq = s.seq := rfl
@[simp] theorem setFlag_nowNs (f : Fld) (d : Die) (i : Nat) (s : State) : (setFlag f d i s).nowNs = s.nowNs := rfl
@[simp] theorem setFlag_upNs (f : Fld) (d : Die) (i : Nat) (s : State) : (setFlag f d i s).upNs = s.upNs := rfl
@[simp] theorem setFlag_dev (f : Fld) (d : Die) (i : Nat) (s : State) : (setFlag f d i s).dev = s.dev := rfl
@[simp] theorem setFlag_sideband (f : Fld) (d : Die) (i : Nat) (s : State) : (setFlag f d i s).sideband = s.sideband := rfl
@[simp] theorem setFlag_cxlOffset (f : Fld) (d : Die) (i : Nat) (s : State) : (setFlag f d i s).cxlOffset = s.cxlOffset := rfl
@[simp] theorem setFlag_snapTarget (f : Fld) (d : Die) (i : Nat) (s : State) : (setFlag f d i s).snapTarget = s.snapTarget := rfl
@[simp] theorem setFlag_ctrgWait (f : Fld) (d : Die) (i : Nat) (s : State) : (setFlag f d i s).ctrgWait = s.ctrgWait := rfl
@[simp] theorem setFlag_slots (f : Fld) (d : Die) (i : Nat) (s : State) : (setFlag f d i s).slots = s.slots := rfl
@[simp] theorem setFlag_rots (f : Fld) (d : Die) (i : Nat) (s : State) : (setFlag f d i s).rots = s.rots := rfl
@[simp] theorem setFlag_metaKey (f : Fld) (d : Die) (i : Nat) (s : State) : (setFlag f d i s).metaKey = s.metaKey := rfl
@[simp] theorem setFlag_msx (f : Fld) (d : Die) (i : Nat) (s : State) : (setFlag f d i s).msx = s.msx := rfl
@[simp] theorem setFlag_therm (f : Fld) (d : Die) (i : Nat) (s : State) : (setFlag f d i s).therm = s.therm := rfl
@[simp] theorem setFlag_psg (f : Fld) (d : Die) (i : Nat) (s : State) : (setFlag f d i s).psg = s.psg := rfl
@[simp] theorem setFlag_todo (f : Fld) (d : Die) (i : Nat) (s : State) : (setFlag f d i s).todo = s.todo := rfl
@[simp] theorem setFlag_serves (f : Fld) (d : Die) (i : Nat) (s : State) : (setFlag f d i s).serves = s.serves := rfl
@[simp] theorem setFlag_tables (f : Fld) (d : Die) (i : Nat) (s : State) : (setFlag f d i s).tables = s.tables := rfl
@[simp] theorem setFlag_spdm (f : Fld) (d : Die) (i : Nat) (s : State) : (setFlag f d i s).spdm = s.spdm := rfl
@[simp] theorem setFlag_tap (f : Fld) (d : Die) (i : Nat) (s : State) : (setFlag f d i s).tap = s.tap := rfl
@[simp] theorem setFlag_pins (f : Fld) (d : Die) (i : Nat) (s : State) : (setFlag f d i s).pins = s.pins := rfl
@[simp] theorem setFlag_fw (f : Fld) (d : Die) (i : Nat) (s : State) : (setFlag f d i s).fw = s.fw := rfl
@[simp] theorem setFlag_sani (f : Fld) (d : Die) (i : Nat) (s : State) : (setFlag f d i s).sani = s.sani := rfl
@[simp] theorem setFlag_sbXfer (f : Fld) (d : Die) (i : Nat) (s : State) : (setFlag f d i s).sbXfer = s.sbXfer := rfl
@[simp] theorem setFlag_injected (f : Fld) (d : Die) (i : Nat) (s : State) : (setFlag f d i s).injected = s.injected := rfl
@[simp] theorem setFlag_out (f : Fld) (d : Die) (i : Nat) (s : State) : (setFlag f d i s).out = s.out := rfl
@[simp] theorem setFlag_freeCtr (f : Fld) (d : Die) (i : Nat) (s : State) : (setFlag f d i s).freeCtr = s.freeCtr := rfl
@[simp] theorem setFlag_pending (f : Fld) (d : Die) (i : Nat) (s : State) : (setFlag f d i s).pending = s.pending := rfl

/-! ### cntF -/

@[simp] theorem cntF_bound (f : Fld) (d : Die) (i n : Nat) (s : State) : (cntF f d i n s).bound = s.bound := rfl
@[simp] theorem cntF_east (f : Fld) (d : Die) (i n : Nat) (s : State) : (cntF f d i n s).east = s.east := rfl
@[simp] theorem cntF_west (f : Fld) (d : Die) (i n : Nat) (s : State) : (cntF f d i n s).west = s.west := rfl
@[simp] theorem cntF_ops (f : Fld) (d : Die) (i n : Nat) (s : State) : (cntF f d i n s).ops = s.ops := rfl
@[simp] theorem cntF_seq (f : Fld) (d : Die) (i n : Nat) (s : State) : (cntF f d i n s).seq = s.seq := rfl
@[simp] theorem cntF_nowNs (f : Fld) (d : Die) (i n : Nat) (s : State) : (cntF f d i n s).nowNs = s.nowNs := rfl
@[simp] theorem cntF_upNs (f : Fld) (d : Die) (i n : Nat) (s : State) : (cntF f d i n s).upNs = s.upNs := rfl
@[simp] theorem cntF_dev (f : Fld) (d : Die) (i n : Nat) (s : State) : (cntF f d i n s).dev = s.dev := rfl
@[simp] theorem cntF_sideband (f : Fld) (d : Die) (i n : Nat) (s : State) : (cntF f d i n s).sideband = s.sideband := rfl
@[simp] theorem cntF_cxlOffset (f : Fld) (d : Die) (i n : Nat) (s : State) : (cntF f d i n s).cxlOffset = s.cxlOffset := rfl
@[simp] theorem cntF_snapTarget (f : Fld) (d : Die) (i n : Nat) (s : State) : (cntF f d i n s).snapTarget = s.snapTarget := rfl
@[simp] theorem cntF_ctrgWait (f : Fld) (d : Die) (i n : Nat) (s : State) : (cntF f d i n s).ctrgWait = s.ctrgWait := rfl
@[simp] theorem cntF_slots (f : Fld) (d : Die) (i n : Nat) (s : State) : (cntF f d i n s).slots = s.slots := rfl
@[simp] theorem cntF_rots (f : Fld) (d : Die) (i n : Nat) (s : State) : (cntF f d i n s).rots = s.rots := rfl
@[simp] theorem cntF_metaKey (f : Fld) (d : Die) (i n : Nat) (s : State) : (cntF f d i n s).metaKey = s.metaKey := rfl
@[simp] theorem cntF_msx (f : Fld) (d : Die) (i n : Nat) (s : State) : (cntF f d i n s).msx = s.msx := rfl
@[simp] theorem cntF_therm (f : Fld) (d : Die) (i n : Nat) (s : State) : (cntF f d i n s).therm = s.therm := rfl
@[simp] theorem cntF_psg (f : Fld) (d : Die) (i n : Nat) (s : State) : (cntF f d i n s).psg = s.psg := rfl
@[simp] theorem cntF_todo (f : Fld) (d : Die) (i n : Nat) (s : State) : (cntF f d i n s).todo = s.todo := rfl
@[simp] theorem cntF_serves (f : Fld) (d : Die) (i n : Nat) (s : State) : (cntF f d i n s).serves = s.serves := rfl
@[simp] theorem cntF_tables (f : Fld) (d : Die) (i n : Nat) (s : State) : (cntF f d i n s).tables = s.tables := rfl
@[simp] theorem cntF_spdm (f : Fld) (d : Die) (i n : Nat) (s : State) : (cntF f d i n s).spdm = s.spdm := rfl
@[simp] theorem cntF_tap (f : Fld) (d : Die) (i n : Nat) (s : State) : (cntF f d i n s).tap = s.tap := rfl
@[simp] theorem cntF_pins (f : Fld) (d : Die) (i n : Nat) (s : State) : (cntF f d i n s).pins = s.pins := rfl
@[simp] theorem cntF_fw (f : Fld) (d : Die) (i n : Nat) (s : State) : (cntF f d i n s).fw = s.fw := rfl
@[simp] theorem cntF_sani (f : Fld) (d : Die) (i n : Nat) (s : State) : (cntF f d i n s).sani = s.sani := rfl
@[simp] theorem cntF_sbXfer (f : Fld) (d : Die) (i n : Nat) (s : State) : (cntF f d i n s).sbXfer = s.sbXfer := rfl
@[simp] theorem cntF_injected (f : Fld) (d : Die) (i n : Nat) (s : State) : (cntF f d i n s).injected = s.injected := rfl
@[simp] theorem cntF_out (f : Fld) (d : Die) (i n : Nat) (s : State) : (cntF f d i n s).out = s.out := rfl
@[simp] theorem cntF_freeCtr (f : Fld) (d : Die) (i n : Nat) (s : State) : (cntF f d i n s).freeCtr = s.freeCtr := rfl
@[simp] theorem cntF_pending (f : Fld) (d : Die) (i n : Nat) (s : State) : (cntF f d i n s).pending = s.pending := rfl

/-! ### send -/

@[simp] theorem send_bound (m : OutMsg) (s : State) : (send m s).bound = s.bound := rfl
@[simp] theorem send_regs (m : OutMsg) (s : State) : (send m s).regs = s.regs := rfl
@[simp] theorem send_east (m : OutMsg) (s : State) : (send m s).east = s.east := rfl
@[simp] theorem send_west (m : OutMsg) (s : State) : (send m s).west = s.west := rfl
@[simp] theorem send_ops (m : OutMsg) (s : State) : (send m s).ops = s.ops := rfl
@[simp] theorem send_seq (m : OutMsg) (s : State) : (send m s).seq = s.seq := rfl
@[simp] theorem send_nowNs (m : OutMsg) (s : State) : (send m s).nowNs = s.nowNs := rfl
@[simp] theorem send_upNs (m : OutMsg) (s : State) : (send m s).upNs = s.upNs := rfl
@[simp] theorem send_dev (m : OutMsg) (s : State) : (send m s).dev = s.dev := rfl
@[simp] theorem send_sideband (m : OutMsg) (s : State) : (send m s).sideband = s.sideband := rfl
@[simp] theorem send_cxlOffset (m : OutMsg) (s : State) : (send m s).cxlOffset = s.cxlOffset := rfl
@[simp] theorem send_snapTarget (m : OutMsg) (s : State) : (send m s).snapTarget = s.snapTarget := rfl
@[simp] theorem send_ctrgWait (m : OutMsg) (s : State) : (send m s).ctrgWait = s.ctrgWait := rfl
@[simp] theorem send_slots (m : OutMsg) (s : State) : (send m s).slots = s.slots := rfl
@[simp] theorem send_rots (m : OutMsg) (s : State) : (send m s).rots = s.rots := rfl
@[simp] theorem send_metaKey (m : OutMsg) (s : State) : (send m s).metaKey = s.metaKey := rfl
@[simp] theorem send_msx (m : OutMsg) (s : State) : (send m s).msx = s.msx := rfl
@[simp] theorem send_therm (m : OutMsg) (s : State) : (send m s).therm = s.therm := rfl
@[simp] theorem send_psg (m : OutMsg) (s : State) : (send m s).psg = s.psg := rfl
@[simp] theorem send_todo (m : OutMsg) (s : State) : (send m s).todo = s.todo := rfl
@[simp] theorem send_serves (m : OutMsg) (s : State) : (send m s).serves = s.serves := rfl
@[simp] theorem send_tables (m : OutMsg) (s : State) : (send m s).tables = s.tables := rfl
@[simp] theorem send_spdm (m : OutMsg) (s : State) : (send m s).spdm = s.spdm := rfl
@[simp] theorem send_tap (m : OutMsg) (s : State) : (send m s).tap = s.tap := rfl
@[simp] theorem send_pins (m : OutMsg) (s : State) : (send m s).pins = s.pins := rfl
@[simp] theorem send_fw (m : OutMsg) (s : State) : (send m s).fw = s.fw := rfl
@[simp] theorem send_sani (m : OutMsg) (s : State) : (send m s).sani = s.sani := rfl
@[simp] theorem send_sbXfer (m : OutMsg) (s : State) : (send m s).sbXfer = s.sbXfer := rfl
@[simp] theorem send_injected (m : OutMsg) (s : State) : (send m s).injected = s.injected := rfl
@[simp] theorem send_freeCtr (m : OutMsg) (s : State) : (send m s).freeCtr = s.freeCtr := rfl
@[simp] theorem send_pending (m : OutMsg) (s : State) : (send m s).pending = s.pending := rfl

/-! ### takeFree -/

@[simp] theorem takeFree_bound (s : State) : (takeFree s |>.2).bound = s.bound := rfl
@[simp] theorem takeFree_regs (s : State) : (takeFree s |>.2).regs = s.regs := rfl
@[simp] theorem takeFree_east (s : State) : (takeFree s |>.2).east = s.east := rfl
@[simp] theorem takeFree_west (s : State) : (takeFree s |>.2).west = s.west := rfl
@[simp] theorem takeFree_ops (s : State) : (takeFree s |>.2).ops = s.ops := rfl
@[simp] theorem takeFree_seq (s : State) : (takeFree s |>.2).seq = s.seq := rfl
@[simp] theorem takeFree_nowNs (s : State) : (takeFree s |>.2).nowNs = s.nowNs := rfl
@[simp] theorem takeFree_upNs (s : State) : (takeFree s |>.2).upNs = s.upNs := rfl
@[simp] theorem takeFree_dev (s : State) : (takeFree s |>.2).dev = s.dev := rfl
@[simp] theorem takeFree_sideband (s : State) : (takeFree s |>.2).sideband = s.sideband := rfl
@[simp] theorem takeFree_cxlOffset (s : State) : (takeFree s |>.2).cxlOffset = s.cxlOffset := rfl
@[simp] theorem takeFree_snapTarget (s : State) : (takeFree s |>.2).snapTarget = s.snapTarget := rfl
@[simp] theorem takeFree_ctrgWait (s : State) : (takeFree s |>.2).ctrgWait = s.ctrgWait := rfl
@[simp] theorem takeFree_slots (s : State) : (takeFree s |>.2).slots = s.slots := rfl
@[simp] theorem takeFree_rots (s : State) : (takeFree s |>.2).rots = s.rots := rfl
@[simp] theorem takeFree_metaKey (s : State) : (takeFree s |>.2).metaKey = s.metaKey := rfl
@[simp] theorem takeFree_msx (s : State) : (takeFree s |>.2).msx = s.msx := rfl
@[simp] theorem takeFree_therm (s : State) : (takeFree s |>.2).therm = s.therm := rfl
@[simp] theorem takeFree_psg (s : State) : (takeFree s |>.2).psg = s.psg := rfl
@[simp] theorem takeFree_todo (s : State) : (takeFree s |>.2).todo = s.todo := rfl
@[simp] theorem takeFree_serves (s : State) : (takeFree s |>.2).serves = s.serves := rfl
@[simp] theorem takeFree_tables (s : State) : (takeFree s |>.2).tables = s.tables := rfl
@[simp] theorem takeFree_spdm (s : State) : (takeFree s |>.2).spdm = s.spdm := rfl
@[simp] theorem takeFree_tap (s : State) : (takeFree s |>.2).tap = s.tap := rfl
@[simp] theorem takeFree_pins (s : State) : (takeFree s |>.2).pins = s.pins := rfl
@[simp] theorem takeFree_fw (s : State) : (takeFree s |>.2).fw = s.fw := rfl
@[simp] theorem takeFree_sani (s : State) : (takeFree s |>.2).sani = s.sani := rfl
@[simp] theorem takeFree_sbXfer (s : State) : (takeFree s |>.2).sbXfer = s.sbXfer := rfl
@[simp] theorem takeFree_injected (s : State) : (takeFree s |>.2).injected = s.injected := rfl
@[simp] theorem takeFree_out (s : State) : (takeFree s |>.2).out = s.out := rfl
@[simp] theorem takeFree_pending (s : State) : (takeFree s |>.2).pending = s.pending := rfl

/-! ### onDie -/

@[simp] theorem onDie_bound (d : Die) (f : DieSt → DieSt) (s : State) : (onDie d f s).bound = s.bound := by cases d <;> rfl
@[simp] theorem onDie_regs (d : Die) (f : DieSt → DieSt) (s : State) : (onDie d f s).regs = s.regs := by cases d <;> rfl
@[simp] theorem onDie_ops (d : Die) (f : DieSt → DieSt) (s : State) : (onDie d f s).ops = s.ops := by cases d <;> rfl
@[simp] theorem onDie_seq (d : Die) (f : DieSt → DieSt) (s : State) : (onDie d f s).seq = s.seq := by cases d <;> rfl
@[simp] theorem onDie_nowNs (d : Die) (f : DieSt → DieSt) (s : State) : (onDie d f s).nowNs = s.nowNs := by cases d <;> rfl
@[simp] theorem onDie_upNs (d : Die) (f : DieSt → DieSt) (s : State) : (onDie d f s).upNs = s.upNs := by cases d <;> rfl
@[simp] theorem onDie_dev (d : Die) (f : DieSt → DieSt) (s : State) : (onDie d f s).dev = s.dev := by cases d <;> rfl
@[simp] theorem onDie_sideband (d : Die) (f : DieSt → DieSt) (s : State) : (onDie d f s).sideband = s.sideband := by cases d <;> rfl
@[simp] theorem onDie_cxlOffset (d : Die) (f : DieSt → DieSt) (s : State) : (onDie d f s).cxlOffset = s.cxlOffset := by cases d <;> rfl
@[simp] theorem onDie_snapTarget (d : Die) (f : DieSt → DieSt) (s : State) : (onDie d f s).snapTarget = s.snapTarget := by cases d <;> rfl
@[simp] theorem onDie_ctrgWait (d : Die) (f : DieSt → DieSt) (s : State) : (onDie d f s).ctrgWait = s.ctrgWait := by cases d <;> rfl
@[simp] theorem onDie_slots (d : Die) (f : DieSt → DieSt) (s : State) : (onDie d f s).slots = s.slots := by cases d <;> rfl
@[simp] theorem onDie_rots (d : Die) (f : DieSt → DieSt) (s : State) : (onDie d f s).rots = s.rots := by cases d <;> rfl
@[simp] theorem onDie_metaKey (d : Die) (f : DieSt → DieSt) (s : State) : (onDie d f s).metaKey = s.metaKey := by cases d <;> rfl
@[simp] theorem onDie_msx (d : Die) (f : DieSt → DieSt) (s : State) : (onDie d f s).msx = s.msx := by cases d <;> rfl
@[simp] theorem onDie_therm (d : Die) (f : DieSt → DieSt) (s : State) : (onDie d f s).therm = s.therm := by cases d <;> rfl
@[simp] theorem onDie_psg (d : Die) (f : DieSt → DieSt) (s : State) : (onDie d f s).psg = s.psg := by cases d <;> rfl
@[simp] theorem onDie_todo (d : Die) (f : DieSt → DieSt) (s : State) : (onDie d f s).todo = s.todo := by cases d <;> rfl
@[simp] theorem onDie_serves (d : Die) (f : DieSt → DieSt) (s : State) : (onDie d f s).serves = s.serves := by cases d <;> rfl
@[simp] theorem onDie_tables (d : Die) (f : DieSt → DieSt) (s : State) : (onDie d f s).tables = s.tables := by cases d <;> rfl
@[simp] theorem onDie_spdm (d : Die) (f : DieSt → DieSt) (s : State) : (onDie d f s).spdm = s.spdm := by cases d <;> rfl
@[simp] theorem onDie_tap (d : Die) (f : DieSt → DieSt) (s : State) : (onDie d f s).tap = s.tap := by cases d <;> rfl
@[simp] theorem onDie_pins (d : Die) (f : DieSt → DieSt) (s : State) : (onDie d f s).pins = s.pins := by cases d <;> rfl
@[simp] theorem onDie_fw (d : Die) (f : DieSt → DieSt) (s : State) : (onDie d f s).fw = s.fw := by cases d <;> rfl
@[simp] theorem onDie_sani (d : Die) (f : DieSt → DieSt) (s : State) : (onDie d f s).sani = s.sani := by cases d <;> rfl
@[simp] theorem onDie_sbXfer (d : Die) (f : DieSt → DieSt) (s : State) : (onDie d f s).sbXfer = s.sbXfer := by cases d <;> rfl
@[simp] theorem onDie_injected (d : Die) (f : DieSt → DieSt) (s : State) : (onDie d f s).injected = s.injected := by cases d <;> rfl
@[simp] theorem onDie_out (d : Die) (f : DieSt → DieSt) (s : State) : (onDie d f s).out = s.out := by cases d <;> rfl
@[simp] theorem onDie_freeCtr (d : Die) (f : DieSt → DieSt) (s : State) : (onDie d f s).freeCtr = s.freeCtr := by cases d <;> rfl
@[simp] theorem onDie_pending (d : Die) (f : DieSt → DieSt) (s : State) : (onDie d f s).pending = s.pending := by cases d <;> rfl

/-! ### onSub -/

@[simp] theorem onSub_bound (d : Die) (i : Nat) (f : SubSt → SubSt) (s : State) : (onSub d i f s).bound = s.bound := by cases d <;> rfl
@[simp] theorem onSub_regs (d : Die) (i : Nat) (f : SubSt → SubSt) (s : State) : (onSub d i f s).regs = s.regs := by cases d <;> rfl
@[simp] theorem onSub_ops (d : Die) (i : Nat) (f : SubSt → SubSt) (s : State) : (onSub d i f s).ops = s.ops := by cases d <;> rfl
@[simp] theorem onSub_seq (d : Die) (i : Nat) (f : SubSt → SubSt) (s : State) : (onSub d i f s).seq = s.seq := by cases d <;> rfl
@[simp] theorem onSub_nowNs (d : Die) (i : Nat) (f : SubSt → SubSt) (s : State) : (onSub d i f s).nowNs = s.nowNs := by cases d <;> rfl
@[simp] theorem onSub_upNs (d : Die) (i : Nat) (f : SubSt → SubSt) (s : State) : (onSub d i f s).upNs = s.upNs := by cases d <;> rfl
@[simp] theorem onSub_dev (d : Die) (i : Nat) (f : SubSt → SubSt) (s : State) : (onSub d i f s).dev = s.dev := by cases d <;> rfl
@[simp] theorem onSub_sideband (d : Die) (i : Nat) (f : SubSt → SubSt) (s : State) : (onSub d i f s).sideband = s.sideband := by cases d <;> rfl
@[simp] theorem onSub_cxlOffset (d : Die) (i : Nat) (f : SubSt → SubSt) (s : State) : (onSub d i f s).cxlOffset = s.cxlOffset := by cases d <;> rfl
@[simp] theorem onSub_snapTarget (d : Die) (i : Nat) (f : SubSt → SubSt) (s : State) : (onSub d i f s).snapTarget = s.snapTarget := by cases d <;> rfl
@[simp] theorem onSub_ctrgWait (d : Die) (i : Nat) (f : SubSt → SubSt) (s : State) : (onSub d i f s).ctrgWait = s.ctrgWait := by cases d <;> rfl
@[simp] theorem onSub_slots (d : Die) (i : Nat) (f : SubSt → SubSt) (s : State) : (onSub d i f s).slots = s.slots := by cases d <;> rfl
@[simp] theorem onSub_rots (d : Die) (i : Nat) (f : SubSt → SubSt) (s : State) : (onSub d i f s).rots = s.rots := by cases d <;> rfl
@[simp] theorem onSub_metaKey (d : Die) (i : Nat) (f : SubSt → SubSt) (s : State) : (onSub d i f s).metaKey = s.metaKey := by cases d <;> rfl
@[simp] theorem onSub_msx (d : Die) (i : Nat) (f : SubSt → SubSt) (s : State) : (onSub d i f s).msx = s.msx := by cases d <;> rfl
@[simp] theorem onSub_therm (d : Die) (i : Nat) (f : SubSt → SubSt) (s : State) : (onSub d i f s).therm = s.therm := by cases d <;> rfl
@[simp] theorem onSub_psg (d : Die) (i : Nat) (f : SubSt → SubSt) (s : State) : (onSub d i f s).psg = s.psg := by cases d <;> rfl
@[simp] theorem onSub_todo (d : Die) (i : Nat) (f : SubSt → SubSt) (s : State) : (onSub d i f s).todo = s.todo := by cases d <;> rfl
@[simp] theorem onSub_serves (d : Die) (i : Nat) (f : SubSt → SubSt) (s : State) : (onSub d i f s).serves = s.serves := by cases d <;> rfl
@[simp] theorem onSub_tables (d : Die) (i : Nat) (f : SubSt → SubSt) (s : State) : (onSub d i f s).tables = s.tables := by cases d <;> rfl
@[simp] theorem onSub_spdm (d : Die) (i : Nat) (f : SubSt → SubSt) (s : State) : (onSub d i f s).spdm = s.spdm := by cases d <;> rfl
@[simp] theorem onSub_tap (d : Die) (i : Nat) (f : SubSt → SubSt) (s : State) : (onSub d i f s).tap = s.tap := by cases d <;> rfl
@[simp] theorem onSub_pins (d : Die) (i : Nat) (f : SubSt → SubSt) (s : State) : (onSub d i f s).pins = s.pins := by cases d <;> rfl
@[simp] theorem onSub_fw (d : Die) (i : Nat) (f : SubSt → SubSt) (s : State) : (onSub d i f s).fw = s.fw := by cases d <;> rfl
@[simp] theorem onSub_sani (d : Die) (i : Nat) (f : SubSt → SubSt) (s : State) : (onSub d i f s).sani = s.sani := by cases d <;> rfl
@[simp] theorem onSub_sbXfer (d : Die) (i : Nat) (f : SubSt → SubSt) (s : State) : (onSub d i f s).sbXfer = s.sbXfer := by cases d <;> rfl
@[simp] theorem onSub_injected (d : Die) (i : Nat) (f : SubSt → SubSt) (s : State) : (onSub d i f s).injected = s.injected := by cases d <;> rfl
@[simp] theorem onSub_out (d : Die) (i : Nat) (f : SubSt → SubSt) (s : State) : (onSub d i f s).out = s.out := by cases d <;> rfl
@[simp] theorem onSub_freeCtr (d : Die) (i : Nat) (f : SubSt → SubSt) (s : State) : (onSub d i f s).freeCtr = s.freeCtr := by cases d <;> rfl
@[simp] theorem onSub_pending (d : Die) (i : Nat) (f : SubSt → SubSt) (s : State) : (onSub d i f s).pending = s.pending := by cases d <;> rfl

/-! ### onChan -/

@[simp] theorem onChan_bound (d : Die) (i : Nat) (f : ChanSt → ChanSt) (s : State) : (onChan d i f s).bound = s.bound := by cases d <;> rfl
@[simp] theorem onChan_regs (d : Die) (i : Nat) (f : ChanSt → ChanSt) (s : State) : (onChan d i f s).regs = s.regs := by cases d <;> rfl
@[simp] theorem onChan_ops (d : Die) (i : Nat) (f : ChanSt → ChanSt) (s : State) : (onChan d i f s).ops = s.ops := by cases d <;> rfl
@[simp] theorem onChan_seq (d : Die) (i : Nat) (f : ChanSt → ChanSt) (s : State) : (onChan d i f s).seq = s.seq := by cases d <;> rfl
@[simp] theorem onChan_nowNs (d : Die) (i : Nat) (f : ChanSt → ChanSt) (s : State) : (onChan d i f s).nowNs = s.nowNs := by cases d <;> rfl
@[simp] theorem onChan_upNs (d : Die) (i : Nat) (f : ChanSt → ChanSt) (s : State) : (onChan d i f s).upNs = s.upNs := by cases d <;> rfl
@[simp] theorem onChan_dev (d : Die) (i : Nat) (f : ChanSt → ChanSt) (s : State) : (onChan d i f s).dev = s.dev := by cases d <;> rfl
@[simp] theorem onChan_sideband (d : Die) (i : Nat) (f : ChanSt → ChanSt) (s : State) : (onChan d i f s).sideband = s.sideband := by cases d <;> rfl
@[simp] theorem onChan_cxlOffset (d : Die) (i : Nat) (f : ChanSt → ChanSt) (s : State) : (onChan d i f s).cxlOffset = s.cxlOffset := by cases d <;> rfl
@[simp] theorem onChan_snapTarget (d : Die) (i : Nat) (f : ChanSt → ChanSt) (s : State) : (onChan d i f s).snapTarget = s.snapTarget := by cases d <;> rfl
@[simp] theorem onChan_ctrgWait (d : Die) (i : Nat) (f : ChanSt → ChanSt) (s : State) : (onChan d i f s).ctrgWait = s.ctrgWait := by cases d <;> rfl
@[simp] theorem onChan_slots (d : Die) (i : Nat) (f : ChanSt → ChanSt) (s : State) : (onChan d i f s).slots = s.slots := by cases d <;> rfl
@[simp] theorem onChan_rots (d : Die) (i : Nat) (f : ChanSt → ChanSt) (s : State) : (onChan d i f s).rots = s.rots := by cases d <;> rfl
@[simp] theorem onChan_metaKey (d : Die) (i : Nat) (f : ChanSt → ChanSt) (s : State) : (onChan d i f s).metaKey = s.metaKey := by cases d <;> rfl
@[simp] theorem onChan_msx (d : Die) (i : Nat) (f : ChanSt → ChanSt) (s : State) : (onChan d i f s).msx = s.msx := by cases d <;> rfl
@[simp] theorem onChan_therm (d : Die) (i : Nat) (f : ChanSt → ChanSt) (s : State) : (onChan d i f s).therm = s.therm := by cases d <;> rfl
@[simp] theorem onChan_psg (d : Die) (i : Nat) (f : ChanSt → ChanSt) (s : State) : (onChan d i f s).psg = s.psg := by cases d <;> rfl
@[simp] theorem onChan_todo (d : Die) (i : Nat) (f : ChanSt → ChanSt) (s : State) : (onChan d i f s).todo = s.todo := by cases d <;> rfl
@[simp] theorem onChan_serves (d : Die) (i : Nat) (f : ChanSt → ChanSt) (s : State) : (onChan d i f s).serves = s.serves := by cases d <;> rfl
@[simp] theorem onChan_tables (d : Die) (i : Nat) (f : ChanSt → ChanSt) (s : State) : (onChan d i f s).tables = s.tables := by cases d <;> rfl
@[simp] theorem onChan_spdm (d : Die) (i : Nat) (f : ChanSt → ChanSt) (s : State) : (onChan d i f s).spdm = s.spdm := by cases d <;> rfl
@[simp] theorem onChan_tap (d : Die) (i : Nat) (f : ChanSt → ChanSt) (s : State) : (onChan d i f s).tap = s.tap := by cases d <;> rfl
@[simp] theorem onChan_pins (d : Die) (i : Nat) (f : ChanSt → ChanSt) (s : State) : (onChan d i f s).pins = s.pins := by cases d <;> rfl
@[simp] theorem onChan_fw (d : Die) (i : Nat) (f : ChanSt → ChanSt) (s : State) : (onChan d i f s).fw = s.fw := by cases d <;> rfl
@[simp] theorem onChan_sani (d : Die) (i : Nat) (f : ChanSt → ChanSt) (s : State) : (onChan d i f s).sani = s.sani := by cases d <;> rfl
@[simp] theorem onChan_sbXfer (d : Die) (i : Nat) (f : ChanSt → ChanSt) (s : State) : (onChan d i f s).sbXfer = s.sbXfer := by cases d <;> rfl
@[simp] theorem onChan_injected (d : Die) (i : Nat) (f : ChanSt → ChanSt) (s : State) : (onChan d i f s).injected = s.injected := by cases d <;> rfl
@[simp] theorem onChan_out (d : Die) (i : Nat) (f : ChanSt → ChanSt) (s : State) : (onChan d i f s).out = s.out := by cases d <;> rfl
@[simp] theorem onChan_freeCtr (d : Die) (i : Nat) (f : ChanSt → ChanSt) (s : State) : (onChan d i f s).freeCtr = s.freeCtr := by cases d <;> rfl
@[simp] theorem onChan_pending (d : Die) (i : Nat) (f : ChanSt → ChanSt) (s : State) : (onChan d i f s).pending = s.pending := by cases d <;> rfl

/-! ### Dies -/

@[simp] theorem die_wrReg (r : RegName) (d : Die) (i v : Nat) (s : State) (e : Die) : die (wrReg r d i v s) e = die s e := by cases e <;> rfl
@[simp] theorem die_wf (f : Fld) (d : Die) (i v : Nat) (s : State) (e : Die) : die (wf f d i v s) e = die s e := by cases e <;> rfl
@[simp] theorem die_wfc (f : Fld) (v i : Nat) (s : State) (e : Die) : die (wfc f v i s) e = die s e := by cases e <;> rfl
@[simp] theorem die_setFlag (f : Fld) (d : Die) (i : Nat) (s : State) (e : Die) : die (setFlag f d i s) e = die s e := by cases e <;> rfl
@[simp] theorem die_cntF (f : Fld) (d : Die) (i n : Nat) (s : State) (e : Die) : die (cntF f d i n s) e = die s e := by cases e <;> rfl
@[simp] theorem die_send (m : OutMsg) (s : State) (e : Die) : die (send m s) e = die s e := by cases e <;> rfl
@[simp] theorem die_takeFree (s : State) (e : Die) : die (takeFree s |>.2) e = die s e := by cases e <;> rfl
@[simp] theorem die_onDie_self (d : Die) (f : DieSt → DieSt) (s : State) : die (onDie d f s) d = f (die s d) := by cases d <;> rfl
theorem die_onDie_ne (d e : Die) (f : DieSt → DieSt) (s : State) (h : e ≠ d) : die (onDie d f s) e = die s e := by
  cases d <;> cases e <;> first | rfl | exact absurd rfl h

/-! ### Parts of a die that a change of a subchannel or of a channel leaves -/

@[simp] theorem onSub_die_chans (d : Die) (i : Nat) (f : SubSt → SubSt) (s : State) (e : Die) : (die (onSub d i f s) e).chans = (die s e).chans := by cases d <;> cases e <;> rfl
@[simp] theorem onSub_die_sru (d : Die) (i : Nat) (f : SubSt → SubSt) (s : State) (e : Die) : (die (onSub d i f s) e).sru = (die s e).sru := by cases d <;> cases e <;> rfl
@[simp] theorem onSub_die_cpr (d : Die) (i : Nat) (f : SubSt → SubSt) (s : State) (e : Die) : (die (onSub d i f s) e).cpr = (die s e).cpr := by cases d <;> cases e <;> rfl
@[simp] theorem onSub_die_frz (d : Die) (i : Nat) (f : SubSt → SubSt) (s : State) (e : Die) : (die (onSub d i f s) e).frz = (die s e).frz := by cases d <;> cases e <;> rfl
@[simp] theorem onSub_die_frzSeq (d : Die) (i : Nat) (f : SubSt → SubSt) (s : State) (e : Die) : (die (onSub d i f s) e).frzSeq = (die s e).frzSeq := by cases d <;> cases e <;> rfl
@[simp] theorem onSub_die_counts (d : Die) (i : Nat) (f : SubSt → SubSt) (s : State) (e : Die) : (die (onSub d i f s) e).counts = (die s e).counts := by cases d <;> cases e <;> rfl
@[simp] theorem onSub_die_posts (d : Die) (i : Nat) (f : SubSt → SubSt) (s : State) (e : Die) : (die (onSub d i f s) e).posts = (die s e).posts := by cases d <;> cases e <;> rfl
@[simp] theorem onSub_die_hpc (d : Die) (i : Nat) (f : SubSt → SubSt) (s : State) (e : Die) : (die (onSub d i f s) e).hpc = (die s e).hpc := by cases d <;> cases e <;> rfl
@[simp] theorem onSub_die_cyc (d : Die) (i : Nat) (f : SubSt → SubSt) (s : State) (e : Die) : (die (onSub d i f s) e).cyc = (die s e).cyc := by cases d <;> cases e <;> rfl
@[simp] theorem onSub_die_lmeta (d : Die) (i : Nat) (f : SubSt → SubSt) (s : State) (e : Die) : (die (onSub d i f s) e).lmeta = (die s e).lmeta := by cases d <;> cases e <;> rfl
@[simp] theorem onSub_die_badNodes (d : Die) (i : Nat) (f : SubSt → SubSt) (s : State) (e : Die) : (die (onSub d i f s) e).badNodes = (die s e).badNodes := by cases d <;> cases e <;> rfl
@[simp] theorem onSub_die_nodes (d : Die) (i : Nat) (f : SubSt → SubSt) (s : State) (e : Die) : (die (onSub d i f s) e).nodes = (die s e).nodes := by cases d <;> cases e <;> rfl
@[simp] theorem onSub_die_ctrs (d : Die) (i : Nat) (f : SubSt → SubSt) (s : State) (e : Die) : (die (onSub d i f s) e).ctrs = (die s e).ctrs := by cases d <;> cases e <;> rfl
@[simp] theorem onSub_die_macUnits (d : Die) (i : Nat) (f : SubSt → SubSt) (s : State) (e : Die) : (die (onSub d i f s) e).macUnits = (die s e).macUnits := by cases d <;> cases e <;> rfl
@[simp] theorem onSub_die_treeUnits (d : Die) (i : Nat) (f : SubSt → SubSt) (s : State) (e : Die) : (die (onSub d i f s) e).treeUnits = (die s e).treeUnits := by cases d <;> cases e <;> rfl
@[simp] theorem onSub_die_drbg (d : Die) (i : Nat) (f : SubSt → SubSt) (s : State) (e : Die) : (die (onSub d i f s) e).drbg = (die s e).drbg := by cases d <;> cases e <;> rfl
@[simp] theorem onSub_die_drbgUsed (d : Die) (i : Nat) (f : SubSt → SubSt) (s : State) (e : Die) : (die (onSub d i f s) e).drbgUsed = (die s e).drbgUsed := by cases d <;> cases e <;> rfl
@[simp] theorem onSub_die_drbgSeeds (d : Die) (i : Nat) (f : SubSt → SubSt) (s : State) (e : Die) : (die (onSub d i f s) e).drbgSeeds = (die s e).drbgSeeds := by cases d <;> cases e <;> rfl
@[simp] theorem onSub_die_drbgStopped (d : Die) (i : Nat) (f : SubSt → SubSt) (s : State) (e : Die) : (die (onSub d i f s) e).drbgStopped = (die s e).drbgStopped := by cases d <;> cases e <;> rfl
@[simp] theorem onSub_die_pmc (d : Die) (i : Nat) (f : SubSt → SubSt) (s : State) (e : Die) : (die (onSub d i f s) e).pmc = (die s e).pmc := by cases d <;> cases e <;> rfl
@[simp] theorem onSub_die_cks (d : Die) (i : Nat) (f : SubSt → SubSt) (s : State) (e : Die) : (die (onSub d i f s) e).cks = (die s e).cks := by cases d <;> cases e <;> rfl
@[simp] theorem onSub_die_refLost (d : Die) (i : Nat) (f : SubSt → SubSt) (s : State) (e : Die) : (die (onSub d i f s) e).refLost = (die s e).refLost := by cases d <;> cases e <;> rfl
@[simp] theorem onSub_die_cdr (d : Die) (i : Nat) (f : SubSt → SubSt) (s : State) (e : Die) : (die (onSub d i f s) e).cdr = (die s e).cdr := by cases d <;> cases e <;> rfl
@[simp] theorem onSub_die_tme (d : Die) (i : Nat) (f : SubSt → SubSt) (s : State) (e : Die) : (die (onSub d i f s) e).tme = (die s e).tme := by cases d <;> cases e <;> rfl
@[simp] theorem onSub_die_fpc (d : Die) (i : Nat) (f : SubSt → SubSt) (s : State) (e : Die) : (die (onSub d i f s) e).fpc = (die s e).fpc := by cases d <;> cases e <;> rfl
@[simp] theorem onSub_die_pools (d : Die) (i : Nat) (f : SubSt → SubSt) (s : State) (e : Die) : (die (onSub d i f s) e).pools = (die s e).pools := by cases d <;> cases e <;> rfl
@[simp] theorem onSub_die_queues (d : Die) (i : Nat) (f : SubSt → SubSt) (s : State) (e : Die) : (die (onSub d i f s) e).queues = (die s e).queues := by cases d <;> cases e <;> rfl
@[simp] theorem onSub_die_work (d : Die) (i : Nat) (f : SubSt → SubSt) (s : State) (e : Die) : (die (onSub d i f s) e).work = (die s e).work := by cases d <;> cases e <;> rfl
@[simp] theorem onSub_die_psgHeld (d : Die) (i : Nat) (f : SubSt → SubSt) (s : State) (e : Die) : (die (onSub d i f s) e).psgHeld = (die s e).psgHeld := by cases d <;> cases e <;> rfl
@[simp] theorem onChan_die_subs (d : Die) (i : Nat) (f : ChanSt → ChanSt) (s : State) (e : Die) : (die (onChan d i f s) e).subs = (die s e).subs := by cases d <;> cases e <;> rfl
@[simp] theorem onChan_die_sru (d : Die) (i : Nat) (f : ChanSt → ChanSt) (s : State) (e : Die) : (die (onChan d i f s) e).sru = (die s e).sru := by cases d <;> cases e <;> rfl
@[simp] theorem onChan_die_cpr (d : Die) (i : Nat) (f : ChanSt → ChanSt) (s : State) (e : Die) : (die (onChan d i f s) e).cpr = (die s e).cpr := by cases d <;> cases e <;> rfl
@[simp] theorem onChan_die_frz (d : Die) (i : Nat) (f : ChanSt → ChanSt) (s : State) (e : Die) : (die (onChan d i f s) e).frz = (die s e).frz := by cases d <;> cases e <;> rfl
@[simp] theorem onChan_die_frzSeq (d : Die) (i : Nat) (f : ChanSt → ChanSt) (s : State) (e : Die) : (die (onChan d i f s) e).frzSeq = (die s e).frzSeq := by cases d <;> cases e <;> rfl
@[simp] theorem onChan_die_counts (d : Die) (i : Nat) (f : ChanSt → ChanSt) (s : State) (e : Die) : (die (onChan d i f s) e).counts = (die s e).counts := by cases d <;> cases e <;> rfl
@[simp] theorem onChan_die_posts (d : Die) (i : Nat) (f : ChanSt → ChanSt) (s : State) (e : Die) : (die (onChan d i f s) e).posts = (die s e).posts := by cases d <;> cases e <;> rfl
@[simp] theorem onChan_die_hpc (d : Die) (i : Nat) (f : ChanSt → ChanSt) (s : State) (e : Die) : (die (onChan d i f s) e).hpc = (die s e).hpc := by cases d <;> cases e <;> rfl
@[simp] theorem onChan_die_cyc (d : Die) (i : Nat) (f : ChanSt → ChanSt) (s : State) (e : Die) : (die (onChan d i f s) e).cyc = (die s e).cyc := by cases d <;> cases e <;> rfl
@[simp] theorem onChan_die_lmeta (d : Die) (i : Nat) (f : ChanSt → ChanSt) (s : State) (e : Die) : (die (onChan d i f s) e).lmeta = (die s e).lmeta := by cases d <;> cases e <;> rfl
@[simp] theorem onChan_die_badNodes (d : Die) (i : Nat) (f : ChanSt → ChanSt) (s : State) (e : Die) : (die (onChan d i f s) e).badNodes = (die s e).badNodes := by cases d <;> cases e <;> rfl
@[simp] theorem onChan_die_nodes (d : Die) (i : Nat) (f : ChanSt → ChanSt) (s : State) (e : Die) : (die (onChan d i f s) e).nodes = (die s e).nodes := by cases d <;> cases e <;> rfl
@[simp] theorem onChan_die_ctrs (d : Die) (i : Nat) (f : ChanSt → ChanSt) (s : State) (e : Die) : (die (onChan d i f s) e).ctrs = (die s e).ctrs := by cases d <;> cases e <;> rfl
@[simp] theorem onChan_die_macUnits (d : Die) (i : Nat) (f : ChanSt → ChanSt) (s : State) (e : Die) : (die (onChan d i f s) e).macUnits = (die s e).macUnits := by cases d <;> cases e <;> rfl
@[simp] theorem onChan_die_treeUnits (d : Die) (i : Nat) (f : ChanSt → ChanSt) (s : State) (e : Die) : (die (onChan d i f s) e).treeUnits = (die s e).treeUnits := by cases d <;> cases e <;> rfl
@[simp] theorem onChan_die_drbg (d : Die) (i : Nat) (f : ChanSt → ChanSt) (s : State) (e : Die) : (die (onChan d i f s) e).drbg = (die s e).drbg := by cases d <;> cases e <;> rfl
@[simp] theorem onChan_die_drbgUsed (d : Die) (i : Nat) (f : ChanSt → ChanSt) (s : State) (e : Die) : (die (onChan d i f s) e).drbgUsed = (die s e).drbgUsed := by cases d <;> cases e <;> rfl
@[simp] theorem onChan_die_drbgSeeds (d : Die) (i : Nat) (f : ChanSt → ChanSt) (s : State) (e : Die) : (die (onChan d i f s) e).drbgSeeds = (die s e).drbgSeeds := by cases d <;> cases e <;> rfl
@[simp] theorem onChan_die_drbgStopped (d : Die) (i : Nat) (f : ChanSt → ChanSt) (s : State) (e : Die) : (die (onChan d i f s) e).drbgStopped = (die s e).drbgStopped := by cases d <;> cases e <;> rfl
@[simp] theorem onChan_die_pmc (d : Die) (i : Nat) (f : ChanSt → ChanSt) (s : State) (e : Die) : (die (onChan d i f s) e).pmc = (die s e).pmc := by cases d <;> cases e <;> rfl
@[simp] theorem onChan_die_cks (d : Die) (i : Nat) (f : ChanSt → ChanSt) (s : State) (e : Die) : (die (onChan d i f s) e).cks = (die s e).cks := by cases d <;> cases e <;> rfl
@[simp] theorem onChan_die_refLost (d : Die) (i : Nat) (f : ChanSt → ChanSt) (s : State) (e : Die) : (die (onChan d i f s) e).refLost = (die s e).refLost := by cases d <;> cases e <;> rfl
@[simp] theorem onChan_die_cdr (d : Die) (i : Nat) (f : ChanSt → ChanSt) (s : State) (e : Die) : (die (onChan d i f s) e).cdr = (die s e).cdr := by cases d <;> cases e <;> rfl
@[simp] theorem onChan_die_tme (d : Die) (i : Nat) (f : ChanSt → ChanSt) (s : State) (e : Die) : (die (onChan d i f s) e).tme = (die s e).tme := by cases d <;> cases e <;> rfl
@[simp] theorem onChan_die_fpc (d : Die) (i : Nat) (f : ChanSt → ChanSt) (s : State) (e : Die) : (die (onChan d i f s) e).fpc = (die s e).fpc := by cases d <;> cases e <;> rfl
@[simp] theorem onChan_die_pools (d : Die) (i : Nat) (f : ChanSt → ChanSt) (s : State) (e : Die) : (die (onChan d i f s) e).pools = (die s e).pools := by cases d <;> cases e <;> rfl
@[simp] theorem onChan_die_queues (d : Die) (i : Nat) (f : ChanSt → ChanSt) (s : State) (e : Die) : (die (onChan d i f s) e).queues = (die s e).queues := by cases d <;> cases e <;> rfl
@[simp] theorem onChan_die_work (d : Die) (i : Nat) (f : ChanSt → ChanSt) (s : State) (e : Die) : (die (onChan d i f s) e).work = (die s e).work := by cases d <;> cases e <;> rfl
@[simp] theorem onChan_die_psgHeld (d : Die) (i : Nat) (f : ChanSt → ChanSt) (s : State) (e : Die) : (die (onChan d i f s) e).psgHeld = (die s e).psgHeld := by cases d <;> cases e <;> rfl

/-! ### What is read through a change -/

@[simp] theorem rdReg_send (m : OutMsg) (s : State) (r : RegName) (e : Die) (k : Nat) : rdReg (send m s) r e k = rdReg s r e k := by simp [rdReg]
@[simp] theorem rf_send (m : OutMsg) (s : State) (f' : Fld) (e : Die) (k : Nat) : rf (send m s) f' e k = rf s f' e k := by simp [rf]
@[simp] theorem rdReg_takeFree (s : State) (r : RegName) (e : Die) (k : Nat) : rdReg (takeFree s |>.2) r e k = rdReg s r e k := by simp [rdReg]
@[simp] theorem rf_takeFree (s : State) (f' : Fld) (e : Die) (k : Nat) : rf (takeFree s |>.2) f' e k = rf s f' e k := by simp [rf]
@[simp] theorem rdReg_onDie (d : Die) (f : DieSt → DieSt) (s : State) (r : RegName) (e : Die) (k : Nat) : rdReg (onDie d f s) r e k = rdReg s r e k := by simp [rdReg]
@[simp] theorem rf_onDie (d : Die) (f : DieSt → DieSt) (s : State) (f' : Fld) (e : Die) (k : Nat) : rf (onDie d f s) f' e k = rf s f' e k := by simp [rf]
@[simp] theorem rdReg_onSub (d : Die) (i : Nat) (f : SubSt → SubSt) (s : State) (r : RegName) (e : Die) (k : Nat) : rdReg (onSub d i f s) r e k = rdReg s r e k := by simp [rdReg]
@[simp] theorem rf_onSub (d : Die) (i : Nat) (f : SubSt → SubSt) (s : State) (f' : Fld) (e : Die) (k : Nat) : rf (onSub d i f s) f' e k = rf s f' e k := by simp [rf]
@[simp] theorem rdReg_onChan (d : Die) (i : Nat) (f : ChanSt → ChanSt) (s : State) (r : RegName) (e : Die) (k : Nat) : rdReg (onChan d i f s) r e k = rdReg s r e k := by simp [rdReg]
@[simp] theorem rf_onChan (d : Die) (i : Nat) (f : ChanSt → ChanSt) (s : State) (f' : Fld) (e : Die) (k : Nat) : rf (onChan d i f s) f' e k = rf s f' e k := by simp [rf]

end Sys2Proof.Machine
end

