-- ==== Sys2Proof/Laws/Frame.lean ====
section
/-!
SUPPORT. Sys2Proof/Laws/Frame.lean: what posting an event may change, once for every operation that posts: registers, messages, the
sideband buffer, a snapshot's target, and of a die its counts, posting limits, counters, CXL logs, pending interrupts and event
rings. `State.quiet` is the state without these, and no such operation changes it.
-/

namespace Sys2Proof.Machine

@[simp] theorem quiet_wrReg (r : RegName) (d : Die) (i v : Nat) (s : State) : (wrReg r d i v s).quiet = s.quiet := rfl
@[simp] theorem quiet_wf (f : Fld) (d : Die) (i v : Nat) (s : State) : (wf f d i v s).quiet = s.quiet := rfl
@[simp] theorem quiet_wfc (f : Fld) (v i : Nat) (s : State) : (wfc f v i s).quiet = s.quiet := rfl
@[simp] theorem quiet_setFlag (f : Fld) (d : Die) (i : Nat) (s : State) : (setFlag f d i s).quiet = s.quiet := rfl
@[simp] theorem quiet_cntF (f : Fld) (d : Die) (i n : Nat) (s : State) : (cntF f d i n s).quiet = s.quiet := rfl
@[simp] theorem quiet_send (m : OutMsg) (s : State) : (send m s).quiet = s.quiet := rfl

theorem quiet_onDie (d : Die) (f : DieSt → DieSt) (h : ∀ x, (f x).quiet = x.quiet) (s : State) : (onDie d f s).quiet = s.quiet := by
  cases d <;> simp [onDie, State.quiet, h]

theorem quiet_each {α : Type} (l : List α) (f : α → State → State) (h : ∀ x s, (f x s).quiet = s.quiet) (s : State) :
    (each l f s).quiet = s.quiet := by
  unfold each
  induction l generalizing s with
  | nil => rfl
  | cons x l ih => simp [ih, h]

theorem quiet_onlyIf (c : Bool) (f : State → State) (s : State) (h : (f s).quiet = s.quiet) : (onlyIf c f s).quiet = s.quiet := by
  cases c <;> simp [onlyIf, h]

@[simp] theorem quiet_addCount (d : Die) (b : RegBlock) (k n : Nat) (s : State) : (addCount d b k n s).quiet = s.quiet := by
  apply quiet_onDie; intro x; rfl

@[simp] theorem quiet_sendIrq (d : Die) (v : Nat) (s : State) : (sendIrq d v s).quiet = s.quiet := by
  unfold sendIrq
  split
  · apply quiet_onDie; intro x; rfl
  · simp

@[simp] theorem quiet_onEq (d : Die) (e : Nat) (f : CqSt → CqSt) (s : State) : (onEq d e f s).quiet = s.quiet := by
  apply quiet_onDie; intro x; rfl

@[simp] theorem quiet_eqMod (d : Die) (e : Nat) (s : State) : (eqMod d e s).quiet = s.quiet := by
  unfold eqMod
  dsimp only
  split <;> simp

@[simp] theorem quiet_eqPut (d : Die) (e : Nat) (r : EventRec) (s : State) : (eqPut d e r s).quiet = s.quiet := by
  unfold eqPut
  dsimp only
  rw [quiet_eqMod, quiet_onlyIf _ _ _ (by simp)]
  simp

@[simp] theorem quiet_eqOffer (d : Die) (e : Nat) (r : EventRec) (s : State) : (eqOffer d e r s).quiet = s.quiet := by
  unfold eqOffer
  split
  · split
    · rw [quiet_addCount, quiet_cntF, quiet_onlyIf _ _ _ (by simp)]
    · simp
  · rfl

@[simp] theorem quiet_logPut (p : Die) (k : Nat) (r : EventRec) (dla : Option Nat) (s : State) : (logPut p k r dla s).quiet = s.quiet := by
  unfold logPut
  dsimp only
  have h : ∀ l : LogSt, (onDie p (fun x => { x with hpc := { x.hpc with logs := nset x.hpc.logs k l } }) s).quiet = s.quiet :=
    fun l => by apply quiet_onDie; intro x; rfl
  split
  · split
    · rw [quiet_sendIrq, h]
    · rw [h]
  · rw [h]

@[simp] theorem quiet_requestSnap (s : State) : (requestSnap s).quiet = s.quiet := by
  unfold requestSnap
  split <;> rfl

@[simp] theorem quiet_deliver (d : Die) (r : EventRec) (dla bind : Option Nat) (s : State) : (deliver d r dla bind s).quiet = s.quiet := by
  unfold deliver
  dsimp only
  rw [quiet_onlyIf _ _ _ (by simp)]
  have h1 : (each (recordDies s d) (fun o => each (List.range 4) (fun e => eqOffer o e r)) s).quiet = s.quiet :=
    quiet_each _ _ (fun o t => quiet_each _ _ (fun e u => quiet_eqOffer o e r u) t) s
  split
  · exact h1
  · rename_i k _
    have h2 := quiet_each ((logPorts (each (recordDies s d) (fun o => each (List.range 4) (fun e => eqOffer o e r)) s) bind).filter (recordDies s d).contains)
      (fun p => logPut p k r dla) (fun p u => quiet_logPut p k r dla u) (each (recordDies s d) (fun o => each (List.range 4) (fun e => eqOffer o e r)) s)
    exact h2.trans h1

@[simp] theorem quiet_setPost (d : Die) (key : Nat) (p : PostLim) (s : State) : (setPost d key p s).quiet = s.quiet := by
  apply quiet_onDie; intro x; rfl

@[simp] theorem quiet_holdPost (d : Die) (key : Nat) (p : PostLim) (e : Ev) (acc : List Nat) (s : State) :
    (holdPost d key p e acc s).quiet = s.quiet := quiet_setPost d key _ s

@[simp] theorem quiet_deliverEv (d : Die) (e : Ev) (s : State) : (deliverEv d e s).quiet = s.quiet := quiet_deliver d _ _ _ s

@[simp] theorem quiet_ctrBump (d : Die) (n k : Nat) (s : State) : (ctrBump d n k s).2.quiet = s.quiet := by
  unfold ctrBump
  dsimp only
  have h : ∀ f : NMap Nat → NMap Nat, (onPmc d (fun p => { p with cnt := f p.cnt }) s).quiet = s.quiet :=
    fun f => by apply quiet_onDie; intro x; rfl
  split
  · exact h (fun c => nset c n _)
  · rw [quiet_wf]
    exact h (fun c => nset c n _)

@[simp] theorem quiet_ctrAdd (d : Die) (n k : Nat) (s : State) : (ctrAdd d n k s).2.quiet = s.quiet := by
  unfold ctrAdd
  dsimp only
  split
  · split <;> simp
  · simp

theorem quiet_foldAdd (d : Die) (k : Nat) (l : List (Nat × Nat)) (a : List Nat × State) :
    (l.foldl (fun (a : List Nat × State) p => let (w, t) := ctrAdd d p.1 k a.2; (a.1 ++ w, t)) a).2.quiet = a.2.quiet := by
  induction l generalizing a with
  | nil => rfl
  | cons p l ih => simp [ih]

@[simp] theorem quiet_ctrTally (d : Die) (sel lch : Nat) (sb : Option Nat) (k : Nat) (s : State) :
    (ctrTally d sel lch sb k s).2.quiet = s.quiet := by
  unfold ctrTally
  split
  · exact quiet_foldAdd d k _ _
  · rfl

@[simp] theorem quiet_occurred (n : Nat) (d : Die) (code loc : Nat) (s : State) : (occurred n d code loc s).quiet = s.quiet := by
  induction n generalizing code loc s with
  | zero => rfl
  | succ n ih =>
    unfold occurred
    dsimp only
    rw [quiet_each]
    · split <;> simp [ih]
    · intro x t
      split
      · split <;> simp [ih]
      · simp [ih]

@[simp] theorem quiet_occur (d : Die) (e : Ev) (s : State) : (occur d e s).quiet = s.quiet := quiet_occurred 4 d _ _ s

@[simp] theorem quiet_post (d : Die) (e : Ev) (s : State) : (post d e s).quiet = s.quiet := by simp [post]

@[simp] theorem quiet_postLim (d : Die) (scope : Nat) (e : Ev) (acc : List Nat) (s : State) : (postLim d scope e acc s).quiet = s.quiet := by
  unfold postLim
  split
  · simp
  · dsimp only
    split
    · split <;> simp
    · simp

@[simp] theorem quiet_postHeld (d : Die) (code scope : Nat) (s : State) : (postHeld d code scope s).quiet = s.quiet := by
  unfold postHeld
  split
  · split <;> simp
  · rfl

@[simp] theorem quiet_signal (d : Die) (sel lch : Nat) (sb : Option Nat) (k : Nat) (s : State) : (signal d sel lch sb k s).quiet = s.quiet := by
  unfold signal
  dsimp only
  rw [quiet_each _ _ (by intro n t; simp)]
  simp

@[simp] theorem quiet_signalDie (d : Die) (sel k : Nat) (s : State) : (signalDie d sel k s).quiet = s.quiet := quiet_signal d sel 7 none k s
@[simp] theorem quiet_signalSub (d : Die) (i sel k : Nat) (s : State) : (signalSub d i sel k s).quiet = s.quiet := quiet_signal d sel _ _ k s

/-! ### The parts of the state that a posting leaves, one by one -/

theorem frame_bound {a b : State} (h : a.quiet = b.quiet) : a.bound = b.bound := by
  have e := congrArg State.bound h
  exact e
theorem frame_ops {a b : State} (h : a.quiet = b.quiet) : a.ops = b.ops := by
  have e := congrArg State.ops h
  exact e
theorem frame_seq {a b : State} (h : a.quiet = b.quiet) : a.seq = b.seq := by
  have e := congrArg State.seq h
  exact e
theorem frame_nowNs {a b : State} (h : a.quiet = b.quiet) : a.nowNs = b.nowNs := by
  have e := congrArg State.nowNs h
  exact e
theorem frame_upNs {a b : State} (h : a.quiet = b.quiet) : a.upNs = b.upNs := by
  have e := congrArg State.upNs h
  exact e
theorem frame_dev {a b : State} (h : a.quiet = b.quiet) : a.dev = b.dev := by
  have e := congrArg State.dev h
  exact e
theorem frame_cxlOffset {a b : State} (h : a.quiet = b.quiet) : a.cxlOffset = b.cxlOffset := by
  have e := congrArg State.cxlOffset h
  exact e
theorem frame_ctrgWait {a b : State} (h : a.quiet = b.quiet) : a.ctrgWait = b.ctrgWait := by
  have e := congrArg State.ctrgWait h
  exact e
theorem frame_slots {a b : State} (h : a.quiet = b.quiet) : a.slots = b.slots := by
  have e := congrArg State.slots h
  exact e
theorem frame_rots {a b : State} (h : a.quiet = b.quiet) : a.rots = b.rots := by
  have e := congrArg State.rots h
  exact e
theorem frame_metaKey {a b : State} (h : a.quiet = b.quiet) : a.metaKey = b.metaKey := by
  have e := congrArg State.metaKey h
  exact e
theorem frame_msx {a b : State} (h : a.quiet = b.quiet) : a.msx = b.msx := by
  have e := congrArg State.msx h
  exact e
theorem frame_therm {a b : State} (h : a.quiet = b.quiet) : a.therm = b.therm := by
  have e := congrArg State.therm h
  exact e
theorem frame_psg {a b : State} (h : a.quiet = b.quiet) : a.psg = b.psg := by
  have e := congrArg State.psg h
  exact e
theorem frame_todo {a b : State} (h : a.quiet = b.quiet) : a.todo = b.todo := by
  have e := congrArg State.todo h
  exact e
theorem frame_serves {a b : State} (h : a.quiet = b.quiet) : a.serves = b.serves := by
  have e := congrArg State.serves h
  exact e
theorem frame_tables {a b : State} (h : a.quiet = b.quiet) : a.tables = b.tables := by
  have e := congrArg State.tables h
  exact e
theorem frame_spdm {a b : State} (h : a.quiet = b.quiet) : a.spdm = b.spdm := by
  have e := congrArg State.spdm h
  exact e
theorem frame_tap {a b : State} (h : a.quiet = b.quiet) : a.tap = b.tap := by
  have e := congrArg State.tap h
  exact e
theorem frame_pins {a b : State} (h : a.quiet = b.quiet) : a.pins = b.pins := by
  have e := congrArg State.pins h
  exact e
theorem frame_fw {a b : State} (h : a.quiet = b.quiet) : a.fw = b.fw := by
  have e := congrArg State.fw h
  exact e
theorem frame_sani {a b : State} (h : a.quiet = b.quiet) : a.sani = b.sani := by
  have e := congrArg State.sani h
  exact e
theorem frame_sbXfer {a b : State} (h : a.quiet = b.quiet) : a.sbXfer = b.sbXfer := by
  have e := congrArg State.sbXfer h
  exact e
theorem frame_injected {a b : State} (h : a.quiet = b.quiet) : a.injected = b.injected := by
  have e := congrArg State.injected h
  exact e
theorem frame_freeCtr {a b : State} (h : a.quiet = b.quiet) : a.freeCtr = b.freeCtr := by
  have e := congrArg State.freeCtr h
  exact e
theorem frame_pending {a b : State} (h : a.quiet = b.quiet) : a.pending = b.pending := by
  have e := congrArg State.pending h
  exact e
theorem frame_die_subs {a b : State} (h : a.quiet = b.quiet) (o : Die) : (die a o).subs = (die b o).subs := by
  cases o
  · have e := congrArg (fun t : State => t.east.subs) h
    exact e
  · have e := congrArg (fun t : State => t.west.subs) h
    exact e
theorem frame_die_chans {a b : State} (h : a.quiet = b.quiet) (o : Die) : (die a o).chans = (die b o).chans := by
  cases o
  · have e := congrArg (fun t : State => t.east.chans) h
    exact e
  · have e := congrArg (fun t : State => t.west.chans) h
    exact e
theorem frame_die_sru {a b : State} (h : a.quiet = b.quiet) (o : Die) : (die a o).sru = (die b o).sru := by
  cases o
  · have e := congrArg (fun t : State => t.east.sru) h
    exact e
  · have e := congrArg (fun t : State => t.west.sru) h
    exact e
theorem frame_die_frz {a b : State} (h : a.quiet = b.quiet) (o : Die) : (die a o).frz = (die b o).frz := by
  cases o
  · have e := congrArg (fun t : State => t.east.frz) h
    exact e
  · have e := congrArg (fun t : State => t.west.frz) h
    exact e
theorem frame_die_frzSeq {a b : State} (h : a.quiet = b.quiet) (o : Die) : (die a o).frzSeq = (die b o).frzSeq := by
  cases o
  · have e := congrArg (fun t : State => t.east.frzSeq) h
    exact e
  · have e := congrArg (fun t : State => t.west.frzSeq) h
    exact e
theorem frame_die_cyc {a b : State} (h : a.quiet = b.quiet) (o : Die) : (die a o).cyc = (die b o).cyc := by
  cases o
  · have e := congrArg (fun t : State => t.east.cyc) h
    exact e
  · have e := congrArg (fun t : State => t.west.cyc) h
    exact e
theorem frame_die_lmeta {a b : State} (h : a.quiet = b.quiet) (o : Die) : (die a o).lmeta = (die b o).lmeta := by
  cases o
  · have e := congrArg (fun t : State => t.east.lmeta) h
    exact e
  · have e := congrArg (fun t : State => t.west.lmeta) h
    exact e
theorem frame_die_badNodes {a b : State} (h : a.quiet = b.quiet) (o : Die) : (die a o).badNodes = (die b o).badNodes := by
  cases o
  · have e := congrArg (fun t : State => t.east.badNodes) h
    exact e
  · have e := congrArg (fun t : State => t.west.badNodes) h
    exact e
theorem frame_die_nodes {a b : State} (h : a.quiet = b.quiet) (o : Die) : (die a o).nodes = (die b o).nodes := by
  cases o
  · have e := congrArg (fun t : State => t.east.nodes) h
    exact e
  · have e := congrArg (fun t : State => t.west.nodes) h
    exact e
theorem frame_die_ctrs {a b : State} (h : a.quiet = b.quiet) (o : Die) : (die a o).ctrs = (die b o).ctrs := by
  cases o
  · have e := congrArg (fun t : State => t.east.ctrs) h
    exact e
  · have e := congrArg (fun t : State => t.west.ctrs) h
    exact e
theorem frame_die_macUnits {a b : State} (h : a.quiet = b.quiet) (o : Die) : (die a o).macUnits = (die b o).macUnits := by
  cases o
  · have e := congrArg (fun t : State => t.east.macUnits) h
    exact e
  · have e := congrArg (fun t : State => t.west.macUnits) h
    exact e
theorem frame_die_treeUnits {a b : State} (h : a.quiet = b.quiet) (o : Die) : (die a o).treeUnits = (die b o).treeUnits := by
  cases o
  · have e := congrArg (fun t : State => t.east.treeUnits) h
    exact e
  · have e := congrArg (fun t : State => t.west.treeUnits) h
    exact e
theorem frame_die_drbg {a b : State} (h : a.quiet = b.quiet) (o : Die) : (die a o).drbg = (die b o).drbg := by
  cases o
  · have e := congrArg (fun t : State => t.east.drbg) h
    exact e
  · have e := congrArg (fun t : State => t.west.drbg) h
    exact e
theorem frame_die_drbgUsed {a b : State} (h : a.quiet = b.quiet) (o : Die) : (die a o).drbgUsed = (die b o).drbgUsed := by
  cases o
  · have e := congrArg (fun t : State => t.east.drbgUsed) h
    exact e
  · have e := congrArg (fun t : State => t.west.drbgUsed) h
    exact e
theorem frame_die_drbgSeeds {a b : State} (h : a.quiet = b.quiet) (o : Die) : (die a o).drbgSeeds = (die b o).drbgSeeds := by
  cases o
  · have e := congrArg (fun t : State => t.east.drbgSeeds) h
    exact e
  · have e := congrArg (fun t : State => t.west.drbgSeeds) h
    exact e
theorem frame_die_drbgStopped {a b : State} (h : a.quiet = b.quiet) (o : Die) : (die a o).drbgStopped = (die b o).drbgStopped := by
  cases o
  · have e := congrArg (fun t : State => t.east.drbgStopped) h
    exact e
  · have e := congrArg (fun t : State => t.west.drbgStopped) h
    exact e
theorem frame_die_cks {a b : State} (h : a.quiet = b.quiet) (o : Die) : (die a o).cks = (die b o).cks := by
  cases o
  · have e := congrArg (fun t : State => t.east.cks) h
    exact e
  · have e := congrArg (fun t : State => t.west.cks) h
    exact e
theorem frame_die_refLost {a b : State} (h : a.quiet = b.quiet) (o : Die) : (die a o).refLost = (die b o).refLost := by
  cases o
  · have e := congrArg (fun t : State => t.east.refLost) h
    exact e
  · have e := congrArg (fun t : State => t.west.refLost) h
    exact e
theorem frame_die_cdr {a b : State} (h : a.quiet = b.quiet) (o : Die) : (die a o).cdr = (die b o).cdr := by
  cases o
  · have e := congrArg (fun t : State => t.east.cdr) h
    exact e
  · have e := congrArg (fun t : State => t.west.cdr) h
    exact e
theorem frame_die_tme {a b : State} (h : a.quiet = b.quiet) (o : Die) : (die a o).tme = (die b o).tme := by
  cases o
  · have e := congrArg (fun t : State => t.east.tme) h
    exact e
  · have e := congrArg (fun t : State => t.west.tme) h
    exact e
theorem frame_die_fpc {a b : State} (h : a.quiet = b.quiet) (o : Die) : (die a o).fpc = (die b o).fpc := by
  cases o
  · have e := congrArg (fun t : State => t.east.fpc) h
    exact e
  · have e := congrArg (fun t : State => t.west.fpc) h
    exact e
theorem frame_die_pools {a b : State} (h : a.quiet = b.quiet) (o : Die) : (die a o).pools = (die b o).pools := by
  cases o
  · have e := congrArg (fun t : State => t.east.pools) h
    exact e
  · have e := congrArg (fun t : State => t.west.pools) h
    exact e
theorem frame_die_queues {a b : State} (h : a.quiet = b.quiet) (o : Die) : (die a o).queues = (die b o).queues := by
  cases o
  · have e := congrArg (fun t : State => t.east.queues) h
    exact e
  · have e := congrArg (fun t : State => t.west.queues) h
    exact e
theorem frame_die_work {a b : State} (h : a.quiet = b.quiet) (o : Die) : (die a o).work = (die b o).work := by
  cases o
  · have e := congrArg (fun t : State => t.east.work) h
    exact e
  · have e := congrArg (fun t : State => t.west.work) h
    exact e
theorem frame_die_psgHeld {a b : State} (h : a.quiet = b.quiet) (o : Die) : (die a o).psgHeld = (die b o).psgHeld := by
  cases o
  · have e := congrArg (fun t : State => t.east.psgHeld) h
    exact e
  · have e := congrArg (fun t : State => t.west.psgHeld) h
    exact e

@[simp] theorem post_bound (d : Die) (e : Ev) (s : State) : (post d e s).bound = s.bound := frame_bound (quiet_post d e s)
@[simp] theorem post_ops (d : Die) (e : Ev) (s : State) : (post d e s).ops = s.ops := frame_ops (quiet_post d e s)
@[simp] theorem post_seq (d : Die) (e : Ev) (s : State) : (post d e s).seq = s.seq := frame_seq (quiet_post d e s)
@[simp] theorem post_nowNs (d : Die) (e : Ev) (s : State) : (post d e s).nowNs = s.nowNs := frame_nowNs (quiet_post d e s)
@[simp] theorem post_upNs (d : Die) (e : Ev) (s : State) : (post d e s).upNs = s.upNs := frame_upNs (quiet_post d e s)
@[simp] theorem post_dev (d : Die) (e : Ev) (s : State) : (post d e s).dev = s.dev := frame_dev (quiet_post d e s)
@[simp] theorem post_cxlOffset (d : Die) (e : Ev) (s : State) : (post d e s).cxlOffset = s.cxlOffset := frame_cxlOffset (quiet_post d e s)
@[simp] theorem post_ctrgWait (d : Die) (e : Ev) (s : State) : (post d e s).ctrgWait = s.ctrgWait := frame_ctrgWait (quiet_post d e s)
@[simp] theorem post_slots (d : Die) (e : Ev) (s : State) : (post d e s).slots = s.slots := frame_slots (quiet_post d e s)
@[simp] theorem post_rots (d : Die) (e : Ev) (s : State) : (post d e s).rots = s.rots := frame_rots (quiet_post d e s)
@[simp] theorem post_metaKey (d : Die) (e : Ev) (s : State) : (post d e s).metaKey = s.metaKey := frame_metaKey (quiet_post d e s)
@[simp] theorem post_msx (d : Die) (e : Ev) (s : State) : (post d e s).msx = s.msx := frame_msx (quiet_post d e s)
@[simp] theorem post_therm (d : Die) (e : Ev) (s : State) : (post d e s).therm = s.therm := frame_therm (quiet_post d e s)
@[simp] theorem post_psg (d : Die) (e : Ev) (s : State) : (post d e s).psg = s.psg := frame_psg (quiet_post d e s)
@[simp] theorem post_todo (d : Die) (e : Ev) (s : State) : (post d e s).todo = s.todo := frame_todo (quiet_post d e s)
@[simp] theorem post_serves (d : Die) (e : Ev) (s : State) : (post d e s).serves = s.serves := frame_serves (quiet_post d e s)
@[simp] theorem post_tables (d : Die) (e : Ev) (s : State) : (post d e s).tables = s.tables := frame_tables (quiet_post d e s)
@[simp] theorem post_spdm (d : Die) (e : Ev) (s : State) : (post d e s).spdm = s.spdm := frame_spdm (quiet_post d e s)
@[simp] theorem post_tap (d : Die) (e : Ev) (s : State) : (post d e s).tap = s.tap := frame_tap (quiet_post d e s)
@[simp] theorem post_pins (d : Die) (e : Ev) (s : State) : (post d e s).pins = s.pins := frame_pins (quiet_post d e s)
@[simp] theorem post_fw (d : Die) (e : Ev) (s : State) : (post d e s).fw = s.fw := frame_fw (quiet_post d e s)
@[simp] theorem post_sani (d : Die) (e : Ev) (s : State) : (post d e s).sani = s.sani := frame_sani (quiet_post d e s)
@[simp] theorem post_sbXfer (d : Die) (e : Ev) (s : State) : (post d e s).sbXfer = s.sbXfer := frame_sbXfer (quiet_post d e s)
@[simp] theorem post_injected (d : Die) (e : Ev) (s : State) : (post d e s).injected = s.injected := frame_injected (quiet_post d e s)
@[simp] theorem post_freeCtr (d : Die) (e : Ev) (s : State) : (post d e s).freeCtr = s.freeCtr := frame_freeCtr (quiet_post d e s)
@[simp] theorem post_pending (d : Die) (e : Ev) (s : State) : (post d e s).pending = s.pending := frame_pending (quiet_post d e s)
@[simp] theorem post_die_subs (d : Die) (e : Ev) (s : State) (o : Die) : (die (post d e s) o).subs = (die s o).subs := frame_die_subs (quiet_post d e s) o
@[simp] theorem post_die_chans (d : Die) (e : Ev) (s : State) (o : Die) : (die (post d e s) o).chans = (die s o).chans := frame_die_chans (quiet_post d e s) o
@[simp] theorem post_die_sru (d : Die) (e : Ev) (s : State) (o : Die) : (die (post d e s) o).sru = (die s o).sru := frame_die_sru (quiet_post d e s) o
@[simp] theorem post_die_frz (d : Die) (e : Ev) (s : State) (o : Die) : (die (post d e s) o).frz = (die s o).frz := frame_die_frz (quiet_post d e s) o
@[simp] theorem post_die_frzSeq (d : Die) (e : Ev) (s : State) (o : Die) : (die (post d e s) o).frzSeq = (die s o).frzSeq := frame_die_frzSeq (quiet_post d e s) o
@[simp] theorem post_die_cyc (d : Die) (e : Ev) (s : State) (o : Die) : (die (post d e s) o).cyc = (die s o).cyc := frame_die_cyc (quiet_post d e s) o
@[simp] theorem post_die_lmeta (d : Die) (e : Ev) (s : State) (o : Die) : (die (post d e s) o).lmeta = (die s o).lmeta := frame_die_lmeta (quiet_post d e s) o
@[simp] theorem post_die_badNodes (d : Die) (e : Ev) (s : State) (o : Die) : (die (post d e s) o).badNodes = (die s o).badNodes := frame_die_badNodes (quiet_post d e s) o
@[simp] theorem post_die_nodes (d : Die) (e : Ev) (s : State) (o : Die) : (die (post d e s) o).nodes = (die s o).nodes := frame_die_nodes (quiet_post d e s) o
@[simp] theorem post_die_ctrs (d : Die) (e : Ev) (s : State) (o : Die) : (die (post d e s) o).ctrs = (die s o).ctrs := frame_die_ctrs (quiet_post d e s) o
@[simp] theorem post_die_macUnits (d : Die) (e : Ev) (s : State) (o : Die) : (die (post d e s) o).macUnits = (die s o).macUnits := frame_die_macUnits (quiet_post d e s) o
@[simp] theorem post_die_treeUnits (d : Die) (e : Ev) (s : State) (o : Die) : (die (post d e s) o).treeUnits = (die s o).treeUnits := frame_die_treeUnits (quiet_post d e s) o
@[simp] theorem post_die_drbg (d : Die) (e : Ev) (s : State) (o : Die) : (die (post d e s) o).drbg = (die s o).drbg := frame_die_drbg (quiet_post d e s) o
@[simp] theorem post_die_drbgUsed (d : Die) (e : Ev) (s : State) (o : Die) : (die (post d e s) o).drbgUsed = (die s o).drbgUsed := frame_die_drbgUsed (quiet_post d e s) o
@[simp] theorem post_die_drbgSeeds (d : Die) (e : Ev) (s : State) (o : Die) : (die (post d e s) o).drbgSeeds = (die s o).drbgSeeds := frame_die_drbgSeeds (quiet_post d e s) o
@[simp] theorem post_die_drbgStopped (d : Die) (e : Ev) (s : State) (o : Die) : (die (post d e s) o).drbgStopped = (die s o).drbgStopped := frame_die_drbgStopped (quiet_post d e s) o
@[simp] theorem post_die_cks (d : Die) (e : Ev) (s : State) (o : Die) : (die (post d e s) o).cks = (die s o).cks := frame_die_cks (quiet_post d e s) o
@[simp] theorem post_die_refLost (d : Die) (e : Ev) (s : State) (o : Die) : (die (post d e s) o).refLost = (die s o).refLost := frame_die_refLost (quiet_post d e s) o
@[simp] theorem post_die_cdr (d : Die) (e : Ev) (s : State) (o : Die) : (die (post d e s) o).cdr = (die s o).cdr := frame_die_cdr (quiet_post d e s) o
@[simp] theorem post_die_tme (d : Die) (e : Ev) (s : State) (o : Die) : (die (post d e s) o).tme = (die s o).tme := frame_die_tme (quiet_post d e s) o
@[simp] theorem post_die_fpc (d : Die) (e : Ev) (s : State) (o : Die) : (die (post d e s) o).fpc = (die s o).fpc := frame_die_fpc (quiet_post d e s) o
@[simp] theorem post_die_pools (d : Die) (e : Ev) (s : State) (o : Die) : (die (post d e s) o).pools = (die s o).pools := frame_die_pools (quiet_post d e s) o
@[simp] theorem post_die_queues (d : Die) (e : Ev) (s : State) (o : Die) : (die (post d e s) o).queues = (die s o).queues := frame_die_queues (quiet_post d e s) o
@[simp] theorem post_die_work (d : Die) (e : Ev) (s : State) (o : Die) : (die (post d e s) o).work = (die s o).work := frame_die_work (quiet_post d e s) o
@[simp] theorem post_die_psgHeld (d : Die) (e : Ev) (s : State) (o : Die) : (die (post d e s) o).psgHeld = (die s o).psgHeld := frame_die_psgHeld (quiet_post d e s) o

@[simp] theorem postLim_bound (d : Die) (k : Nat) (e : Ev) (a : List Nat) (s : State) : (postLim d k e a s).bound = s.bound := frame_bound (quiet_postLim d k e a s)
@[simp] theorem postLim_ops (d : Die) (k : Nat) (e : Ev) (a : List Nat) (s : State) : (postLim d k e a s).ops = s.ops := frame_ops (quiet_postLim d k e a s)
@[simp] theorem postLim_seq (d : Die) (k : Nat) (e : Ev) (a : List Nat) (s : State) : (postLim d k e a s).seq = s.seq := frame_seq (quiet_postLim d k e a s)
@[simp] theorem postLim_nowNs (d : Die) (k : Nat) (e : Ev) (a : List Nat) (s : State) : (postLim d k e a s).nowNs = s.nowNs := frame_nowNs (quiet_postLim d k e a s)
@[simp] theorem postLim_upNs (d : Die) (k : Nat) (e : Ev) (a : List Nat) (s : State) : (postLim d k e a s).upNs = s.upNs := frame_upNs (quiet_postLim d k e a s)
@[simp] theorem postLim_dev (d : Die) (k : Nat) (e : Ev) (a : List Nat) (s : State) : (postLim d k e a s).dev = s.dev := frame_dev (quiet_postLim d k e a s)
@[simp] theorem postLim_cxlOffset (d : Die) (k : Nat) (e : Ev) (a : List Nat) (s : State) : (postLim d k e a s).cxlOffset = s.cxlOffset := frame_cxlOffset (quiet_postLim d k e a s)
@[simp] theorem postLim_ctrgWait (d : Die) (k : Nat) (e : Ev) (a : List Nat) (s : State) : (postLim d k e a s).ctrgWait = s.ctrgWait := frame_ctrgWait (quiet_postLim d k e a s)
@[simp] theorem postLim_slots (d : Die) (k : Nat) (e : Ev) (a : List Nat) (s : State) : (postLim d k e a s).slots = s.slots := frame_slots (quiet_postLim d k e a s)
@[simp] theorem postLim_rots (d : Die) (k : Nat) (e : Ev) (a : List Nat) (s : State) : (postLim d k e a s).rots = s.rots := frame_rots (quiet_postLim d k e a s)
@[simp] theorem postLim_metaKey (d : Die) (k : Nat) (e : Ev) (a : List Nat) (s : State) : (postLim d k e a s).metaKey = s.metaKey := frame_metaKey (quiet_postLim d k e a s)
@[simp] theorem postLim_msx (d : Die) (k : Nat) (e : Ev) (a : List Nat) (s : State) : (postLim d k e a s).msx = s.msx := frame_msx (quiet_postLim d k e a s)
@[simp] theorem postLim_therm (d : Die) (k : Nat) (e : Ev) (a : List Nat) (s : State) : (postLim d k e a s).therm = s.therm := frame_therm (quiet_postLim d k e a s)
@[simp] theorem postLim_psg (d : Die) (k : Nat) (e : Ev) (a : List Nat) (s : State) : (postLim d k e a s).psg = s.psg := frame_psg (quiet_postLim d k e a s)
@[simp] theorem postLim_todo (d : Die) (k : Nat) (e : Ev) (a : List Nat) (s : State) : (postLim d k e a s).todo = s.todo := frame_todo (quiet_postLim d k e a s)
@[simp] theorem postLim_serves (d : Die) (k : Nat) (e : Ev) (a : List Nat) (s : State) : (postLim d k e a s).serves = s.serves := frame_serves (quiet_postLim d k e a s)
@[simp] theorem postLim_tables (d : Die) (k : Nat) (e : Ev) (a : List Nat) (s : State) : (postLim d k e a s).tables = s.tables := frame_tables (quiet_postLim d k e a s)
@[simp] theorem postLim_spdm (d : Die) (k : Nat) (e : Ev) (a : List Nat) (s : State) : (postLim d k e a s).spdm = s.spdm := frame_spdm (quiet_postLim d k e a s)
@[simp] theorem postLim_tap (d : Die) (k : Nat) (e : Ev) (a : List Nat) (s : State) : (postLim d k e a s).tap = s.tap := frame_tap (quiet_postLim d k e a s)
@[simp] theorem postLim_pins (d : Die) (k : Nat) (e : Ev) (a : List Nat) (s : State) : (postLim d k e a s).pins = s.pins := frame_pins (quiet_postLim d k e a s)
@[simp] theorem postLim_fw (d : Die) (k : Nat) (e : Ev) (a : List Nat) (s : State) : (postLim d k e a s).fw = s.fw := frame_fw (quiet_postLim d k e a s)
@[simp] theorem postLim_sani (d : Die) (k : Nat) (e : Ev) (a : List Nat) (s : State) : (postLim d k e a s).sani = s.sani := frame_sani (quiet_postLim d k e a s)
@[simp] theorem postLim_sbXfer (d : Die) (k : Nat) (e : Ev) (a : List Nat) (s : State) : (postLim d k e a s).sbXfer = s.sbXfer := frame_sbXfer (quiet_postLim d k e a s)
@[simp] theorem postLim_injected (d : Die) (k : Nat) (e : Ev) (a : List Nat) (s : State) : (postLim d k e a s).injected = s.injected := frame_injected (quiet_postLim d k e a s)
@[simp] theorem postLim_freeCtr (d : Die) (k : Nat) (e : Ev) (a : List Nat) (s : State) : (postLim d k e a s).freeCtr = s.freeCtr := frame_freeCtr (quiet_postLim d k e a s)
@[simp] theorem postLim_pending (d : Die) (k : Nat) (e : Ev) (a : List Nat) (s : State) : (postLim d k e a s).pending = s.pending := frame_pending (quiet_postLim d k e a s)
@[simp] theorem postLim_die_subs (d : Die) (k : Nat) (e : Ev) (a : List Nat) (s : State) (o : Die) : (die (postLim d k e a s) o).subs = (die s o).subs := frame_die_subs (quiet_postLim d k e a s) o
@[simp] theorem postLim_die_chans (d : Die) (k : Nat) (e : Ev) (a : List Nat) (s : State) (o : Die) : (die (postLim d k e a s) o).chans = (die s o).chans := frame_die_chans (quiet_postLim d k e a s) o
@[simp] theorem postLim_die_sru (d : Die) (k : Nat) (e : Ev) (a : List Nat) (s : State) (o : Die) : (die (postLim d k e a s) o).sru = (die s o).sru := frame_die_sru (quiet_postLim d k e a s) o
@[simp] theorem postLim_die_frz (d : Die) (k : Nat) (e : Ev) (a : List Nat) (s : State) (o : Die) : (die (postLim d k e a s) o).frz = (die s o).frz := frame_die_frz (quiet_postLim d k e a s) o
@[simp] theorem postLim_die_frzSeq (d : Die) (k : Nat) (e : Ev) (a : List Nat) (s : State) (o : Die) : (die (postLim d k e a s) o).frzSeq = (die s o).frzSeq := frame_die_frzSeq (quiet_postLim d k e a s) o
@[simp] theorem postLim_die_cyc (d : Die) (k : Nat) (e : Ev) (a : List Nat) (s : State) (o : Die) : (die (postLim d k e a s) o).cyc = (die s o).cyc := frame_die_cyc (quiet_postLim d k e a s) o
@[simp] theorem postLim_die_lmeta (d : Die) (k : Nat) (e : Ev) (a : List Nat) (s : State) (o : Die) : (die (postLim d k e a s) o).lmeta = (die s o).lmeta := frame_die_lmeta (quiet_postLim d k e a s) o
@[simp] theorem postLim_die_badNodes (d : Die) (k : Nat) (e : Ev) (a : List Nat) (s : State) (o : Die) : (die (postLim d k e a s) o).badNodes = (die s o).badNodes := frame_die_badNodes (quiet_postLim d k e a s) o
@[simp] theorem postLim_die_nodes (d : Die) (k : Nat) (e : Ev) (a : List Nat) (s : State) (o : Die) : (die (postLim d k e a s) o).nodes = (die s o).nodes := frame_die_nodes (quiet_postLim d k e a s) o
@[simp] theorem postLim_die_ctrs (d : Die) (k : Nat) (e : Ev) (a : List Nat) (s : State) (o : Die) : (die (postLim d k e a s) o).ctrs = (die s o).ctrs := frame_die_ctrs (quiet_postLim d k e a s) o
@[simp] theorem postLim_die_macUnits (d : Die) (k : Nat) (e : Ev) (a : List Nat) (s : State) (o : Die) : (die (postLim d k e a s) o).macUnits = (die s o).macUnits := frame_die_macUnits (quiet_postLim d k e a s) o
@[simp] theorem postLim_die_treeUnits (d : Die) (k : Nat) (e : Ev) (a : List Nat) (s : State) (o : Die) : (die (postLim d k e a s) o).treeUnits = (die s o).treeUnits := frame_die_treeUnits (quiet_postLim d k e a s) o
@[simp] theorem postLim_die_drbg (d : Die) (k : Nat) (e : Ev) (a : List Nat) (s : State) (o : Die) : (die (postLim d k e a s) o).drbg = (die s o).drbg := frame_die_drbg (quiet_postLim d k e a s) o
@[simp] theorem postLim_die_drbgUsed (d : Die) (k : Nat) (e : Ev) (a : List Nat) (s : State) (o : Die) : (die (postLim d k e a s) o).drbgUsed = (die s o).drbgUsed := frame_die_drbgUsed (quiet_postLim d k e a s) o
@[simp] theorem postLim_die_drbgSeeds (d : Die) (k : Nat) (e : Ev) (a : List Nat) (s : State) (o : Die) : (die (postLim d k e a s) o).drbgSeeds = (die s o).drbgSeeds := frame_die_drbgSeeds (quiet_postLim d k e a s) o
@[simp] theorem postLim_die_drbgStopped (d : Die) (k : Nat) (e : Ev) (a : List Nat) (s : State) (o : Die) : (die (postLim d k e a s) o).drbgStopped = (die s o).drbgStopped := frame_die_drbgStopped (quiet_postLim d k e a s) o
@[simp] theorem postLim_die_cks (d : Die) (k : Nat) (e : Ev) (a : List Nat) (s : State) (o : Die) : (die (postLim d k e a s) o).cks = (die s o).cks := frame_die_cks (quiet_postLim d k e a s) o
@[simp] theorem postLim_die_refLost (d : Die) (k : Nat) (e : Ev) (a : List Nat) (s : State) (o : Die) : (die (postLim d k e a s) o).refLost = (die s o).refLost := frame_die_refLost (quiet_postLim d k e a s) o
@[simp] theorem postLim_die_cdr (d : Die) (k : Nat) (e : Ev) (a : List Nat) (s : State) (o : Die) : (die (postLim d k e a s) o).cdr = (die s o).cdr := frame_die_cdr (quiet_postLim d k e a s) o
@[simp] theorem postLim_die_tme (d : Die) (k : Nat) (e : Ev) (a : List Nat) (s : State) (o : Die) : (die (postLim d k e a s) o).tme = (die s o).tme := frame_die_tme (quiet_postLim d k e a s) o
@[simp] theorem postLim_die_fpc (d : Die) (k : Nat) (e : Ev) (a : List Nat) (s : State) (o : Die) : (die (postLim d k e a s) o).fpc = (die s o).fpc := frame_die_fpc (quiet_postLim d k e a s) o
@[simp] theorem postLim_die_pools (d : Die) (k : Nat) (e : Ev) (a : List Nat) (s : State) (o : Die) : (die (postLim d k e a s) o).pools = (die s o).pools := frame_die_pools (quiet_postLim d k e a s) o
@[simp] theorem postLim_die_queues (d : Die) (k : Nat) (e : Ev) (a : List Nat) (s : State) (o : Die) : (die (postLim d k e a s) o).queues = (die s o).queues := frame_die_queues (quiet_postLim d k e a s) o
@[simp] theorem postLim_die_work (d : Die) (k : Nat) (e : Ev) (a : List Nat) (s : State) (o : Die) : (die (postLim d k e a s) o).work = (die s o).work := frame_die_work (quiet_postLim d k e a s) o
@[simp] theorem postLim_die_psgHeld (d : Die) (k : Nat) (e : Ev) (a : List Nat) (s : State) (o : Die) : (die (postLim d k e a s) o).psgHeld = (die s o).psgHeld := frame_die_psgHeld (quiet_postLim d k e a s) o

@[simp] theorem signalDie_bound (d : Die) (k n : Nat) (s : State) : (signalDie d k n s).bound = s.bound := frame_bound (quiet_signalDie d k n s)
@[simp] theorem signalDie_ops (d : Die) (k n : Nat) (s : State) : (signalDie d k n s).ops = s.ops := frame_ops (quiet_signalDie d k n s)
@[simp] theorem signalDie_seq (d : Die) (k n : Nat) (s : State) : (signalDie d k n s).seq = s.seq := frame_seq (quiet_signalDie d k n s)
@[simp] theorem signalDie_nowNs (d : Die) (k n : Nat) (s : State) : (signalDie d k n s).nowNs = s.nowNs := frame_nowNs (quiet_signalDie d k n s)
@[simp] theorem signalDie_upNs (d : Die) (k n : Nat) (s : State) : (signalDie d k n s).upNs = s.upNs := frame_upNs (quiet_signalDie d k n s)
@[simp] theorem signalDie_dev (d : Die) (k n : Nat) (s : State) : (signalDie d k n s).dev = s.dev := frame_dev (quiet_signalDie d k n s)
@[simp] theorem signalDie_cxlOffset (d : Die) (k n : Nat) (s : State) : (signalDie d k n s).cxlOffset = s.cxlOffset := frame_cxlOffset (quiet_signalDie d k n s)
@[simp] theorem signalDie_ctrgWait (d : Die) (k n : Nat) (s : State) : (signalDie d k n s).ctrgWait = s.ctrgWait := frame_ctrgWait (quiet_signalDie d k n s)
@[simp] theorem signalDie_slots (d : Die) (k n : Nat) (s : State) : (signalDie d k n s).slots = s.slots := frame_slots (quiet_signalDie d k n s)
@[simp] theorem signalDie_rots (d : Die) (k n : Nat) (s : State) : (signalDie d k n s).rots = s.rots := frame_rots (quiet_signalDie d k n s)
@[simp] theorem signalDie_metaKey (d : Die) (k n : Nat) (s : State) : (signalDie d k n s).metaKey = s.metaKey := frame_metaKey (quiet_signalDie d k n s)
@[simp] theorem signalDie_msx (d : Die) (k n : Nat) (s : State) : (signalDie d k n s).msx = s.msx := frame_msx (quiet_signalDie d k n s)
@[simp] theorem signalDie_therm (d : Die) (k n : Nat) (s : State) : (signalDie d k n s).therm = s.therm := frame_therm (quiet_signalDie d k n s)
@[simp] theorem signalDie_psg (d : Die) (k n : Nat) (s : State) : (signalDie d k n s).psg = s.psg := frame_psg (quiet_signalDie d k n s)
@[simp] theorem signalDie_todo (d : Die) (k n : Nat) (s : State) : (signalDie d k n s).todo = s.todo := frame_todo (quiet_signalDie d k n s)
@[simp] theorem signalDie_serves (d : Die) (k n : Nat) (s : State) : (signalDie d k n s).serves = s.serves := frame_serves (quiet_signalDie d k n s)
@[simp] theorem signalDie_tables (d : Die) (k n : Nat) (s : State) : (signalDie d k n s).tables = s.tables := frame_tables (quiet_signalDie d k n s)
@[simp] theorem signalDie_spdm (d : Die) (k n : Nat) (s : State) : (signalDie d k n s).spdm = s.spdm := frame_spdm (quiet_signalDie d k n s)
@[simp] theorem signalDie_tap (d : Die) (k n : Nat) (s : State) : (signalDie d k n s).tap = s.tap := frame_tap (quiet_signalDie d k n s)
@[simp] theorem signalDie_pins (d : Die) (k n : Nat) (s : State) : (signalDie d k n s).pins = s.pins := frame_pins (quiet_signalDie d k n s)
@[simp] theorem signalDie_fw (d : Die) (k n : Nat) (s : State) : (signalDie d k n s).fw = s.fw := frame_fw (quiet_signalDie d k n s)
@[simp] theorem signalDie_sani (d : Die) (k n : Nat) (s : State) : (signalDie d k n s).sani = s.sani := frame_sani (quiet_signalDie d k n s)
@[simp] theorem signalDie_sbXfer (d : Die) (k n : Nat) (s : State) : (signalDie d k n s).sbXfer = s.sbXfer := frame_sbXfer (quiet_signalDie d k n s)
@[simp] theorem signalDie_injected (d : Die) (k n : Nat) (s : State) : (signalDie d k n s).injected = s.injected := frame_injected (quiet_signalDie d k n s)
@[simp] theorem signalDie_freeCtr (d : Die) (k n : Nat) (s : State) : (signalDie d k n s).freeCtr = s.freeCtr := frame_freeCtr (quiet_signalDie d k n s)
@[simp] theorem signalDie_pending (d : Die) (k n : Nat) (s : State) : (signalDie d k n s).pending = s.pending := frame_pending (quiet_signalDie d k n s)
@[simp] theorem signalDie_die_subs (d : Die) (k n : Nat) (s : State) (o : Die) : (die (signalDie d k n s) o).subs = (die s o).subs := frame_die_subs (quiet_signalDie d k n s) o
@[simp] theorem signalDie_die_chans (d : Die) (k n : Nat) (s : State) (o : Die) : (die (signalDie d k n s) o).chans = (die s o).chans := frame_die_chans (quiet_signalDie d k n s) o
@[simp] theorem signalDie_die_sru (d : Die) (k n : Nat) (s : State) (o : Die) : (die (signalDie d k n s) o).sru = (die s o).sru := frame_die_sru (quiet_signalDie d k n s) o
@[simp] theorem signalDie_die_frz (d : Die) (k n : Nat) (s : State) (o : Die) : (die (signalDie d k n s) o).frz = (die s o).frz := frame_die_frz (quiet_signalDie d k n s) o
@[simp] theorem signalDie_die_frzSeq (d : Die) (k n : Nat) (s : State) (o : Die) : (die (signalDie d k n s) o).frzSeq = (die s o).frzSeq := frame_die_frzSeq (quiet_signalDie d k n s) o
@[simp] theorem signalDie_die_cyc (d : Die) (k n : Nat) (s : State) (o : Die) : (die (signalDie d k n s) o).cyc = (die s o).cyc := frame_die_cyc (quiet_signalDie d k n s) o
@[simp] theorem signalDie_die_lmeta (d : Die) (k n : Nat) (s : State) (o : Die) : (die (signalDie d k n s) o).lmeta = (die s o).lmeta := frame_die_lmeta (quiet_signalDie d k n s) o
@[simp] theorem signalDie_die_badNodes (d : Die) (k n : Nat) (s : State) (o : Die) : (die (signalDie d k n s) o).badNodes = (die s o).badNodes := frame_die_badNodes (quiet_signalDie d k n s) o
@[simp] theorem signalDie_die_nodes (d : Die) (k n : Nat) (s : State) (o : Die) : (die (signalDie d k n s) o).nodes = (die s o).nodes := frame_die_nodes (quiet_signalDie d k n s) o
@[simp] theorem signalDie_die_ctrs (d : Die) (k n : Nat) (s : State) (o : Die) : (die (signalDie d k n s) o).ctrs = (die s o).ctrs := frame_die_ctrs (quiet_signalDie d k n s) o
@[simp] theorem signalDie_die_macUnits (d : Die) (k n : Nat) (s : State) (o : Die) : (die (signalDie d k n s) o).macUnits = (die s o).macUnits := frame_die_macUnits (quiet_signalDie d k n s) o
@[simp] theorem signalDie_die_treeUnits (d : Die) (k n : Nat) (s : State) (o : Die) : (die (signalDie d k n s) o).treeUnits = (die s o).treeUnits := frame_die_treeUnits (quiet_signalDie d k n s) o
@[simp] theorem signalDie_die_drbg (d : Die) (k n : Nat) (s : State) (o : Die) : (die (signalDie d k n s) o).drbg = (die s o).drbg := frame_die_drbg (quiet_signalDie d k n s) o
@[simp] theorem signalDie_die_drbgUsed (d : Die) (k n : Nat) (s : State) (o : Die) : (die (signalDie d k n s) o).drbgUsed = (die s o).drbgUsed := frame_die_drbgUsed (quiet_signalDie d k n s) o
@[simp] theorem signalDie_die_drbgSeeds (d : Die) (k n : Nat) (s : State) (o : Die) : (die (signalDie d k n s) o).drbgSeeds = (die s o).drbgSeeds := frame_die_drbgSeeds (quiet_signalDie d k n s) o
@[simp] theorem signalDie_die_drbgStopped (d : Die) (k n : Nat) (s : State) (o : Die) : (die (signalDie d k n s) o).drbgStopped = (die s o).drbgStopped := frame_die_drbgStopped (quiet_signalDie d k n s) o
@[simp] theorem signalDie_die_cks (d : Die) (k n : Nat) (s : State) (o : Die) : (die (signalDie d k n s) o).cks = (die s o).cks := frame_die_cks (quiet_signalDie d k n s) o
@[simp] theorem signalDie_die_refLost (d : Die) (k n : Nat) (s : State) (o : Die) : (die (signalDie d k n s) o).refLost = (die s o).refLost := frame_die_refLost (quiet_signalDie d k n s) o
@[simp] theorem signalDie_die_cdr (d : Die) (k n : Nat) (s : State) (o : Die) : (die (signalDie d k n s) o).cdr = (die s o).cdr := frame_die_cdr (quiet_signalDie d k n s) o
@[simp] theorem signalDie_die_tme (d : Die) (k n : Nat) (s : State) (o : Die) : (die (signalDie d k n s) o).tme = (die s o).tme := frame_die_tme (quiet_signalDie d k n s) o
@[simp] theorem signalDie_die_fpc (d : Die) (k n : Nat) (s : State) (o : Die) : (die (signalDie d k n s) o).fpc = (die s o).fpc := frame_die_fpc (quiet_signalDie d k n s) o
@[simp] theorem signalDie_die_pools (d : Die) (k n : Nat) (s : State) (o : Die) : (die (signalDie d k n s) o).pools = (die s o).pools := frame_die_pools (quiet_signalDie d k n s) o
@[simp] theorem signalDie_die_queues (d : Die) (k n : Nat) (s : State) (o : Die) : (die (signalDie d k n s) o).queues = (die s o).queues := frame_die_queues (quiet_signalDie d k n s) o
@[simp] theorem signalDie_die_work (d : Die) (k n : Nat) (s : State) (o : Die) : (die (signalDie d k n s) o).work = (die s o).work := frame_die_work (quiet_signalDie d k n s) o
@[simp] theorem signalDie_die_psgHeld (d : Die) (k n : Nat) (s : State) (o : Die) : (die (signalDie d k n s) o).psgHeld = (die s o).psgHeld := frame_die_psgHeld (quiet_signalDie d k n s) o

@[simp] theorem signalSub_bound (d : Die) (i k n : Nat) (s : State) : (signalSub d i k n s).bound = s.bound := frame_bound (quiet_signalSub d i k n s)
@[simp] theorem signalSub_ops (d : Die) (i k n : Nat) (s : State) : (signalSub d i k n s).ops = s.ops := frame_ops (quiet_signalSub d i k n s)
@[simp] theorem signalSub_seq (d : Die) (i k n : Nat) (s : State) : (signalSub d i k n s).seq = s.seq := frame_seq (quiet_signalSub d i k n s)
@[simp] theorem signalSub_nowNs (d : Die) (i k n : Nat) (s : State) : (signalSub d i k n s).nowNs = s.nowNs := frame_nowNs (quiet_signalSub d i k n s)
@[simp] theorem signalSub_upNs (d : Die) (i k n : Nat) (s : State) : (signalSub d i k n s).upNs = s.upNs := frame_upNs (quiet_signalSub d i k n s)
@[simp] theorem signalSub_dev (d : Die) (i k n : Nat) (s : State) : (signalSub d i k n s).dev = s.dev := frame_dev (quiet_signalSub d i k n s)
@[simp] theorem signalSub_cxlOffset (d : Die) (i k n : Nat) (s : State) : (signalSub d i k n s).cxlOffset = s.cxlOffset := frame_cxlOffset (quiet_signalSub d i k n s)
@[simp] theorem signalSub_ctrgWait (d : Die) (i k n : Nat) (s : State) : (signalSub d i k n s).ctrgWait = s.ctrgWait := frame_ctrgWait (quiet_signalSub d i k n s)
@[simp] theorem signalSub_slots (d : Die) (i k n : Nat) (s : State) : (signalSub d i k n s).slots = s.slots := frame_slots (quiet_signalSub d i k n s)
@[simp] theorem signalSub_rots (d : Die) (i k n : Nat) (s : State) : (signalSub d i k n s).rots = s.rots := frame_rots (quiet_signalSub d i k n s)
@[simp] theorem signalSub_metaKey (d : Die) (i k n : Nat) (s : State) : (signalSub d i k n s).metaKey = s.metaKey := frame_metaKey (quiet_signalSub d i k n s)
@[simp] theorem signalSub_msx (d : Die) (i k n : Nat) (s : State) : (signalSub d i k n s).msx = s.msx := frame_msx (quiet_signalSub d i k n s)
@[simp] theorem signalSub_therm (d : Die) (i k n : Nat) (s : State) : (signalSub d i k n s).therm = s.therm := frame_therm (quiet_signalSub d i k n s)
@[simp] theorem signalSub_psg (d : Die) (i k n : Nat) (s : State) : (signalSub d i k n s).psg = s.psg := frame_psg (quiet_signalSub d i k n s)
@[simp] theorem signalSub_todo (d : Die) (i k n : Nat) (s : State) : (signalSub d i k n s).todo = s.todo := frame_todo (quiet_signalSub d i k n s)
@[simp] theorem signalSub_serves (d : Die) (i k n : Nat) (s : State) : (signalSub d i k n s).serves = s.serves := frame_serves (quiet_signalSub d i k n s)
@[simp] theorem signalSub_tables (d : Die) (i k n : Nat) (s : State) : (signalSub d i k n s).tables = s.tables := frame_tables (quiet_signalSub d i k n s)
@[simp] theorem signalSub_spdm (d : Die) (i k n : Nat) (s : State) : (signalSub d i k n s).spdm = s.spdm := frame_spdm (quiet_signalSub d i k n s)
@[simp] theorem signalSub_tap (d : Die) (i k n : Nat) (s : State) : (signalSub d i k n s).tap = s.tap := frame_tap (quiet_signalSub d i k n s)
@[simp] theorem signalSub_pins (d : Die) (i k n : Nat) (s : State) : (signalSub d i k n s).pins = s.pins := frame_pins (quiet_signalSub d i k n s)
@[simp] theorem signalSub_fw (d : Die) (i k n : Nat) (s : State) : (signalSub d i k n s).fw = s.fw := frame_fw (quiet_signalSub d i k n s)
@[simp] theorem signalSub_sani (d : Die) (i k n : Nat) (s : State) : (signalSub d i k n s).sani = s.sani := frame_sani (quiet_signalSub d i k n s)
@[simp] theorem signalSub_sbXfer (d : Die) (i k n : Nat) (s : State) : (signalSub d i k n s).sbXfer = s.sbXfer := frame_sbXfer (quiet_signalSub d i k n s)
@[simp] theorem signalSub_injected (d : Die) (i k n : Nat) (s : State) : (signalSub d i k n s).injected = s.injected := frame_injected (quiet_signalSub d i k n s)
@[simp] theorem signalSub_freeCtr (d : Die) (i k n : Nat) (s : State) : (signalSub d i k n s).freeCtr = s.freeCtr := frame_freeCtr (quiet_signalSub d i k n s)
@[simp] theorem signalSub_pending (d : Die) (i k n : Nat) (s : State) : (signalSub d i k n s).pending = s.pending := frame_pending (quiet_signalSub d i k n s)
@[simp] theorem signalSub_die_subs (d : Die) (i k n : Nat) (s : State) (o : Die) : (die (signalSub d i k n s) o).subs = (die s o).subs := frame_die_subs (quiet_signalSub d i k n s) o
@[simp] theorem signalSub_die_chans (d : Die) (i k n : Nat) (s : State) (o : Die) : (die (signalSub d i k n s) o).chans = (die s o).chans := frame_die_chans (quiet_signalSub d i k n s) o
@[simp] theorem signalSub_die_sru (d : Die) (i k n : Nat) (s : State) (o : Die) : (die (signalSub d i k n s) o).sru = (die s o).sru := frame_die_sru (quiet_signalSub d i k n s) o
@[simp] theorem signalSub_die_frz (d : Die) (i k n : Nat) (s : State) (o : Die) : (die (signalSub d i k n s) o).frz = (die s o).frz := frame_die_frz (quiet_signalSub d i k n s) o
@[simp] theorem signalSub_die_frzSeq (d : Die) (i k n : Nat) (s : State) (o : Die) : (die (signalSub d i k n s) o).frzSeq = (die s o).frzSeq := frame_die_frzSeq (quiet_signalSub d i k n s) o
@[simp] theorem signalSub_die_cyc (d : Die) (i k n : Nat) (s : State) (o : Die) : (die (signalSub d i k n s) o).cyc = (die s o).cyc := frame_die_cyc (quiet_signalSub d i k n s) o
@[simp] theorem signalSub_die_lmeta (d : Die) (i k n : Nat) (s : State) (o : Die) : (die (signalSub d i k n s) o).lmeta = (die s o).lmeta := frame_die_lmeta (quiet_signalSub d i k n s) o
@[simp] theorem signalSub_die_badNodes (d : Die) (i k n : Nat) (s : State) (o : Die) : (die (signalSub d i k n s) o).badNodes = (die s o).badNodes := frame_die_badNodes (quiet_signalSub d i k n s) o
@[simp] theorem signalSub_die_nodes (d : Die) (i k n : Nat) (s : State) (o : Die) : (die (signalSub d i k n s) o).nodes = (die s o).nodes := frame_die_nodes (quiet_signalSub d i k n s) o
@[simp] theorem signalSub_die_ctrs (d : Die) (i k n : Nat) (s : State) (o : Die) : (die (signalSub d i k n s) o).ctrs = (die s o).ctrs := frame_die_ctrs (quiet_signalSub d i k n s) o
@[simp] theorem signalSub_die_macUnits (d : Die) (i k n : Nat) (s : State) (o : Die) : (die (signalSub d i k n s) o).macUnits = (die s o).macUnits := frame_die_macUnits (quiet_signalSub d i k n s) o
@[simp] theorem signalSub_die_treeUnits (d : Die) (i k n : Nat) (s : State) (o : Die) : (die (signalSub d i k n s) o).treeUnits = (die s o).treeUnits := frame_die_treeUnits (quiet_signalSub d i k n s) o
@[simp] theorem signalSub_die_drbg (d : Die) (i k n : Nat) (s : State) (o : Die) : (die (signalSub d i k n s) o).drbg = (die s o).drbg := frame_die_drbg (quiet_signalSub d i k n s) o
@[simp] theorem signalSub_die_drbgUsed (d : Die) (i k n : Nat) (s : State) (o : Die) : (die (signalSub d i k n s) o).drbgUsed = (die s o).drbgUsed := frame_die_drbgUsed (quiet_signalSub d i k n s) o
@[simp] theorem signalSub_die_drbgSeeds (d : Die) (i k n : Nat) (s : State) (o : Die) : (die (signalSub d i k n s) o).drbgSeeds = (die s o).drbgSeeds := frame_die_drbgSeeds (quiet_signalSub d i k n s) o
@[simp] theorem signalSub_die_drbgStopped (d : Die) (i k n : Nat) (s : State) (o : Die) : (die (signalSub d i k n s) o).drbgStopped = (die s o).drbgStopped := frame_die_drbgStopped (quiet_signalSub d i k n s) o
@[simp] theorem signalSub_die_cks (d : Die) (i k n : Nat) (s : State) (o : Die) : (die (signalSub d i k n s) o).cks = (die s o).cks := frame_die_cks (quiet_signalSub d i k n s) o
@[simp] theorem signalSub_die_refLost (d : Die) (i k n : Nat) (s : State) (o : Die) : (die (signalSub d i k n s) o).refLost = (die s o).refLost := frame_die_refLost (quiet_signalSub d i k n s) o
@[simp] theorem signalSub_die_cdr (d : Die) (i k n : Nat) (s : State) (o : Die) : (die (signalSub d i k n s) o).cdr = (die s o).cdr := frame_die_cdr (quiet_signalSub d i k n s) o
@[simp] theorem signalSub_die_tme (d : Die) (i k n : Nat) (s : State) (o : Die) : (die (signalSub d i k n s) o).tme = (die s o).tme := frame_die_tme (quiet_signalSub d i k n s) o
@[simp] theorem signalSub_die_fpc (d : Die) (i k n : Nat) (s : State) (o : Die) : (die (signalSub d i k n s) o).fpc = (die s o).fpc := frame_die_fpc (quiet_signalSub d i k n s) o
@[simp] theorem signalSub_die_pools (d : Die) (i k n : Nat) (s : State) (o : Die) : (die (signalSub d i k n s) o).pools = (die s o).pools := frame_die_pools (quiet_signalSub d i k n s) o
@[simp] theorem signalSub_die_queues (d : Die) (i k n : Nat) (s : State) (o : Die) : (die (signalSub d i k n s) o).queues = (die s o).queues := frame_die_queues (quiet_signalSub d i k n s) o
@[simp] theorem signalSub_die_work (d : Die) (i k n : Nat) (s : State) (o : Die) : (die (signalSub d i k n s) o).work = (die s o).work := frame_die_work (quiet_signalSub d i k n s) o
@[simp] theorem signalSub_die_psgHeld (d : Die) (i k n : Nat) (s : State) (o : Die) : (die (signalSub d i k n s) o).psgHeld = (die s o).psgHeld := frame_die_psgHeld (quiet_signalSub d i k n s) o

@[simp] theorem addCount_bound (d : Die) (b : RegBlock) (k n : Nat) (s : State) : (addCount d b k n s).bound = s.bound := frame_bound (quiet_addCount d b k n s)
@[simp] theorem addCount_ops (d : Die) (b : RegBlock) (k n : Nat) (s : State) : (addCount d b k n s).ops = s.ops := frame_ops (quiet_addCount d b k n s)
@[simp] theorem addCount_seq (d : Die) (b : RegBlock) (k n : Nat) (s : State) : (addCount d b k n s).seq = s.seq := frame_seq (quiet_addCount d b k n s)
@[simp] theorem addCount_nowNs (d : Die) (b : RegBlock) (k n : Nat) (s : State) : (addCount d b k n s).nowNs = s.nowNs := frame_nowNs (quiet_addCount d b k n s)
@[simp] theorem addCount_upNs (d : Die) (b : RegBlock) (k n : Nat) (s : State) : (addCount d b k n s).upNs = s.upNs := frame_upNs (quiet_addCount d b k n s)
@[simp] theorem addCount_dev (d : Die) (b : RegBlock) (k n : Nat) (s : State) : (addCount d b k n s).dev = s.dev := frame_dev (quiet_addCount d b k n s)
@[simp] theorem addCount_cxlOffset (d : Die) (b : RegBlock) (k n : Nat) (s : State) : (addCount d b k n s).cxlOffset = s.cxlOffset := frame_cxlOffset (quiet_addCount d b k n s)
@[simp] theorem addCount_ctrgWait (d : Die) (b : RegBlock) (k n : Nat) (s : State) : (addCount d b k n s).ctrgWait = s.ctrgWait := frame_ctrgWait (quiet_addCount d b k n s)
@[simp] theorem addCount_slots (d : Die) (b : RegBlock) (k n : Nat) (s : State) : (addCount d b k n s).slots = s.slots := frame_slots (quiet_addCount d b k n s)
@[simp] theorem addCount_rots (d : Die) (b : RegBlock) (k n : Nat) (s : State) : (addCount d b k n s).rots = s.rots := frame_rots (quiet_addCount d b k n s)
@[simp] theorem addCount_metaKey (d : Die) (b : RegBlock) (k n : Nat) (s : State) : (addCount d b k n s).metaKey = s.metaKey := frame_metaKey (quiet_addCount d b k n s)
@[simp] theorem addCount_msx (d : Die) (b : RegBlock) (k n : Nat) (s : State) : (addCount d b k n s).msx = s.msx := frame_msx (quiet_addCount d b k n s)
@[simp] theorem addCount_therm (d : Die) (b : RegBlock) (k n : Nat) (s : State) : (addCount d b k n s).therm = s.therm := frame_therm (quiet_addCount d b k n s)
@[simp] theorem addCount_psg (d : Die) (b : RegBlock) (k n : Nat) (s : State) : (addCount d b k n s).psg = s.psg := frame_psg (quiet_addCount d b k n s)
@[simp] theorem addCount_todo (d : Die) (b : RegBlock) (k n : Nat) (s : State) : (addCount d b k n s).todo = s.todo := frame_todo (quiet_addCount d b k n s)
@[simp] theorem addCount_serves (d : Die) (b : RegBlock) (k n : Nat) (s : State) : (addCount d b k n s).serves = s.serves := frame_serves (quiet_addCount d b k n s)
@[simp] theorem addCount_tables (d : Die) (b : RegBlock) (k n : Nat) (s : State) : (addCount d b k n s).tables = s.tables := frame_tables (quiet_addCount d b k n s)
@[simp] theorem addCount_spdm (d : Die) (b : RegBlock) (k n : Nat) (s : State) : (addCount d b k n s).spdm = s.spdm := frame_spdm (quiet_addCount d b k n s)
@[simp] theorem addCount_tap (d : Die) (b : RegBlock) (k n : Nat) (s : State) : (addCount d b k n s).tap = s.tap := frame_tap (quiet_addCount d b k n s)
@[simp] theorem addCount_pins (d : Die) (b : RegBlock) (k n : Nat) (s : State) : (addCount d b k n s).pins = s.pins := frame_pins (quiet_addCount d b k n s)
@[simp] theorem addCount_fw (d : Die) (b : RegBlock) (k n : Nat) (s : State) : (addCount d b k n s).fw = s.fw := frame_fw (quiet_addCount d b k n s)
@[simp] theorem addCount_sani (d : Die) (b : RegBlock) (k n : Nat) (s : State) : (addCount d b k n s).sani = s.sani := frame_sani (quiet_addCount d b k n s)
@[simp] theorem addCount_sbXfer (d : Die) (b : RegBlock) (k n : Nat) (s : State) : (addCount d b k n s).sbXfer = s.sbXfer := frame_sbXfer (quiet_addCount d b k n s)
@[simp] theorem addCount_injected (d : Die) (b : RegBlock) (k n : Nat) (s : State) : (addCount d b k n s).injected = s.injected := frame_injected (quiet_addCount d b k n s)
@[simp] theorem addCount_freeCtr (d : Die) (b : RegBlock) (k n : Nat) (s : State) : (addCount d b k n s).freeCtr = s.freeCtr := frame_freeCtr (quiet_addCount d b k n s)
@[simp] theorem addCount_pending (d : Die) (b : RegBlock) (k n : Nat) (s : State) : (addCount d b k n s).pending = s.pending := frame_pending (quiet_addCount d b k n s)
@[simp] theorem addCount_die_subs (d : Die) (b : RegBlock) (k n : Nat) (s : State) (o : Die) : (die (addCount d b k n s) o).subs = (die s o).subs := frame_die_subs (quiet_addCount d b k n s) o
@[simp] theorem addCount_die_chans (d : Die) (b : RegBlock) (k n : Nat) (s : State) (o : Die) : (die (addCount d b k n s) o).chans = (die s o).chans := frame_die_chans (quiet_addCount d b k n s) o
@[simp] theorem addCount_die_sru (d : Die) (b : RegBlock) (k n : Nat) (s : State) (o : Die) : (die (addCount d b k n s) o).sru = (die s o).sru := frame_die_sru (quiet_addCount d b k n s) o
@[simp] theorem addCount_die_frz (d : Die) (b : RegBlock) (k n : Nat) (s : State) (o : Die) : (die (addCount d b k n s) o).frz = (die s o).frz := frame_die_frz (quiet_addCount d b k n s) o
@[simp] theorem addCount_die_frzSeq (d : Die) (b : RegBlock) (k n : Nat) (s : State) (o : Die) : (die (addCount d b k n s) o).frzSeq = (die s o).frzSeq := frame_die_frzSeq (quiet_addCount d b k n s) o
@[simp] theorem addCount_die_cyc (d : Die) (b : RegBlock) (k n : Nat) (s : State) (o : Die) : (die (addCount d b k n s) o).cyc = (die s o).cyc := frame_die_cyc (quiet_addCount d b k n s) o
@[simp] theorem addCount_die_lmeta (d : Die) (b : RegBlock) (k n : Nat) (s : State) (o : Die) : (die (addCount d b k n s) o).lmeta = (die s o).lmeta := frame_die_lmeta (quiet_addCount d b k n s) o
@[simp] theorem addCount_die_badNodes (d : Die) (b : RegBlock) (k n : Nat) (s : State) (o : Die) : (die (addCount d b k n s) o).badNodes = (die s o).badNodes := frame_die_badNodes (quiet_addCount d b k n s) o
@[simp] theorem addCount_die_nodes (d : Die) (b : RegBlock) (k n : Nat) (s : State) (o : Die) : (die (addCount d b k n s) o).nodes = (die s o).nodes := frame_die_nodes (quiet_addCount d b k n s) o
@[simp] theorem addCount_die_ctrs (d : Die) (b : RegBlock) (k n : Nat) (s : State) (o : Die) : (die (addCount d b k n s) o).ctrs = (die s o).ctrs := frame_die_ctrs (quiet_addCount d b k n s) o
@[simp] theorem addCount_die_macUnits (d : Die) (b : RegBlock) (k n : Nat) (s : State) (o : Die) : (die (addCount d b k n s) o).macUnits = (die s o).macUnits := frame_die_macUnits (quiet_addCount d b k n s) o
@[simp] theorem addCount_die_treeUnits (d : Die) (b : RegBlock) (k n : Nat) (s : State) (o : Die) : (die (addCount d b k n s) o).treeUnits = (die s o).treeUnits := frame_die_treeUnits (quiet_addCount d b k n s) o
@[simp] theorem addCount_die_drbg (d : Die) (b : RegBlock) (k n : Nat) (s : State) (o : Die) : (die (addCount d b k n s) o).drbg = (die s o).drbg := frame_die_drbg (quiet_addCount d b k n s) o
@[simp] theorem addCount_die_drbgUsed (d : Die) (b : RegBlock) (k n : Nat) (s : State) (o : Die) : (die (addCount d b k n s) o).drbgUsed = (die s o).drbgUsed := frame_die_drbgUsed (quiet_addCount d b k n s) o
@[simp] theorem addCount_die_drbgSeeds (d : Die) (b : RegBlock) (k n : Nat) (s : State) (o : Die) : (die (addCount d b k n s) o).drbgSeeds = (die s o).drbgSeeds := frame_die_drbgSeeds (quiet_addCount d b k n s) o
@[simp] theorem addCount_die_drbgStopped (d : Die) (b : RegBlock) (k n : Nat) (s : State) (o : Die) : (die (addCount d b k n s) o).drbgStopped = (die s o).drbgStopped := frame_die_drbgStopped (quiet_addCount d b k n s) o
@[simp] theorem addCount_die_cks (d : Die) (b : RegBlock) (k n : Nat) (s : State) (o : Die) : (die (addCount d b k n s) o).cks = (die s o).cks := frame_die_cks (quiet_addCount d b k n s) o
@[simp] theorem addCount_die_refLost (d : Die) (b : RegBlock) (k n : Nat) (s : State) (o : Die) : (die (addCount d b k n s) o).refLost = (die s o).refLost := frame_die_refLost (quiet_addCount d b k n s) o
@[simp] theorem addCount_die_cdr (d : Die) (b : RegBlock) (k n : Nat) (s : State) (o : Die) : (die (addCount d b k n s) o).cdr = (die s o).cdr := frame_die_cdr (quiet_addCount d b k n s) o
@[simp] theorem addCount_die_tme (d : Die) (b : RegBlock) (k n : Nat) (s : State) (o : Die) : (die (addCount d b k n s) o).tme = (die s o).tme := frame_die_tme (quiet_addCount d b k n s) o
@[simp] theorem addCount_die_fpc (d : Die) (b : RegBlock) (k n : Nat) (s : State) (o : Die) : (die (addCount d b k n s) o).fpc = (die s o).fpc := frame_die_fpc (quiet_addCount d b k n s) o
@[simp] theorem addCount_die_pools (d : Die) (b : RegBlock) (k n : Nat) (s : State) (o : Die) : (die (addCount d b k n s) o).pools = (die s o).pools := frame_die_pools (quiet_addCount d b k n s) o
@[simp] theorem addCount_die_queues (d : Die) (b : RegBlock) (k n : Nat) (s : State) (o : Die) : (die (addCount d b k n s) o).queues = (die s o).queues := frame_die_queues (quiet_addCount d b k n s) o
@[simp] theorem addCount_die_work (d : Die) (b : RegBlock) (k n : Nat) (s : State) (o : Die) : (die (addCount d b k n s) o).work = (die s o).work := frame_die_work (quiet_addCount d b k n s) o
@[simp] theorem addCount_die_psgHeld (d : Die) (b : RegBlock) (k n : Nat) (s : State) (o : Die) : (die (addCount d b k n s) o).psgHeld = (die s o).psgHeld := frame_die_psgHeld (quiet_addCount d b k n s) o

end Sys2Proof.Machine
end

