-- ==== Sys2Proof/Laws/Maps.lean ====
section
/-!
SUPPORT. Sys2Proof/Laws/Maps.lean: the sparse map: reading after writing, and that every operation keeps the canonical form.
-/

namespace Sys2Proof.Machine

variable {α : Type}

theorem nget_nset (m : NMap α) (i j : Nat) (v : α) : nget (nset m i v) j = if j = i then some v else nget m j := by
  induction m with
  | nil => simp [nset, nget]
  | cons p m ih =>
    obtain ⟨k, w⟩ := p
    simp only [nset]
    split
    · simp [nget]
    · split
      · subst_vars
        simp only [nget]
        split <;> simp_all
      · simp only [nget, ih]
        split <;> split <;> simp_all

@[simp] theorem nget_nset_self (m : NMap α) (i : Nat) (v : α) : nget (nset m i v) i = some v := by simp [nget_nset]

theorem nget_nset_ne (m : NMap α) {i j : Nat} (v : α) (h : j ≠ i) : nget (nset m i v) j = nget m j := by simp [nget_nset, h]

theorem filter_nset (m : NMap α) (i : Nat) (v : α) (p : Nat → Bool) (h : p i = false) :
    (nset m i v).filter (fun x => p x.1) = m.filter (fun x => p x.1) := by
  induction m with
  | nil => simp [nset, h]
  | cons q m ih =>
    obtain ⟨k, w⟩ := q
    simp only [nset]
    split
    · simp [h]
    · split
      · subst_vars
        simp [h]
      · simp only [List.filter_cons]
        split <;> simp_all

@[simp] theorem nerase_nset (m : NMap α) (i : Nat) (v : α) : nerase (nset m i v) i = nerase m i :=
  filter_nset m i v (fun k => k != i) (by simp)

theorem nget_nerase (m : NMap α) (i j : Nat) : nget (nerase m i) j = if j = i then none else nget m j := by
  unfold nerase
  induction m with
  | nil => simp [nget]
  | cons p m ih =>
    obtain ⟨k, v⟩ := p
    simp only [List.filter_cons]
    by_cases hk : k = i
    · subst hk
      simp only [bne_self_eq_false, Bool.false_eq_true, ↓reduceIte, ih, nget]
      split <;> simp_all
    · simp only [bne_iff_ne, ne_eq, hk, not_false_eq_true, ↓reduceIte, nget, ih]
      split <;> split <;> simp_all

theorem nget_map {β : Type} (m : NMap α) (f : Nat → α → β) (j : Nat) :
    nget (m.map (fun p => (p.1, f p.1 p.2))) j = (nget m j).map (f j) := by
  induction m with
  | nil => rfl
  | cons p m ih =>
    obtain ⟨k, v⟩ := p
    simp only [List.map_cons, nget]
    split <;> simp_all

/-! ### The canonical form -/

/-- Every key is at least `n`, and the keys rise strictly. -/
def nwfFrom (n : Nat) : NMap α → Prop
  | [] => True
  | (k, _) :: m => n ≤ k ∧ nwfFrom (k + 1) m

theorem nwfFrom_mono (m : NMap α) {a b : Nat} (h : b ≤ a) (hm : nwfFrom a m) : nwfFrom b m := by
  cases m with
  | nil => trivial
  | cons p m => exact ⟨Nat.le_trans h hm.1, hm.2⟩

theorem nwf_cons (k : Nat) (v : α) (m : NMap α) : nwf ((k, v) :: m) = true ↔ nwfFrom (k + 1) m := by
  induction m generalizing k v with
  | nil => simp [nwf, nwfFrom]
  | cons p m ih =>
    obtain ⟨j, w⟩ := p
    simp [nwf, nwfFrom, ih]

theorem nwf_iff (m : NMap α) : nwf m = true ↔ nwfFrom 0 m := by
  cases m with
  | nil => simp [nwf, nwfFrom]
  | cons p m =>
    obtain ⟨k, v⟩ := p
    simp [nwf_cons, nwfFrom]

theorem nwfFrom_nset (m : NMap α) (n i : Nat) (v : α) (h : nwfFrom n m) (hi : n ≤ i) : nwfFrom n (nset m i v) := by
  induction m generalizing n with
  | nil => exact ⟨hi, trivial⟩
  | cons p m ih =>
    obtain ⟨k, w⟩ := p
    simp only [nset]
    split
    · exact ⟨hi, ⟨by omega, h.2⟩⟩
    · split
      · exact ⟨h.1, h.2⟩
      · exact ⟨h.1, ih _ h.2 (by omega)⟩

theorem nwfFrom_filter (m : NMap α) (n : Nat) (p : Nat × α → Bool) (h : nwfFrom n m) : nwfFrom n (m.filter p) := by
  induction m generalizing n with
  | nil => trivial
  | cons q m ih =>
    obtain ⟨k, w⟩ := q
    simp only [List.filter_cons]
    split
    · exact ⟨h.1, ih _ h.2⟩
    · exact nwfFrom_mono _ (Nat.le_succ_of_le h.1) (ih _ h.2)

/-- A write keeps the canonical form. -/
theorem nwf_nset (m : NMap α) (i : Nat) (v : α) (h : nwf m = true) : nwf (nset m i v) = true :=
  (nwf_iff _).mpr (nwfFrom_nset m 0 i v ((nwf_iff m).mp h) (Nat.zero_le i))

/-- Taking keys out keeps the canonical form. -/
theorem nwf_nerase (m : NMap α) (i : Nat) (h : nwf m = true) : nwf (nerase m i) = true :=
  (nwf_iff _).mpr (nwfFrom_filter m 0 _ ((nwf_iff m).mp h))

theorem nwf_neraseRange (m : NMap α) (lo n : Nat) (h : nwf m = true) : nwf (neraseRange m lo n) = true :=
  (nwf_iff _).mpr (nwfFrom_filter m 0 _ ((nwf_iff m).mp h))

theorem nwf_nmod (m : NMap α) (i : Nat) (d : α) (f : α → α) (h : nwf m = true) : nwf (nmod m i d f) = true := nwf_nset m i _ h

theorem nwf_nupd (m : NMap α) (i : Nat) (f : α → α) (h : nwf m = true) : nwf (nupd m i f) = true := by
  unfold nupd
  split
  · exact nwf_nset m i _ h
  · exact h

end Sys2Proof.Machine
end

