-- ==== Sys2Proof/Laws/Regs.lean ====
section
/-!
SUPPORT. Sys2Proof/Laws/Regs.lean: a field that has been written reads back; and the registers that posting an event may write, so that
every other register keeps its value.
-/

namespace Sys2Proof.Machine

/-! ### Bit fields -/

theorem fld_lt (v lo w : Nat) : fld v lo w < 2 ^ w := Nat.mod_lt _ (Nat.two_pow_pos w)

theorem setFld_testBit (v lo w x i : Nat) :
    (setFld v lo w x).testBit i = if lo ≤ i ∧ i < lo + w then x.testBit (i - lo) else v.testBit i := by
  have hv : v = (v >>> (lo + w)) <<< (lo + w) ||| (fld v lo w) <<< lo ||| v % 2 ^ lo := by
    apply Nat.eq_of_testBit_eq
    intro j
    simp only [fld, Nat.testBit_or, Nat.testBit_shiftLeft, Nat.testBit_shiftRight, Nat.testBit_mod_two_pow]
    by_cases h1 : lo + w ≤ j
    · have h2 : lo ≤ j := by omega
      have h3 : ¬ (j - lo < w) := by omega
      have h4 : ¬ (j < lo) := by omega
      have h5 : lo + w + (j - (lo + w)) = j := by omega
      simp [h1, h3, h4, h5]
    · by_cases h2 : lo ≤ j
      · have h3 : j - lo < w := by omega
        have h4 : ¬ (j < lo) := by omega
        have h5 : lo + (j - lo) = j := by omega
        simp [h1, h2, h3, h4, h5]
      · have h4 : j < lo := by omega
        simp [h1, h2, h4]
  have hs : setFld v lo w x = (v >>> (lo + w)) <<< (lo + w) ||| (x % 2 ^ w) <<< lo ||| v % 2 ^ lo := by
    have e1 : ∀ y, y < 2 ^ w → (v >>> (lo + w)) <<< (lo + w) ||| y <<< lo ||| v % 2 ^ lo =
        (v >>> (lo + w)) <<< (lo + w) + y <<< lo + v % 2 ^ lo := by
      intro y hy
      have h1 : y <<< lo < 2 ^ (lo + w) := by
        rw [Nat.shiftLeft_eq, Nat.pow_add, Nat.mul_comm]
        exact Nat.mul_lt_mul_of_pos_left hy (Nat.two_pow_pos lo)
      rw [← Nat.shiftLeft_add_eq_or_of_lt h1, Nat.pow_add] at *
      have h2 : v % 2 ^ lo < 2 ^ lo := Nat.mod_lt _ (Nat.two_pow_pos lo)
      have h3 : (v >>> (lo + w)) <<< (lo + w) + y <<< lo = ((v >>> (lo + w)) <<< w + y) <<< lo := by
        simp only [Nat.shiftLeft_eq, Nat.pow_add]
        ring
      rw [h3, Nat.shiftLeft_add_eq_or_of_lt h2]
    rw [e1 _ (Nat.mod_lt _ (Nat.two_pow_pos w))]
    rw [e1 _ (fld_lt v lo w)] at hv
    unfold setFld
    generalize (v >>> (lo + w)) <<< (lo + w) = a at *
    generalize (fld v lo w) <<< lo = b at *
    generalize (x % 2 ^ w) <<< lo = c at *
    generalize v % 2 ^ lo = m at *
    omega
  rw [hs]
  simp only [Nat.testBit_or, Nat.testBit_shiftLeft, Nat.testBit_shiftRight, Nat.testBit_mod_two_pow]
  by_cases h1 : lo + w ≤ i
  · have h2 : lo ≤ i := by omega
    have h3 : ¬ (i - lo < w) := by omega
    have h4 : ¬ (i < lo) := by omega
    have h5 : lo + w + (i - (lo + w)) = i := by omega
    have h6 : ¬ (lo ≤ i ∧ i < lo + w) := by omega
    simp [h1, h3, h4, h5, h6]
  · by_cases h2 : lo ≤ i
    · have h3 : i - lo < w := by omega
      have h4 : ¬ (i < lo) := by omega
      have h6 : lo ≤ i ∧ i < lo + w := by omega
      simp [h1, h2, h3, h4, h6]
    · have h4 : i < lo := by omega
      simp [h1, h2, h4]

theorem fld_testBit (v lo w i : Nat) : (fld v lo w).testBit i = (decide (i < w) && v.testBit (lo + i)) := by
  simp [fld, Nat.testBit_mod_two_pow, Nat.testBit_shiftRight]

theorem fld_setFld_self (v lo w x : Nat) : fld (setFld v lo w x) lo w = x % 2 ^ w := by
  apply Nat.eq_of_testBit_eq
  intro i
  rw [fld_testBit, setFld_testBit, Nat.testBit_mod_two_pow]
  by_cases h : i < w <;> simp [h]

theorem fld_setFld_ne (v lo w x lo' w' : Nat) (h : lo' + w' ≤ lo ∨ lo + w ≤ lo') : fld (setFld v lo w x) lo' w' = fld v lo' w' := by
  apply Nat.eq_of_testBit_eq
  intro i
  rw [fld_testBit, fld_testBit, setFld_testBit]
  by_cases h1 : i < w'
  · have h2 : ¬ (lo ≤ lo' + i ∧ lo' + i < lo + w) := by omega
    simp [h2]
  · simp [h1]

theorem fld_mod (v lo w n : Nat) (h : lo + w ≤ n) : fld (v % 2 ^ n) lo w = fld v lo w := by
  apply Nat.eq_of_testBit_eq
  intro i
  rw [fld_testBit, fld_testBit, Nat.testBit_mod_two_pow]
  by_cases h1 : i < w
  · have : lo + i < n := by omega
    simp [this]
  · simp [h1]

/-! ### Registers -/

theorem rdReg_wrReg_self (r : RegName) (d : Die) (i v : Nat) (s : State) : rdReg (wrReg r d i v s) r d i = v % 2 ^ 32 := by
  simp [rdReg, wrReg]

theorem rdReg_wrReg_ne (r q : RegName) (d e : Die) (i j v : Nat) (s : State) (h : regAddr q e j ≠ regAddr r d i) :
    rdReg (wrReg r d i v s) q e j = rdReg s q e j := by
  simp [rdReg, wrReg, nget_nset_ne _ _ h]

/-- A field that lies in its register reads back what was written to it. -/
theorem rf_wf_self (f : Fld) (d : Die) (i v : Nat) (s : State) (h : f.lo + f.w ≤ 32) : rf (wf f d i v s) f d i = v % 2 ^ f.w := by
  unfold rf wf
  rw [rdReg_wrReg_self, fld_mod _ _ _ _ h, fld_setFld_self]

/-- Another field of the same register keeps its value. -/
theorem rf_wf_field (f g : Fld) (d : Die) (i v : Nat) (s : State) (hr : g.reg = f.reg) (hg : g.lo + g.w ≤ 32)
    (h : g.lo + g.w ≤ f.lo ∨ f.lo + f.w ≤ g.lo) : rf (wf f d i v s) g d i = rf s g d i := by
  unfold rf wf
  rw [hr, rdReg_wrReg_self, fld_mod _ _ _ _ hg, fld_setFld_ne _ _ _ _ _ _ h]

/-- A field of a register at another place keeps its value. -/
theorem rf_wf_ne (f g : Fld) (d e : Die) (i j v : Nat) (s : State) (h : regAddr g.reg e j ≠ regAddr f.reg d i) :
    rf (wf f d i v s) g e j = rf s g e j := by
  unfold rf wf
  rw [rdReg_wrReg_ne _ _ _ _ _ _ _ _ h]

/-! ### What posting leaves of the registers -/

/-- The places that posting an event may write: the event rings' pointers, controls and losses, CPR_STATUS, the snapshot trigger and its
status, and the overflow flags of the counters. -/
def postPlaces : List Nat :=
  [Die.east, Die.west].flatMap (fun d =>
    (List.range 4).flatMap (fun e => [regAddr .CPR_EQ_PTR d e, regAddr .CPR_EQ_CTRL d e, regAddr .CPR_EQ_LOST d e]) ++
      [regAddr .CPR_STATUS d 0, regAddr .PMC_OVF_LO d 0, regAddr .PMC_OVF_HI d 0]) ++
    [regAddr .CTRG_CTRL .east 0, regAddr .CTRG_STATUS .east 0]

/-- Two states agree on the registers outside the places that posting may write. -/
def SameRegs (a b : State) : Prop := ∀ x, x ∉ postPlaces → nget a.regs x = nget b.regs x

theorem SameRegs.rfl' {s : State} : SameRegs s s := fun _ _ => rfl
theorem SameRegs.trans {a b c : State} (h : SameRegs a b) (g : SameRegs b c) : SameRegs a c := fun x hx => (h x hx).trans (g x hx)
theorem sameRegs_of_eq {a b : State} (h : a.regs = b.regs) : SameRegs a b := fun x _ => by rw [h]

theorem sameRegs_wf (f : Fld) (d : Die) (i v : Nat) (s : State) (h : regAddr f.reg d i ∈ postPlaces) : SameRegs (wf f d i v s) s := by
  intro x hx
  have : x ≠ regAddr f.reg d i := fun e => hx (e ▸ h)
  simp [wf, wrReg, nget_nset_ne _ _ this]

theorem sameRegs_each {α : Type} (l : List α) (f : α → State → State) (h : ∀ x ∈ l, ∀ s, SameRegs (f x s) s) (s : State) :
    SameRegs (each l f s) s := by
  unfold each
  induction l generalizing s with
  | nil => exact SameRegs.rfl'
  | cons x l ih =>
    exact (ih (fun y hy => h y (List.mem_cons_of_mem x hy)) (f x s)).trans (h x List.mem_cons_self s)

theorem sameRegs_onlyIf (c : Bool) (f : State → State) (s : State) (h : SameRegs (f s) s) : SameRegs (onlyIf c f s) s := by
  cases c
  · exact SameRegs.rfl'
  · exact h

theorem sameRegs_onDie (d : Die) (f : DieSt → DieSt) (s : State) : SameRegs (onDie d f s) s := sameRegs_of_eq (by simp)

theorem sameRegs_sendIrq (d : Die) (v : Nat) (s : State) : SameRegs (sendIrq d v s) s := by
  unfold sendIrq
  split
  · exact sameRegs_onDie d _ s
  · exact sameRegs_of_eq (by simp [addCount])

theorem sameRegs_eqMod (d : Die) (e : Nat) (s : State) : SameRegs (eqMod d e s) s := by
  unfold eqMod
  dsimp only
  split
  · exact (sameRegs_sendIrq d _ _).trans (sameRegs_onDie d _ s)
  · exact sameRegs_onDie d _ s

theorem eqPlaces (d : Die) (e : Nat) (h : e < 4) : regAddr .CPR_EQ_PTR d e ∈ postPlaces ∧ regAddr .CPR_EQ_CTRL d e ∈ postPlaces ∧
    regAddr .CPR_EQ_LOST d e ∈ postPlaces := by
  have : e = 0 ∨ e = 1 ∨ e = 2 ∨ e = 3 := by omega
  rcases this with rfl | rfl | rfl | rfl <;> cases d <;> decide +kernel

theorem sameRegs_eqPut (d : Die) (e : Nat) (r : EventRec) (s : State) (h : e < 4) : SameRegs (eqPut d e r s) s := by
  unfold eqPut
  dsimp only
  refine (sameRegs_eqMod d e _).trans ((sameRegs_onlyIf _ _ _ (sameRegs_wf _ d e _ _ (eqPlaces d e h).2.1)).trans
    ((sameRegs_wf _ d e _ _ (eqPlaces d e h).1).trans (sameRegs_of_eq (by simp))))

theorem sameRegs_addCount (d : Die) (b : RegBlock) (k n : Nat) (s : State) : SameRegs (addCount d b k n s) s := sameRegs_onDie d _ s

theorem statusPlace (d : Die) : regAddr .CPR_STATUS d 0 ∈ postPlaces := by cases d <;> decide +kernel

theorem sameRegs_eqOffer (d : Die) (e : Nat) (r : EventRec) (s : State) (h : e < 4) : SameRegs (eqOffer d e r s) s := by
  unfold eqOffer
  split
  · split
    · refine (sameRegs_addCount d _ _ _ _).trans ((sameRegs_wf _ d e _ _ (eqPlaces d e h).2.2).trans
        (sameRegs_onlyIf _ _ _ (sameRegs_wf _ d 0 _ _ (statusPlace d))))
    · exact (sameRegs_addCount d _ _ _ _).trans (sameRegs_eqPut d e r s h)
  · exact SameRegs.rfl'

theorem sameRegs_logPut (p : Die) (k : Nat) (r : EventRec) (dla : Option Nat) (s : State) : SameRegs (logPut p k r dla s) s := by
  unfold logPut
  dsimp only
  split
  · split
    · exact (sameRegs_sendIrq _ _ _).trans (sameRegs_onDie _ _ s)
    · exact sameRegs_onDie _ _ s
  · exact sameRegs_onDie _ _ s

theorem sameRegs_requestSnap (s : State) : SameRegs (requestSnap s) s := by
  unfold requestSnap
  split
  · exact SameRegs.rfl'
  · exact (sameRegs_wf F.CTRG_STATUS.BUSY .east 0 1 _ (by decide +kernel)).trans (sameRegs_of_eq rfl)

theorem sameRegs_deliver (d : Die) (r : EventRec) (dla bind : Option Nat) (s : State) : SameRegs (deliver d r dla bind s) s := by
  unfold deliver
  dsimp only
  refine (sameRegs_onlyIf _ _ _ (sameRegs_of_eq (by simp))).trans ?_
  have h1 : SameRegs (each (recordDies s d) (fun o => each (List.range 4) (fun e => eqOffer o e r)) s) s :=
    sameRegs_each _ _ (fun o _ t => sameRegs_each _ _ (fun e he u => sameRegs_eqOffer o e r u (List.mem_range.mp he)) t) s
  split
  · exact (sameRegs_of_eq rfl).trans h1
  · refine SameRegs.trans (sameRegs_of_eq rfl) (SameRegs.trans (sameRegs_each _ _ (fun p _ u => sameRegs_logPut p _ r dla u) _) h1)

theorem sameRegs_deliverEv (d : Die) (e : Ev) (s : State) : SameRegs (deliverEv d e s) s := sameRegs_deliver d _ _ _ s

theorem ovfPlaces (d : Die) : regAddr .PMC_OVF_LO d 0 ∈ postPlaces ∧ regAddr .PMC_OVF_HI d 0 ∈ postPlaces := by
  cases d <;> decide +kernel

theorem sameRegs_ctrBump (d : Die) (n k : Nat) (s : State) : SameRegs (ctrBump d n k s).2 s := by
  unfold ctrBump
  dsimp only
  split
  · exact sameRegs_onDie d _ s
  · split
    · exact (sameRegs_wf F.PMC_OVF_LO.OVF d 0 _ _ (ovfPlaces d).1).trans (sameRegs_onDie d _ s)
    · exact (sameRegs_wf F.PMC_OVF_HI.OVF d 0 _ _ (ovfPlaces d).2).trans (sameRegs_onDie d _ s)

theorem sameRegs_ctrAdd (d : Die) (n k : Nat) (s : State) : SameRegs (ctrAdd d n k s).2 s := by
  unfold ctrAdd
  dsimp only
  split
  · split
    · exact (sameRegs_ctrBump d _ _ _).trans (sameRegs_ctrBump d n k s)
    · exact sameRegs_ctrBump d n k s
  · exact sameRegs_ctrBump d n k s

theorem sameRegs_foldAdd (d : Die) (k : Nat) (l : List (Nat × Nat)) (a : List Nat × State) :
    SameRegs (l.foldl (fun (a : List Nat × State) p => let (w, t) := ctrAdd d p.1 k a.2; (a.1 ++ w, t)) a).2 a.2 := by
  induction l generalizing a with
  | nil => exact SameRegs.rfl'
  | cons p l ih => exact (ih _).trans (sameRegs_ctrAdd d p.1 k a.2)

theorem sameRegs_ctrTally (d : Die) (sel lch : Nat) (sb : Option Nat) (k : Nat) (s : State) : SameRegs (ctrTally d sel lch sb k s).2 s := by
  unfold ctrTally
  split
  · exact sameRegs_foldAdd d k _ _
  · exact SameRegs.rfl'

theorem sameRegs_setPost (d : Die) (key : Nat) (p : PostLim) (s : State) : SameRegs (setPost d key p s) s := sameRegs_onDie d _ s

theorem sameRegs_holdPost (d : Die) (key : Nat) (p : PostLim) (e : Ev) (acc : List Nat) (s : State) :
    SameRegs (holdPost d key p e acc s) s := sameRegs_onDie d _ s

theorem sameRegs_occurred (n : Nat) (d : Die) (code loc : Nat) (s : State) : SameRegs (occurred n d code loc s) s := by
  induction n generalizing code loc s with
  | zero => exact SameRegs.rfl'
  | succ n ih =>
    unfold occurred
    dsimp only
    refine (sameRegs_each _ _ ?_ _).trans ((sameRegs_ctrTally d code _ _ 1 _).trans ?_)
    · intro x _ t
      split
      · split
        · exact (ih _ _ _).trans ((sameRegs_deliverEv d _ _).trans (sameRegs_setPost d _ _ t))
        · exact (ih _ _ _).trans (sameRegs_holdPost d _ _ _ _ t)
      · exact (ih _ _ _).trans ((sameRegs_deliverEv d _ _).trans (sameRegs_setPost d _ _ t))
    · split
      · refine (ih _ _ _).trans ((sameRegs_deliverEv d _ _).trans ((sameRegs_requestSnap _).trans
          ((sameRegs_wf F.CTRG_STATUS.TRIGGERED .east 0 1 _ (by decide +kernel)).trans
            (sameRegs_wf F.CTRG_CTRL.TRIG_EN .east 0 0 _ (by decide +kernel)))))
      · exact SameRegs.rfl'

theorem sameRegs_post (d : Die) (e : Ev) (s : State) : SameRegs (post d e s) s :=
  (sameRegs_occurred 4 d _ _ _).trans (sameRegs_deliverEv d e s)

theorem sameRegs_postLim (d : Die) (scope : Nat) (e : Ev) (acc : List Nat) (s : State) : SameRegs (postLim d scope e acc s) s := by
  unfold postLim
  split
  · exact sameRegs_post d e s
  · dsimp only
    split
    · split
      · exact (sameRegs_post d _ _).trans (sameRegs_setPost d _ _ s)
      · exact (sameRegs_occurred 4 d _ _ _).trans (sameRegs_holdPost d _ _ _ _ s)
    · exact (sameRegs_post d _ _).trans (sameRegs_setPost d _ _ s)

theorem sameRegs_signal (d : Die) (sel lch : Nat) (sb : Option Nat) (k : Nat) (s : State) : SameRegs (signal d sel lch sb k s) s := by
  unfold signal
  dsimp only
  exact (sameRegs_each _ _ (fun n _ t => sameRegs_postLim d n _ _ t) _).trans (sameRegs_ctrTally d sel lch sb k s)

/-- A field of a register that no posting writes has the same value in states that agree on such registers. -/
theorem rf_sameRegs {a b : State} (h : SameRegs a b) (f : Fld) (d : Die) (i : Nat) (hp : regAddr f.reg d i ∉ postPlaces) :
    rf a f d i = rf b f d i := by
  simp only [rf, rdReg, h _ hp]

theorem rf_post (f : Fld) (o d : Die) (i : Nat) (e : Ev) (s : State) (hp : regAddr f.reg d i ∉ postPlaces) :
    rf (post o e s) f d i = rf s f d i := rf_sameRegs (sameRegs_post o e s) f d i hp

theorem rf_postLim (f : Fld) (o d : Die) (i k : Nat) (e : Ev) (a : List Nat) (s : State) (hp : regAddr f.reg d i ∉ postPlaces) :
    rf (postLim o k e a s) f d i = rf s f d i := rf_sameRegs (sameRegs_postLim o k e a s) f d i hp

theorem rf_signalDie (f : Fld) (o d : Die) (i sel k : Nat) (s : State) (hp : regAddr f.reg d i ∉ postPlaces) :
    rf (signalDie o sel k s) f d i = rf s f d i := rf_sameRegs (sameRegs_signal o sel 7 none k s) f d i hp

theorem rf_signalSub (f : Fld) (o d : Die) (i j sel k : Nat) (s : State) (hp : regAddr f.reg d i ∉ postPlaces) :
    rf (signalSub o j sel k s) f d i = rf s f d i := rf_sameRegs (sameRegs_signal o sel _ _ k s) f d i hp

/-- No posting writes a register of a channel's blocks. -/
theorem notPost_chan (r : RegName) (d : Die) (c : Nat) (hb : blockChannel (regPlace r).block = true)
    (hn : blockCommon (regPlace r).block = false) (hc : c < 6) : regAddr r d c ∉ postPlaces := by
  have h : ∀ x ∈ postPlaces, x < 0x100000 ∨ (0x400000 ≤ x ∧ x < 0x500000) ∨ 0x800000 ≤ x := by decide +kernel
  intro hx
  have := h _ hx
  have ho : 0x100000 ≤ blockBase (regPlace r).block ∧ blockBase (regPlace r).block + (regPlace r).off < 0x110000 := by
    cases r <;> first | (exfalso; revert hb; decide) | decide
  unfold regAddr at this
  simp only [hb, hn] at this
  cases d <;> simp [windowBase] at this <;> omega

end Sys2Proof.Machine
end

