-- ==== Sys2Proof/Laws/Settle.lean ====
section
/-!
SUPPORT. Sys2Proof/Laws/Settle.lean: what the end of a step does: with nothing left from before it is no change, and after it nothing is
left to be done.
-/

namespace Sys2Proof.Machine

theorem drain_none (n : Nat) (s : State) (h : s.todo = []) : drain n s = s := by
  cases n with
  | zero => cases s; simp_all [drain]
  | succ n => simp [drain, h]

theorem drain_todo (n : Nat) (s : State) : (drain n s).todo = [] := by
  induction n generalizing s with
  | zero => rfl
  | succ n ih =>
    unfold drain
    split
    · assumption
    · exact ih _

theorem settle_todo (s : State) : (settle s).todo = [] := drain_todo _ _

theorem salvageMoves_none (d : Die) (s : State) (h : (die s d).sru.salvage = none) : salvageMoves d s = s := by
  simp [salvageMoves, h]

/-- The end of a step changes nothing where nothing is left to be done. -/
theorem settle_idle (s : State) (h : s.Idle) : settle s = s := by
  have he : salvageMoves .east s = s := salvageMoves_none .east s h.2.2.1
  have hw : salvageMoves .west s = s := salvageMoves_none .west s h.2.2.2
  have hm : each [Die.east, Die.west] salvageMoves s = s := by simp [each, he, hw]
  have hs : saniAdvance s = s := by simp [saniAdvance, h.2.1]
  simp only [settle, drain_none _ s h.1, hm, hs]

theorem idle_of_quiet {a b : State} (h : a.quiet = b.quiet) (hb : b.Idle) : a.Idle :=
  ⟨(frame_todo h).trans hb.1, (frame_sani h).trans hb.2.1,
   (congrArg SruSt.salvage (frame_die_sru h .east)).trans hb.2.2.1,
   (congrArg SruSt.salvage (frame_die_sru h .west)).trans hb.2.2.2⟩

end Sys2Proof.Machine
end

