-- ==== Sys2Proof/Laws/Places.lean ====
section
/-!
SUPPORT. Sys2Proof/Laws/Places.lean: what a change of a subchannel, a channel or a rank leaves, and what is left alone by a command on one
of them.
-/

namespace Sys2Proof.Machine

@[simp] theorem sub_onSub (s : State) (d : Die) (i : Nat) (f : SubSt → SubSt) : sub (onSub d i f s) d i = f (sub s d i) := by
  simp [sub, onSub, nmod, ngetD]
theorem sub_onSub_ne (s : State) (d : Die) (i j : Nat) (f : SubSt → SubSt) (h : j ≠ i) : sub (onSub d i f s) d j = sub s d j := by
  simp [sub, onSub, nmod, ngetD, nget_nset_ne _ _ h]
theorem sub_onSub_die (s : State) (d e : Die) (i j : Nat) (f : SubSt → SubSt) (h : e ≠ d) : sub (onSub d i f s) e j = sub s e j := by
  simp [sub, onSub, die_onDie_ne d e _ s h]
@[simp] theorem sub_onChan (s : State) (d e : Die) (c i : Nat) (f : ChanSt → ChanSt) : sub (onChan e c f s) d i = sub s d i := by
  simp [sub]
@[simp] theorem chan_onSub (s : State) (d e : Die) (c i : Nat) (f : SubSt → SubSt) : chan (onSub e i f s) d c = chan s d c := by
  simp [chan]
@[simp] theorem chan_onChan (s : State) (d : Die) (c : Nat) (f : ChanSt → ChanSt) : chan (onChan d c f s) d c = f (chan s d c) := by
  simp [chan, onChan, nmod, ngetD]
@[simp] theorem sub_logCmd (s : State) (d e : Die) (k : Cmd) (i r g b x : Nat) (n : Bool) (j : Nat) :
    sub (logCmd d k i r g b x n s) e j = sub s e j := by simp [logCmd]
@[simp] theorem sub_signalSub (s : State) (d e : Die) (i k n j : Nat) : sub (signalSub d i k n s) e j = sub s e j := by simp [sub]
@[simp] theorem sub_signalDie (s : State) (d e : Die) (k n j : Nat) : sub (signalDie d k n s) e j = sub s e j := by simp [sub]
@[simp] theorem sub_post (s : State) (d e : Die) (v : Ev) (j : Nat) : sub (post d v s) e j = sub s e j := by simp [sub]
@[simp] theorem chan_post (s : State) (d e : Die) (v : Ev) (j : Nat) : chan (post d v s) e j = chan s e j := by simp [chan]
@[simp] theorem sub_wf (s : State) (f : Fld) (d e : Die) (i v j : Nat) : sub (wf f d i v s) e j = sub s e j := by simp [sub]
@[simp] theorem chan_wf (s : State) (f : Fld) (d e : Die) (i v j : Nat) : chan (wf f d i v s) e j = chan s e j := by simp [chan]
@[simp] theorem sub_send (s : State) (m : OutMsg) (e : Die) (j : Nat) : sub (send m s) e j = sub s e j := by simp [sub]
@[simp] theorem chan_send (s : State) (m : OutMsg) (e : Die) (j : Nat) : chan (send m s) e j = chan s e j := by simp [chan]
theorem sub_onlyIf (c : Bool) (f : State → State) (s : State) (e : Die) (j : Nat) (h : sub (f s) e j = sub s e j) :
    sub (onlyIf c f s) e j = sub s e j := by cases c <;> simp [onlyIf, h]

@[simp] theorem rankOf_onRank (b : SubSt) (r : Nat) (f : RankSt → RankSt) : rankOf (onRank r f b) r = f (rankOf b r) := by
  unfold rankOf onRank
  split <;> simp_all
@[simp] theorem banks_onRank (b : SubSt) (r : Nat) (f : RankSt → RankSt) : (onRank r f b).banks = b.banks := by
  unfold onRank
  split <;> rfl
@[simp] theorem cells_onRank (b : SubSt) (r : Nat) (f : RankSt → RankSt) : (onRank r f b).cells = b.cells := by
  unfold onRank
  split <;> rfl
@[simp] theorem bankOf_onBank (b : SubSt) (k : Nat) (f : BankSt → BankSt) : bankOf (onBank k f b) k = f (bankOf b k) := by
  simp [bankOf, onBank, nmod, ngetD]
theorem bankOf_onBank_ne (b : SubSt) (k j : Nat) (f : BankSt → BankSt) (h : j ≠ k) : bankOf (onBank k f b) j = bankOf b j := by
  simp [bankOf, onBank, nmod, ngetD, nget_nset_ne _ _ h]

theorem onSub_congr (s : State) (d : Die) (i : Nat) (f g : SubSt → SubSt) (h : f (sub s d i) = g (sub s d i)) :
    onSub d i f s = onSub d i g s := by
  cases d <;> simp [onSub, onDie, nmod] <;> simp [sub, die] at h <;> rw [h]
theorem onRank_congr (b : SubSt) (r : Nat) (f g : RankSt → RankSt) (h : f (rankOf b r) = g (rankOf b r)) :
    onRank r f b = onRank r g b := by
  unfold onRank
  unfold rankOf at h
  split <;> simp_all

/-! ### What is left alone -/

theorem butSub_of_quiet {a b : State} (d : Die) (i : Nat) (h : a.quiet = b.quiet) : butSub d i a = butSub d i b := by simp [butSub, h]
theorem butChan_of_quiet {a b : State} (d : Die) (c : Nat) (h : a.quiet = b.quiet) : butChan d c a = butChan d c b := by simp [butChan, h]
theorem butDie_of_quiet {a b : State} (d : Die) (h : a.quiet = b.quiet) : butDie d a = butDie d b := by simp [butDie, h]

@[simp] theorem butSub_onSub (s : State) (d : Die) (i : Nat) (f : SubSt → SubSt) : butSub d i (onSub d i f s) = butSub d i s := by
  cases d <;> simp [butSub, onSub, onDie, State.quiet, DieSt.quiet, nmod]
theorem butChan_onSub_of (s : State) (d : Die) (i c : Nat) (f : SubSt → SubSt) (hc : i / 2 = c) :
    butChan d c (onSub d i f s) = butChan d c s := by
  have h := fun (m : NMap SubSt) v => filter_nset m i v (fun k => k / 2 != c) (by simp [hc])
  cases d <;> simp [butChan, onSub, onDie, State.quiet, DieSt.quiet, nmod, h]
@[simp] theorem butChan_onSub (s : State) (d : Die) (i : Nat) (f : SubSt → SubSt) :
    butChan d (i / 2) (onSub d i f s) = butChan d (i / 2) s := butChan_onSub_of s d i (i / 2) f rfl
@[simp] theorem butChan_onChan (s : State) (d : Die) (c : Nat) (f : ChanSt → ChanSt) : butChan d c (onChan d c f s) = butChan d c s := by
  cases d <;> simp [butChan, onChan, onDie, State.quiet, DieSt.quiet, nmod]
@[simp] theorem butChan_logCmd (s : State) (d : Die) (k : Cmd) (i r g b x : Nat) (n : Bool) :
    butChan d (i / 2) (logCmd d k i r g b x n s) = butChan d (i / 2) s := by simp [logCmd]
@[simp] theorem butChan_post (s : State) (d e : Die) (c : Nat) (v : Ev) : butChan d c (post e v s) = butChan d c s :=
  butChan_of_quiet d c (quiet_post e v s)
@[simp] theorem butChan_wf (s : State) (f : Fld) (d e : Die) (c i v : Nat) : butChan d c (wf f e i v s) = butChan d c s :=
  butChan_of_quiet d c (quiet_wf f e i v s)
@[simp] theorem butChan_setFlag (s : State) (f : Fld) (d e : Die) (c i : Nat) : butChan d c (setFlag f e i s) = butChan d c s := butChan_wf s f d e c i 1
@[simp] theorem butChan_cntF (s : State) (f : Fld) (d e : Die) (c i n : Nat) : butChan d c (cntF f e i n s) = butChan d c s := butChan_wf s f d e c i _
@[simp] theorem butChan_send (s : State) (m : OutMsg) (d : Die) (c : Nat) : butChan d c (send m s) = butChan d c s :=
  butChan_of_quiet d c (quiet_send m s)
@[simp] theorem butChan_signalSub (s : State) (d e : Die) (c i k n : Nat) : butChan d c (signalSub e i k n s) = butChan d c s :=
  butChan_of_quiet d c (quiet_signalSub e i k n s)
theorem butChan_onlyIf (b : Bool) (f : State → State) (s : State) (d : Die) (c : Nat) (h : butChan d c (f s) = butChan d c s) :
    butChan d c (onlyIf b f s) = butChan d c s := by cases b <;> simp [onlyIf, h]
theorem butDie_onDie (s : State) (d : Die) (f : DieSt → DieSt) : butDie d (onDie d f s) = butDie d s := by cases d <;> rfl

end Sys2Proof.Machine
end

