-- ==== Sys2Proof/WellFormed.lean ====
section
/-!
DEFINITION. Sys2Proof/WellFormed.lean: which commands are well formed: every operand within the range that the spec gives what it
names. A command that is not well formed names no part of the device.
-/

namespace Sys2Proof

/-- The fields of an IFT header fit their widths, and the payload is one that a frame can carry (Table 11.2). -/
def Frame.wf (f : Frame) : Bool :=
  decide (f.ver < 16) && decide (f.op < 256) && decide (f.session < 16) && decide (f.status < 256) && decide (f.dst < 2 ^ 16) &&
    decide (f.src < 2 ^ 16) && decide (f.seq < 2 ^ 24) && decide (f.ack < 2 ^ 24) && decide (f.len < 2 ^ 16) &&
    decide (f.tag < 2 ^ 16) && decide (f.arg < 2 ^ 48) && decide (f.payload.length ≤ 4096)

namespace Instr

/-- A host physical address of a line: a 64-bit address of a 64-B line. -/
def hpaOk (hpa : Nat) : Bool := decide (hpa < 2 ^ 64) && hpa % 64 == 0

/-- A DLA (R12): 43 bits. -/
def dlaOk (dla : Nat) : Bool := decide (dla < 2 ^ 43)

/-- The calibration codes, the eleven devices and the temperature of a training result (Tables 2.4 and 2.6). -/
def trainOk (r : TrainResult) : Bool :=
  decide (r.zqPu < 64) && decide (r.zqPd < 64) && decide (r.devs.length = 11) && decide (-128 ≤ r.temp) && decide (r.temp < 128)

/-- A command is well formed. -/
def wf (i : Instr) : Bool :=
  match i with
  | .hostMemRead _ _ hpa _ _ _ => hpaOk hpa
  | .hostMemWrite _ _ hpa _ _ _ _ _ _ => hpaOk hpa
  | .hostMemInv _ _ hpa _ => hpaOk hpa
  | .mscAccept _ chan => decide (chan < 6)
  | .commandIssue _ sub _ _ => decide (sub < 12)
  | .ageCapReached _ sub _ => decide (sub < 12)
  | .neighbourRefresh _ sub rank bank _ => decide (sub < 12) && decide (rank < 2) && decide (bank < 32)
  | .refTick _ sub rank => decide (sub < 12) && decide (rank < 2)
  | .refIssue _ sub rank => decide (sub < 12) && decide (rank < 2)
  | .mr4Poll _ sub rank _ => decide (sub < 12) && decide (rank < 2)
  | .echoClear _ sub rank => decide (sub < 12) && decide (rank < 2)
  | .readDataReturn _ sub _ _ _ _ _ => decide (sub < 12)
  | .alertN _ sub => decide (sub < 12)
  | .replayWindowClose _ sub _ => decide (sub < 12)
  | .trainingRankDone _ sub rank point res => decide (sub < 12) && decide (rank < 2) && decide (point < 2) && trainOk res
  | .driftMeasure _ sub rank dev _ => decide (sub < 12) && decide (rank < 2) && decide (dev < 11)
  | .retrainRequest _ chan _ => decide (chan < 6)
  | .retrainDone _ sub rank _ res => decide (sub < 12) && decide (rank < 2) && trainOk res
  | .trecDataRead _ chan => decide (chan < 6)
  | .cwuEraseWrite _ chan _ => decide (chan < 6)
  | .cwuInjArm _ chan _ => decide (chan < 6)
  | .cwuInjDisarm _ chan => decide (chan < 6)
  | .devcntClear _ chan _ => decide (chan < 6)
  | .scrubStep _ sub => decide (sub < 12)
  | .remapApplied _ sub entry _ => decide (sub < 12) && decide (entry < 32)
  | .spareRowApplied _ sub rank bank _ flips => decide (sub < 12) && decide (rank < 2) && decide (bank < 32) && flips.all (fun p => decide (p.1 < 128))
  | .eraseWindow _ => true
  | .sruEvacStart _ chan _ => decide (chan < 6)
  | .evacCopy _ => true
  | .evacDone _ => true
  | .mirrorRebuilt _ region _ => decide (region < 64)
  | .dieRemapped _ _ => true
  | .salvageRelease _ => true
  | .rgnWrite region off _ _ => decide (region < 64) && decide (off < 20) && off % 4 == 0
  | .regionEnable region _ => decide (region < 64)
  | .regionFillDone region => decide (region < 64)
  | .regionDisable region _ => decide (region < 64)
  | .regionDisableDone region => decide (region < 64)
  | .heatEpoch _ => true
  | .sweepVisit _ region dla => decide (region < 64) && dlaOk dla
  | .moveCommit _ slot => decide (slot < 64)
  | .moveDrainDone _ slot => decide (slot < 64)
  | .promoteWaitExpire _ region dla => decide (region < 64) && dlaOk dla
  | .rehomeDone _ => true
  | .initFillBlock _ sub => decide (sub < 12)
  | .demandWriteRelease _ sub => decide (sub < 12)
  | .migrate _ sq _ => decide (sq < 256)
  | .queryPage _ sq _ => decide (sq < 256)
  | .pin _ sq _ => decide (sq < 256)
  | .keyGenerate _ sq _ => decide (sq < 256)
  | .keyRotate _ sq _ => decide (sq < 256)
  | .keyDestroy _ sq _ => decide (sq < 256)
  | .keyBind _ sq _ => decide (sq < 256)
  | .keyQuery _ sq _ => decide (sq < 256)
  | .sanitize _ sq _ => decide (sq < 256)
  | .sanitizeDone => true
  | .rotationBlock slot => decide (slot < 256)
  | .drbgReseed _ => true
  | .entropyFail _ _ => true
  | .lockdown _ => true
  | .ideKmKeyProg _ _ _ _ => true
  | .mkaFrame _ node _ => decide (node < 4096)
  | .sakRekey _ => true
  | .spdmGetVersion _ => true
  | .spdmGetCapabilities _ _ => true
  | .spdmNegotiateAlgorithms _ _ _ _ _ => true
  | .spdmGetDigests _ => true
  | .spdmGetCertificate _ slot _ _ => decide (slot < 8)
  | .spdmChallenge _ slot _ => decide (slot < 8)
  | .spdmGetMeasurements _ _ _ => true
  | .spdmKeyExchange _ _ slot => decide (slot < 8)
  | .spdmFinish _ _ _ root => root.all (fun r => decide (r < 8))
  | .spdmHeartbeat _ _ => true
  | .spdmKeyUpdate _ _ _ _ => true
  | .spdmEndSession _ _ => true
  | .spdmGetCsr _ => true
  | .spdmSetCertificate _ _ slot _ => decide (slot < 8)
  | .spdmChunkSend _ _ _ _ _ => true
  | .spdmChunkGet _ _ _ => true
  | .vendorDefinedRequest _ _ _ => true
  | .cakInstall _ _ _ => true
  | .debugToken _ _ _ => true
  | .snoopAnswer _ agent hpa _ _ => decide (agent < 16) && hpaOk hpa
  | .awaitWbTimeout _ dla => dlaOk dla
  | .snoopTimeout _ dla agent => dlaOk dla && decide (agent < 16)
  | .biconflict _ hpa => hpaOk hpa
  | .cdrRetry _ _ _ => true
  | .agentsDropped _ _ => true
  | .agentMapWrite _ _ => true
  | .cdrProbe _ _ => true
  | .flitRetry _ _ _ _ => true
  | .retrainAbandon _ => true
  | .fallbackAbandon _ => true
  | .portUp _ _ rate _ _ _ => decide (rate < 3)
  | .reupTimer _ => true
  | .linkCtrlRetrain _ _ => true
  | .linkCtrlDown _ => true
  | .linkCtrlReup _ => true
  | .linkCfgEn _ _ => true
  | .viralRx _ => true
  | .hpcInjArm _ _ => true
  | .hpcInjDisarm _ => true
  | .cdatTableAccess _ _ => true
  | .identify _ => true
  | .getEventRecords _ log => decide (log < 5)
  | .clearEventRecords _ log _ _ => decide (log < 5)
  | .getEventInterruptPolicy _ => true
  | .setEventInterruptPolicy _ _ => true
  | .getFwInfo _ => true
  | .transferFw _ _ => true
  | .transferFwDone _ => true
  | .activateFw _ _ _ => true
  | .getTimestamp _ => true
  | .setTimestamp _ _ => true
  | .getSupportedLogs _ => true
  | .getLog _ _ _ _ => true
  | .identifyMemoryDevice _ => true
  | .getHealthInfo _ => true
  | .getAlertConfiguration _ => true
  | .setAlertConfiguration _ _ => true
  | .getPoisonList _ dla _ => dlaOk dla
  | .injectPoison _ dla => dlaOk dla
  | .clearPoison _ dla _ => dlaOk dla
  | .mailboxUnsupported _ _ => true
  | .readReq _ f _ _ => f.wf
  | .readResp _ f _ _ => f.wf
  | .writeReq _ f _ _ => f.wf
  | .writeResp _ f _ _ => f.wf
  | .enqReq _ f _ _ => f.wf
  | .enqResp _ f _ _ => f.wf
  | .t2Put _ f _ _ => f.wf
  | .t2PutResp _ f _ _ => f.wf
  | .t2Get _ f _ _ => f.wf
  | .t2GetResp _ f _ _ => f.wf
  | .ack _ f _ _ => f.wf
  | .hello _ f _ _ => f.wf
  | .helloAck _ f _ _ => f.wf
  | .heartbeat _ f _ _ => f.wf
  | .retransmitTimeout _ node => decide (node < 4096)
  | .ackDelayExpire _ node => decide (node < 4096)
  | .helloTimer _ node => decide (node < 4096)
  | .heartbeatSend _ node => decide (node < 4096)
  | .peerSilence _ node => decide (node < 4096)
  | .probeTimer _ node => decide (node < 4096)
  | .ethLinkDown _ => true
  | .ethLinkUp _ => true
  | .macsecScLost _ node => decide (node < 4096)
  | .remoteRead _ sq _ => decide (sq < 256)
  | .remoteWrite _ sq _ _ => decide (sq < 256)
  | .peerQuery _ sq _ => decide (sq < 256)
  | .peerReset _ sq _ => decide (sq < 256)
  | .peerCtrlReset _ _ => true
  | .peerEnable _ _ => true
  | .peerDisable _ _ => true
  | .nodeWrite _ _ => true
  | .fpcInjArm _ _ => true
  | .fpcInjDisarm _ => true
  | .reorderHoldExpire _ => true
  | .injDelayExpire _ => true
  | .sqTailDoorbell _ n value _ => decide (n < 256) && decide (value < 2 ^ 64)
  | .cqHeadDoorbell _ n value _ => decide (n < 256) && decide (value < 2 ^ 64)
  | .eqHeadDoorbell _ n value _ => decide (n < 4) && decide (value < 2 ^ 64)
  | .descriptorFetch _ sq lines => decide (sq < 256) && decide (lines.length ≤ 8)
  | .completionWrite _ cq _ => decide (cq < 256)
  | .irqTimeExpire _ event ring => decide (ring < (if event then 4 else 256))
  | .cqStall _ cq => decide (cq < 256)
  | .sqEnable _ sq => decide (sq < 256)
  | .sqDisable _ sq => decide (sq < 256)
  | .cqEnable _ cq => decide (cq < 256)
  | .cqDisable _ cq => decide (cq < 256)
  | .eqEnable _ eq => decide (eq < 4)
  | .eqDisable _ eq => decide (eq < 4)
  | .nop _ sq _ => decide (sq < 256)
  | .memCopy _ sq _ _ => decide (sq < 256)
  | .memFill _ sq _ => decide (sq < 256)
  | .timestamp _ sq _ => decide (sq < 256)
  | .ringQuery _ sq _ => decide (sq < 256)
  | .emLookup _ sq _ => decide (sq < 256)
  | .emLookupBatch _ sq _ _ => decide (sq < 256)
  | .lpmLookup _ sq _ => decide (sq < 256)
  | .lpmLookupBatch _ sq _ _ => decide (sq < 256)
  | .emUpdate _ sq _ => decide (sq < 256)
  | .lpmUpdate _ sq _ => decide (sq < 256)
  | .tableCreate _ sq _ => decide (sq < 256)
  | .tableFillDone table => decide (table < 64)
  | .tableDestroy _ sq _ => decide (sq < 256)
  | .tablePublish _ sq _ => decide (sq < 256)
  | .tableQuery _ sq _ => decide (sq < 256)
  | .lkeCleanup table => decide (table < 64)
  | .poolCreate _ sq _ => decide (sq < 256)
  | .poolDestroy _ sq _ => decide (sq < 256)
  | .poolQuery _ sq _ => decide (sq < 256)
  | .queueSet _ sq _ => decide (sq < 256)
  | .queueQuery _ sq _ => decide (sq < 256)
  | .allocate _ sq _ => decide (sq < 256)
  | .free _ sq _ _ => decide (sq < 256)
  | .enqueue _ sq _ => decide (sq < 256)
  | .dequeue _ sq _ => decide (sq < 256)
  | .peek _ sq _ => decide (sq < 256)
  | .flush _ sq _ => decide (sq < 256)
  | .flushDone _ sq _ => decide (sq < 256)
  | .remoteEnqueue _ sq _ _ => decide (sq < 256)
  | .stackFill _ pool => decide (pool < 8)
  | .stackSpill _ pool => decide (pool < 8)
  | .readAhead _ queue => decide (queue < 131072)
  | .cksCommit _ m _ => decide (m < 4)
  | .delayStep _ m out => decide (m < 4) && decide (out < 6)
  | .lockDeclared _ m band => decide (m < 4) && decide (band < 64)
  | .outputRelease _ m => decide (m < 4)
  | .cksLockLost _ m => decide (m < 4)
  | .ckmQuiesceDone _ m => decide (m < 4)
  | .storedBandTimeout _ m => decide (m < 4)
  | .cksFullSearch _ m band _ => decide (m < 4) && band.all (fun b => decide (b < 64))
  | .cksInjArm _ m => decide (m < 4)
  | .cksInjDisarm _ m => decide (m < 4)
  | .refclkLost => true
  | .refclkPresent => true
  | .refclkFailTimer => true
  | .frefLost _ => true
  | .powerGood _ popDen popRank pop3ds _ _ => decide (popDen < 4) && decide (popRank < 2) && decide (pop3ds < 2)
  | .pwrOkFall => true
  | .perstAssert _ => true
  | .perstRelease _ => true
  | .bootDone => true
  | .trainExit => true
  | .copyBCheck => true
  | .reqThrift => true
  | .reqServe => true
  | .reqHold => true
  | .reqFreeze => true
  | .modeTransitionDone => true
  | .holdDrainTimeout => true
  | .l1Exit _ => true
  | .passageHeartbeatSend _ => true
  | .passageHeartbeat _ _ => true
  | .heartbeatMissed _ => true
  | .passageResetDone _ _ => true
  | .passageLost _ => true
  | .imageUpdate _ _ => true
  | .flashUpdateDone _ => true
  | .channelThawed _ chan => decide (chan < 6)
  | .evtFreeze _ mask => decide (mask < 64)
  | .evtThaw _ mask => decide (mask < 64)
  | .freezeDataRead _ => true
  | .postingIntervalEnd _ _ _ => true
  | .counterWrap _ n _ => decide (n < 64)
  | .ctrgSnap => true
  | .snapshotCopy _ => true
  | .counterFreeze => true
  | .counterUnfreeze => true
  | .clearAll => true
  | .pmcSnapshot _ sq _ => decide (sq < 256)
  | .pmcTelemetry _ sq _ => decide (sq < 256)
  | .counterLoRead _ n => n.all (fun k => decide (k < 64))
  | .counterStageWrite _ n _ => decide (n < 64)
  | .reprogrammingWrite _ n _ => decide (n < 64)
  | .sensorSample _ temps failed => temps.length == 8 && decide (failed < 256)
  | .thermalEval => true
  | .thermalTrip _ sensor _ => decide (sensor < 8)
  | .powerEstimate _ rails => rails.length == 6
  | .registerWrite _ offset _ _ _ => decide (offset < 2 ^ 24)
  | .sidebandRead offset => decide (offset < 2 ^ 24)
  | .sidebandWrite offset _ => decide (offset < 2 ^ 24)
  | .sidebandEvent => true
  | .sidebandTransfer code _ _ => decide (0x20 ≤ code) && decide (code < 0x30)
  | .idcode _ => true
  | .samplePreload _ _ _ => true
  | .extest _ _ => true
  | .clamp _ => true
  | .highz _ => true
  | .extestPulse _ _ => true
  | .extestTrain _ _ => true
  | .bypass _ => true
  | .dripDataRead _ chan => decide (chan < 6)
  | .hdmDecoderCommit _ dec _ _ _ _ _ _ => decide (dec < 8)
  | .linkLayerTimeout _ _ => true
  | .linkControlRetrain _ rate => decide (rate < 3)
  | .linkRetrainL0 _ => true

end Instr

end Sys2Proof
end

