-- ==== Sys2Proof/Tests/Slice0.lean ====
section
/-!
SUPPORT. Sys2Proof/Tests/Slice0.lean: the model's own tests: ill-formed terms that the checks refuse, examples of the spec, and a
concrete state and operands that meet the hypotheses of each statement.
-/

namespace Sys2Proof.Tests

open Sys2Proof Sys2Proof.Machine

set_option linter.unusedVariables false
set_option Elab.async false

/-- A device in a mode with power good. -/
def inMode (m : Mode) : State :=
  { State.reset with dev := { State.reset.dev with mode := m }, pins := { PinSt.reset with pwrOk := true, dramReset := false } }

/-- A device in SERVE whose East subchannel 0 is changed. -/
def withSub (f : SubSt → SubSt) : State := onSub .east 0 f (inMode .serve)

/-- A read of home line h of East subchannel 0 for operation 1, number n in the order of entry. -/
def aRead (n h : Nat) : Req := ⟨n, .hp0, false, 0, h, h, 1, false, false, 0, 0, 0, 0, false, LineMeta.blank, none, false, false, false, false, .op 1 0⟩

/-- A write of the same, encoded. -/
def aWrite (n h : Nat) : Req := ⟨n, .hp0, true, 0, h, h, 1, false, false, 0, 0, 0, 5, false, LineMeta.blank, some 0, false, false, false, false, .opw 1 0⟩

/-- A host's read of one line, tag 9, in a region with no integrity. -/
def aReadOp : OpSt := ⟨.host .east 9, .read, .hp0, 0, 0, 0, .plain, none, none, [0], [], [], []⟩

/-- A device in a mode whose dies have twelve live subchannels. -/
def live (m : Mode) : State := each [Die.east, .west] (fun d => onSru d (fun u => { u with positions := 12, liveList := List.range 12 })) (inMode m)

/-- A device in SERVE with a flat region 0 of 1 GiB on East, its slot ACTIVE and bound to everyone; `a` is added to its attributes. -/
def withRegion (a : Nat) : State :=
  { wrReg .RGN_CTRL .east 0 1 (wrReg .RGN_ATTR .east 0 a (live .serve)) with
    metaKey := some (5, 6), slots := [(0, { SlotSt.reset with st := .active, bind := 7, domain := 65535, xts := 11, mac := 12 })] }

/-- A tiered region 0 on East with 2 GiB of backing, one of its pages as given. -/
def withPage (key : Nat) (e : PageEnt) : State :=
  setPage .east key e (wf F.TME_MAP_CFG.MAP_GIB .east 0 1 (wrReg .RGN_PLACE .east 0 (2 * 65536) (withRegion 1)))

/-- A T0 page in frame f. -/
def aPage (f : Nat) : PageEnt := { PageEnt.blank with tier := 1, place := f }

/-- The bytes of a descriptor: opcode, tag 7, ARG, and what is given from byte 8 on. -/
def descLine (op arg rest : Nat) : Line := BitVec.ofNat 512 (op + 7 * 65536 + arg * 2 ^ 32 + rest * 2 ^ 64)

/-- A descriptor of ring 0 with number 0, just started. -/
def aDesc (op arg rest : Nat) : Desc := ⟨0, 0, descLine op arg rest, 0, 0, [], [], []⟩

/-- A state with a descriptor started on ring 0 of East, its completion ring 0 enabled. -/
def withDesc (e : Desc) (s : State) : State :=
  onSq .east 0 (fun _ => ⟨[], [e], 1, 0, 1⟩) (wf F.CPR_CQ_CTRL.EN .east 0 1 (wf F.CPR_SQ_CTRL.KEY_ADMIN .east 0 1 (wf F.CPR_SQ_CTRL.EN .east 0 1 s)))

/-- Host port 0 in L0. -/
def portUp0 (s : State) : State := wf F.HPC_LINK_STATUS.UP .east 0 1 s

/-- An SPDM responder that has negotiated, with session 3 as given, on host port 0 in L0. -/
def withSession (x : SpdmSess) (s : State) : State := { portUp0 s with spdm := { SpdmSt.reset with stage := 3, sessions := [(3, x)] } }

/-- Host port 0 in L0 with HDM decoder 0 over addresses 0 to 8 GiB. -/
def withHost (s : State) : State := portUp0 (onHpc .east (fun h => { h with hdm := [(0, ⟨0, 2 ^ 33, 1, 256, 0, 0⟩)] }) s)

/-- The same with HDM-DB, and decoder 0 of the port mapped to agent 1, the others to agent 2. -/
def withAgents (s : State) : State := wf F.HPC_LINK_STATUS.HDM_DB .east 0 1 (wrReg .CDR_AGENT_MAP .east 0 0x22222221 (withHost s))

/-- A request of agent 1 for DLA 64 of a COHERENT region 0. -/
def aMem (k : ReqKind) (g : Nat) : MemReq := ⟨.host .east 5, k, .east, .hp0, some g, false, 0, 256, 64, ⟨0, false⟩, 0, none, false, false⟩

/-- East's directory with the entry of that line at way 0 of its set. -/
def withEnt (e : DirEnt) : State := onCdr .east (fun x => { x with dir := [(16, e)] }) (withAgents (withRegion 256))

/-- Fabric port 0 up and secure, node 1, with a channel and a context of node 2 as given. -/
def withPeer (c : CtxSt) (s : State) : State :=
  onFpc .east (fun x => { x with ctxs := [(2, c)], channels := [2] }) (s |> wf F.FPC_NODE.NODE .east 0 1 |> wf F.FPC_NODE.FABRIC_EN .east 0 1 |> wf F.FPC_PORT_CFG.EN .east 0 1
    |> wf F.FPC_LINK_STATUS.UP .east 0 1 |> wf F.FPC_LINK_STATUS.SECURE .east 0 1)

/-- An UP context in session 3 that expects frame 10. -/
def aCtx : CtxSt := { CtxSt.reset with en := true, st := .up, session := 3, expect := 10, nextSeq := 20 }

/-- A frame from node 2 with number 10. -/
def aFrame (op len arg : Nat) (payload : List Byte) : Frame := ⟨1, op, 3, false, none, false, 0, 1, 2, 10, 20, len, 0, 9, arg, payload, false⟩

/-- A flat region that peers may read and write. -/
def withFabRegion : State := withRegion (2 ^ F.RGN_ATTR.FABRIC_READ.lo + 2 ^ F.RGN_ATTR.FABRIC_WRITE.lo)

/-- Region 0 owned by the Lookup Engine, with exact-match table 5 at its base: 4-byte keys, 256 buckets. -/
def aTable : TblSt := ⟨true, none, 0, 0, 0, 4, 8, 0, 2 ^ 21, 6, [1, 2, 3], true, true, false, 9, 11, StageLog.empty⟩
def withTable (t : TblSt) (s : State) : State := { s with tables := [(5, t)] }

/-- Every bucket of the table as read, its slot 0 holding key 77 with result 9 in a state. -/
def bucketLines (st : Nat) : NMap LineData := (List.range 256).map (fun k => (k, ⟨setSlot 0 0 ⟨77, 9, st⟩, false⟩))

/-- Region 0 owned by the Queue Engine, with pool 0 of 8,192 cells, cell 3 on top of its free stack, and queue 4 on East. -/
def aPool : PoolSt := ⟨0, 0, 8192, 0, 0, 300, [3, 8], false, none⟩
def aQueue : QueueSt := { QueueSt.reset with st := .enabled, pool := 0 }
def withQueue (p : PoolSt) (q : QueueSt) (s : State) : State := onDie .east (fun x => { x with pools := [(0, p)], queues := [(4, q)] }) s

/-- A synthesizer in a phase. -/
def withSynth (m : Nat) (p : CksPhase) (s : State) : State := onSynth .east m (fun y => { y with phase := p }) s

/-- A locked synthesizer at the factory plan. -/
def lockedSynth (m : Nat) (s : State) : State :=
  each [Die.east, .west] (fun d t => let st := planStage t d m 0 63; wf F.CKS_STATUS.POINT d m 0 (onSynth d m (fun y => { y with phase := .locked, n := st.n, pfd := st.pfd, outs := st.outs }) t))
    (each [Die.east, .west] (fun d => setFactoryPlan d m) s)

/-- Both dies' synthesizers locked at the factory plan. -/
def locked4 (s : State) : State := lockedSynth 3 (lockedSynth 2 (lockedSynth 1 (lockedSynth 0 s)))

/-- Both host ports enabled. -/
def hostsEn (s : State) : State := each [Die.east, .west] (fun d => wf F.HPC_LINK_CFG.EN d 0 1) s

/-- Every subchannel trained. -/
def trainedDev (m : Mode) : State :=
  each [Die.east, .west] (fun d => each (List.range 12) (fun i => onSub d i (fun b => { b with r0 := { b.r0 with trained := true }, r1 := { b.r1 with trained := true }, trec := (List.range 4).map (fun k => (k, [])) }))) (inMode m)

/-! ### Ill-formed terms, which the checks of well-formedness refuse -/

/-- A training result in range. -/
def okTrain : TrainResult := ⟨32, 32, 30, 30, 30, 70, List.replicate 11 ⟨some 0, some 20, 30, 30, 30, 60, 30, 30⟩, true, 40, []⟩

theorem test_wf_refuses_1 : ([(.hostMemRead .east 0 3 .s .data false : Instr),
    (.hostMemWrite .east 0 3 0 false 0 .s false : Instr),
    (.hostMemInv .east 0 3 false : Instr),
    (.mscAccept .east 6 : Instr),
    (.commandIssue .east 12 [] false : Instr),
    (.ageCapReached .east 12 0 : Instr),
    (.neighbourRefresh .east 12 0 0 : Instr),
    (.neighbourRefresh .east 0 2 0 : Instr),
    (.neighbourRefresh .east 0 0 32 : Instr),
    (.refTick .east 12 0 : Instr),
    (.refTick .east 0 2 : Instr),
    (.refIssue .east 12 0 : Instr),
    (.refIssue .east 0 2 : Instr),
    (.mr4Poll .east 12 0 0 : Instr),
    (.mr4Poll .east 0 2 0 : Instr),
    (.echoClear .east 12 0 : Instr),
    (.echoClear .east 0 2 : Instr),
    (.readDataReturn .east 12 0 0 false : Instr),
    (.alertN .east 12 : Instr),
    (.replayWindowClose .east 12 0 : Instr)] : List Instr).all (fun c => !c.wf) = true := by decide +kernel

theorem test_wf_refuses_2 : ([(.trainingRankDone .east 12 0 0 okTrain : Instr),
    (.trainingRankDone .east 0 2 0 okTrain : Instr),
    (.trainingRankDone .east 0 0 2 okTrain : Instr),
    (.trainingRankDone .east 0 0 0 { okTrain with zqPu := 64 } : Instr),
    (.driftMeasure .east 12 0 0 0 : Instr),
    (.driftMeasure .east 0 2 0 0 : Instr),
    (.driftMeasure .east 0 0 11 0 : Instr),
    (.retrainRequest .east 6 0 : Instr),
    (.retrainDone .east 12 0 false okTrain : Instr),
    (.retrainDone .east 0 2 false okTrain : Instr),
    (.retrainDone .east 0 0 false { okTrain with zqPu := 64 } : Instr),
    (.trecDataRead .east 6 : Instr),
    (.cwuEraseWrite .east 6 0 : Instr),
    (.cwuInjArm .east 6 0 : Instr),
    (.cwuInjDisarm .east 6 : Instr),
    (.devcntClear .east 6 0 : Instr),
    (.scrubStep .east 12 : Instr),
    (.remapApplied .east 12 0 : Instr),
    (.remapApplied .east 0 32 : Instr),
    (.spareRowApplied .east 12 0 0 false [] : Instr)] : List Instr).all (fun c => !c.wf) = true := by decide +kernel

theorem test_wf_refuses_3 : ([(.spareRowApplied .east 0 2 0 false [] : Instr),
    (.spareRowApplied .east 0 0 32 false [] : Instr),
    (.spareRowApplied .east 0 0 0 false [(128, 0)] : Instr),
    (.sruEvacStart .east 6 0 : Instr),
    (.mirrorRebuilt .east 64 [] : Instr),
    (.rgnWrite 64 0 0 none : Instr),
    (.rgnWrite 0 20 0 none : Instr),
    (.rgnWrite 0 3 0 none : Instr),
    (.regionEnable 64 none : Instr),
    (.regionFillDone 64 : Instr),
    (.regionDisable 64 none : Instr),
    (.regionDisableDone 64 : Instr),
    (.sweepVisit .east 64 0 : Instr),
    (.sweepVisit .east 0 (2 ^ 43) : Instr),
    (.moveCommit .east 64 : Instr),
    (.moveDrainDone .east 64 : Instr),
    (.promoteWaitExpire .east 64 0 : Instr),
    (.promoteWaitExpire .east 0 (2 ^ 43) : Instr),
    (.initFillBlock .east 12 : Instr),
    (.demandWriteRelease .east 12 : Instr)] : List Instr).all (fun c => !c.wf) = true := by decide +kernel

theorem test_wf_refuses_4 : ([(.migrate .east 256 0 : Instr),
    (.queryPage .east 256 0 : Instr),
    (.pin .east 256 0 : Instr),
    (.keyGenerate .east 256 0 : Instr),
    (.keyRotate .east 256 0 : Instr),
    (.keyDestroy .east 256 0 : Instr),
    (.keyBind .east 256 0 : Instr),
    (.keyQuery .east 256 0 : Instr),
    (.sanitize .east 256 0 : Instr),
    (.rotationBlock 256 : Instr),
    (.mkaFrame .east 4096 false : Instr),
    (.spdmGetCertificate .east 8 0 0 : Instr),
    (.spdmChallenge .east 8 0 : Instr),
    (.spdmKeyExchange .east 0 8 : Instr),
    (.spdmFinish .east 0 false (some 8) : Instr),
    (.spdmSetCertificate .east 0 8 [] : Instr),
    (.snoopAnswer .east 16 0 .i : Instr),
    (.snoopAnswer .east 0 3 .i : Instr),
    (.awaitWbTimeout .east (2 ^ 43) : Instr),
    (.snoopTimeout .east (2 ^ 43) 0 : Instr)] : List Instr).all (fun c => !c.wf) = true := by decide +kernel

theorem test_wf_refuses_5 : ([(.snoopTimeout .east 0 16 : Instr),
    (.biconflict .east 3 : Instr),
    (.portUp .east false 3 false false false : Instr),
    (.getEventRecords .east 5 : Instr),
    (.clearEventRecords .east 5 false [] : Instr),
    (.getPoisonList .east (2 ^ 43) 0 : Instr),
    (.injectPoison .east (2 ^ 43) : Instr),
    (.clearPoison .east (2 ^ 43) 0 : Instr),
    (.readReq .east ⟨1, 256, 0, false, none, false, 0, 0, 0, 0, 0, 0, 0, 0, 0, [], false⟩ false false : Instr),
    (.readResp .east ⟨1, 256, 0, false, none, false, 0, 0, 0, 0, 0, 0, 0, 0, 0, [], false⟩ false false : Instr),
    (.writeReq .east ⟨1, 256, 0, false, none, false, 0, 0, 0, 0, 0, 0, 0, 0, 0, [], false⟩ false false : Instr),
    (.writeResp .east ⟨1, 256, 0, false, none, false, 0, 0, 0, 0, 0, 0, 0, 0, 0, [], false⟩ false false : Instr),
    (.enqReq .east ⟨1, 256, 0, false, none, false, 0, 0, 0, 0, 0, 0, 0, 0, 0, [], false⟩ false false : Instr),
    (.enqResp .east ⟨1, 256, 0, false, none, false, 0, 0, 0, 0, 0, 0, 0, 0, 0, [], false⟩ false false : Instr),
    (.t2Put .east ⟨1, 256, 0, false, none, false, 0, 0, 0, 0, 0, 0, 0, 0, 0, [], false⟩ false false : Instr),
    (.t2PutResp .east ⟨1, 256, 0, false, none, false, 0, 0, 0, 0, 0, 0, 0, 0, 0, [], false⟩ false false : Instr),
    (.t2Get .east ⟨1, 256, 0, false, none, false, 0, 0, 0, 0, 0, 0, 0, 0, 0, [], false⟩ false false : Instr),
    (.t2GetResp .east ⟨1, 256, 0, false, none, false, 0, 0, 0, 0, 0, 0, 0, 0, 0, [], false⟩ false false : Instr),
    (.ack .east ⟨1, 256, 0, false, none, false, 0, 0, 0, 0, 0, 0, 0, 0, 0, [], false⟩ false false : Instr),
    (.hello .east ⟨1, 256, 0, false, none, false, 0, 0, 0, 0, 0, 0, 0, 0, 0, [], false⟩ false false : Instr)] : List Instr).all (fun c => !c.wf) = true := by decide +kernel

theorem test_wf_refuses_6 : ([(.helloAck .east ⟨1, 256, 0, false, none, false, 0, 0, 0, 0, 0, 0, 0, 0, 0, [], false⟩ false false : Instr),
    (.heartbeat .east ⟨1, 256, 0, false, none, false, 0, 0, 0, 0, 0, 0, 0, 0, 0, [], false⟩ false false : Instr),
    (.retransmitTimeout .east 4096 : Instr),
    (.ackDelayExpire .east 4096 : Instr),
    (.helloTimer .east 4096 : Instr),
    (.heartbeatSend .east 4096 : Instr),
    (.peerSilence .east 4096 : Instr),
    (.probeTimer .east 4096 : Instr),
    (.macsecScLost .east 4096 : Instr),
    (.remoteRead .east 256 0 : Instr),
    (.remoteWrite .east 256 0 [] : Instr),
    (.peerQuery .east 256 0 : Instr),
    (.peerReset .east 256 0 : Instr),
    (.sqTailDoorbell .east 256 0 0 : Instr),
    (.sqTailDoorbell .east 0 (2 ^ 64) 0 : Instr),
    (.cqHeadDoorbell .east 256 0 0 : Instr),
    (.cqHeadDoorbell .east 0 (2 ^ 64) 0 : Instr),
    (.eqHeadDoorbell .east 4 0 0 : Instr),
    (.eqHeadDoorbell .east 0 (2 ^ 64) 0 : Instr),
    (.descriptorFetch .east 256 [] : Instr)] : List Instr).all (fun c => !c.wf) = true := by decide +kernel

theorem test_wf_refuses_7 : ([(.descriptorFetch .east 0 (List.replicate 9 none) : Instr),
    (.completionWrite .east 256 false : Instr),
    (.irqTimeExpire .east false 256 : Instr),
    (.cqStall .east 256 : Instr),
    (.sqEnable .east 256 : Instr),
    (.sqDisable .east 256 : Instr),
    (.cqEnable .east 256 : Instr),
    (.cqDisable .east 256 : Instr),
    (.eqEnable .east 4 : Instr),
    (.eqDisable .east 4 : Instr),
    (.nop .east 256 0 : Instr),
    (.memCopy .east 256 0 [] : Instr),
    (.memFill .east 256 0 : Instr),
    (.timestamp .east 256 0 : Instr),
    (.ringQuery .east 256 0 : Instr),
    (.emLookup .east 256 0 : Instr),
    (.emLookupBatch .east 256 0 [] : Instr),
    (.lpmLookup .east 256 0 : Instr),
    (.lpmLookupBatch .east 256 0 [] : Instr),
    (.emUpdate .east 256 0 : Instr)] : List Instr).all (fun c => !c.wf) = true := by decide +kernel

theorem test_wf_refuses_8 : ([(.lpmUpdate .east 256 0 : Instr),
    (.tableCreate .east 256 0 : Instr),
    (.tableFillDone 64 : Instr),
    (.tableDestroy .east 256 0 : Instr),
    (.tablePublish .east 256 0 : Instr),
    (.tableQuery .east 256 0 : Instr),
    (.lkeCleanup 64 : Instr),
    (.poolCreate .east 256 0 : Instr),
    (.poolDestroy .east 256 0 : Instr),
    (.poolQuery .east 256 0 : Instr),
    (.queueSet .east 256 0 : Instr),
    (.queueQuery .east 256 0 : Instr),
    (.allocate .east 256 0 : Instr),
    (.free .east 256 0 [] : Instr),
    (.enqueue .east 256 0 : Instr),
    (.dequeue .east 256 0 : Instr),
    (.peek .east 256 0 : Instr),
    (.flush .east 256 0 : Instr),
    (.flushDone .east 256 0 : Instr),
    (.remoteEnqueue .east 256 0 [] : Instr)] : List Instr).all (fun c => !c.wf) = true := by decide +kernel

theorem test_wf_refuses_9 : ([(.stackFill .east 8 : Instr),
    (.stackSpill .east 8 : Instr),
    (.readAhead .east 131072 : Instr),
    (.cksCommit .east 4 0 : Instr),
    (.delayStep .east 4 0 : Instr),
    (.delayStep .east 0 6 : Instr),
    (.lockDeclared .east 4 0 : Instr),
    (.lockDeclared .east 0 64 : Instr),
    (.outputRelease .east 4 : Instr),
    (.cksLockLost .east 4 : Instr),
    (.ckmQuiesceDone .east 4 : Instr),
    (.storedBandTimeout .east 4 : Instr),
    (.cksFullSearch .east 4 none 0 : Instr),
    (.cksFullSearch .east 0 (some 64) 0 : Instr),
    (.cksInjArm .east 4 : Instr),
    (.cksInjDisarm .east 4 : Instr),
    (.powerGood false 4 0 0 false none : Instr),
    (.powerGood false 0 2 0 false none : Instr),
    (.powerGood false 0 0 2 false none : Instr),
    (.channelThawed .east 6 : Instr)] : List Instr).all (fun c => !c.wf) = true := by decide +kernel

theorem test_wf_refuses_10 : ([(.evtFreeze .east 64 : Instr),
    (.evtThaw .east 64 : Instr),
    (.counterWrap .east 64 0 : Instr),
    (.pmcSnapshot .east 256 0 : Instr),
    (.pmcTelemetry .east 256 0 : Instr),
    (.counterLoRead .east (some 64) : Instr),
    (.counterStageWrite .east 64 0 : Instr),
    (.reprogrammingWrite .east 64 0 : Instr),
    (.sensorSample .east [1] 0 : Instr),
    (.sensorSample .east [] 256 : Instr),
    (.thermalTrip .east 8 0 : Instr),
    (.powerEstimate .east [1] : Instr),
    (.registerWrite .east (2 ^ 24) 0 0 none : Instr),
    (.sidebandRead (2 ^ 24) : Instr),
    (.sidebandWrite (2 ^ 24) 0 : Instr),
    (.sidebandTransfer 0x1F [] .more : Instr),
    (.sidebandTransfer (0x30) [] .more : Instr),
    (.dripDataRead .east 6 : Instr),
    (.hdmDecoderCommit .east 8 0 0 0 0 0 0 : Instr),
    (.linkControlRetrain .east 3 : Instr)] : List Instr).all (fun c => !c.wf) = true := by decide +kernel

/-- A frame whose fields are in range. -/
def okFrame : Frame := ⟨1, 0, 0, false, none, false, 0, 0, 0, 0, 0, 0, 0, 0, 0, [], false⟩

theorem test_wf_refuses_frames : okFrame.wf = true ∧ ([{ okFrame with ver := 16 },
    { okFrame with op := 256 },
    { okFrame with session := 16 },
    { okFrame with status := 256 },
    { okFrame with dst := 65536 },
    { okFrame with src := 65536 },
    { okFrame with seq := 16777216 },
    { okFrame with ack := 16777216 },
    { okFrame with len := 65536 },
    { okFrame with tag := 65536 },
    { okFrame with arg := 281474976710656 },
    { okFrame with payload := List.replicate 4097 0 }] : List Frame).all (fun f => !f.wf) = true := by decide +kernel

/-! ### The worked examples of chapters 4 and 7 -/

/-- The word of chapter 4's encoding example: home DPA 0xF3_4520_2380, word 3, all data zero. -/
def exH : Nat := 0xF345202380 / 64

theorem test_encode_example : ([8, 9, 10].map (sym (encodeLine exH 0 false none) 3), [8, 9, 10].map (sym (encodeLine exH 0 true none) 3)) =
    ([0xB9, 0x58, 0xEE], [0x7F, 0xFD, 0x8D]) := by decide +kernel

/-- D5 returns 0x40: CORRECTED at position 5. -/
theorem test_decode_one : (let r := decodeWord exH none (flipSym 3 5 0x40 (encodeLine exH 0 false none)) 3; (r.outc, r.pos, r.data.take 8)) =
    (.corrected, 5, List.replicate 8 0) := by decide +kernel

/-- Read for a home address whose H[4] differs: ADDRESS at 11. -/
theorem test_decode_address : (let r := decodeWord (exH ^^^ 16) none (encodeLine exH 0 false none) 3; (r.outc, r.pos, r.s0, r.s1, r.s2)) =
    (.address, 11, 0xCD, 0xC9, 0x4E) := by decide +kernel

/-- D2 erased reads 0x9C, D5 reads 0x40: both return to zero. -/
theorem test_decode_erased : (let r := decodeWord exH (some 2) (flipSym 3 2 0x9C (flipSym 3 5 0x40 (encodeLine exH 0 false none))) 3; (r.outc, r.pos, r.data.take 8)) =
    (.corrected, 5, List.replicate 8 0) := by decide +kernel

/-- Eight words as a line. -/
def lineW (ws : List Nat) : Line := BitVec.ofNat 512 (ws.zipIdx.foldl (fun v q => v + q.1 % 2 ^ 64 * 2 ^ (64 * q.2)) 0)

/-- The page of chapter 7's example; its unrelated lines are arbitrary. -/
def exPage : List Line :=
  let u := fun (k : Nat) => lineW ((List.range 8).map (fun j => (j + 1) * (k + 3) * 0x1234567890ABCDEF))
  let w := 0x7F0000001000
  [lineW [w, w + 64, w + 128, w - 256, w + 512, w + 1024, w - 2048, w + 4096], u 1, u 1, lineW (List.replicate 8 0x5DC), u 4,
   lineW ((List.range 8).map (fun j => 5 + j * 0x100000)), u 6, lineW ((List.range 8).map (fun j => 0xA000000 + j)), u 1] ++ List.replicate 55 0

theorem test_page_layout : ((codeLines exPage [] 32).2, sectorCode (codeLines exPage [] 32).2, ((codeLines exPage [] 32).1.take 10).map (fun q => (classCode q.2.cls, q.2.off))) =
    (337, 1, [(3, 32), (6, 56), (5, 120), (1, 121), (6, 129), (4, 193), (6, 256), (2, 320), (5, 336), (0, 337)]) := by decide +kernel

theorem test_page_payloads : (((codeLines exPage [] 32).1.take 9).map (fun q => if q.2.cls = .lit ∨ q.2.cls = .bd4 then [] else q.2.payload)) =
    [[0x00, 0x10, 0, 0, 0, 0x7F, 0, 0, 0, 0, 0x40, 0, 0x80, 0, 0, 0xFF, 0, 2, 0, 4, 0, 0xF8, 0, 0x10], [], [1], [0xDC, 5, 0, 0, 0, 0, 0, 0], [], [], [],
     [0, 0, 0, 0x0A, 0, 0, 0, 0, 0, 1, 2, 3, 4, 5, 6, 7], [1]] := by decide +kernel

/-! ### RefreshTicksAndRefs -/

theorem test_RefreshTicksAndRefs_1 : (fun (d : Die) (i r : Nat) (s : State) => (rankThere s d r = true) ∧ ((rankOf (sub s d i) r).selfRefresh = false) ∧ ((rankOf (sub s d i) r).retrain = none) ∧ ((rankOf (sub s d i) r).owed < 8)) .east 0 0 (inMode .serve) := by
  decide +kernel

theorem test_RefreshTicksAndRefs_2 : (fun (d : Die) (i r : Nat) (s : State) => (rankThere s d r = true) ∧ ((rankOf (sub s d i) r).selfRefresh = false) ∧ ((rankOf (sub s d i) r).retrain = none) ∧ (8 ≤ (rankOf (sub s d i) r).owed)) .east 0 0 (withSub (fun b => { b with r0 := { b.r0 with owed := 8 } })) := by
  decide +kernel

theorem test_RefreshTicksAndRefs_3 : (fun (d : Die) (i r : Nat) (s : State) => (rankThere s d r = false ∨ (rankOf (sub s d i) r).selfRefresh = true ∨ (rankOf (sub s d i) r).retrain.isSome = true)) .east 0 0 (withSub (fun b => { b with r0 := { b.r0 with selfRefresh := true } })) := by
  decide +kernel

theorem test_RefreshTicksAndRefs_4 : (fun (d : Die) (i r : Nat) (s : State) => (i < 12) ∧ (rankThere s d r = true) ∧ ((rankOf (sub s d i) r).selfRefresh = false) ∧ ((rankOf (sub s d i) r).retrain = none) ∧ (0 < (rankOf (sub s d i) r).forced)) .east 0 0 (withSub (fun b => { b with preaDue := true, banks := [(32, { BankSt.reset with row := some 3 })], r0 := { b.r0 with forced := 1, due := 1, owed := 1 } })) := by
  decide +kernel

theorem test_RefreshTicksAndRefs_5 : (fun (d : Die) (i r : Nat) (s : State) => (i < 12) ∧ (rankThere s d r = true) ∧ ((rankOf (sub s d i) r).selfRefresh = false) ∧ ((rankOf (sub s d i) r).retrain = none) ∧ ((rankOf (sub s d i) r).forced = 0) ∧ (0 < (rankOf (sub s d i) r).due)) .east 0 0 (withSub (fun b => { b with banks := [(32, { BankSt.reset with row := some 3 })], r0 := { b.r0 with due := 1, owed := 1 } })) := by
  decide +kernel

theorem test_RefreshTicksAndRefs_6 : (fun (d : Die) (i r : Nat) (s : State) => (i < 12) ∧ (rankThere s d r = true) ∧ ((rankOf (sub s d i) r).selfRefresh = false) ∧ ((rankOf (sub s d i) r).retrain = none) ∧ ((rankOf (sub s d i) r).forced = 0) ∧ ((rankOf (sub s d i) r).due = 0) ∧ (0 < (rankOf (sub s d i) r).owed) ∧ (rankWaited s d i r = false ∨ postpones s d (i / 2) = false)) .east 0 0 (withSub (fun b => { b with r0 := { b.r0 with owed := 8 } })) := by
  decide +kernel

theorem test_RefreshTicksAndRefs_7 : (fun (d : Die) (i r : Nat) (s : State) => (i < 12) ∧ (rankThere s d r = true) ∧ ((rankOf (sub s d i) r).selfRefresh = false) ∧ ((rankOf (sub s d i) r).retrain.isSome = true)) .east 0 0 (withSub (fun b => { b with r0 := { b.r0 with retrain := some .full, owed := 3 } })) := by
  decide +kernel

theorem test_RefreshTicksAndRefs_8 : (fun (d : Die) (i r : Nat) (s : State) => (16384 ≤ (rankOf (sub s d i) r).ticks)) .east 0 0 (withSub (fun b => { b with r0 := { b.r0 with ticks := 16384 } })) := by
  decide +kernel

/-! ### HotRanksRefreshTwice -/

theorem test_HotRanksRefreshTwice_1 : (fun (d : Die) (i r : Nat) (temp : Int) (s : State) => (i < 12) ∧ (rankThere s d r = true) ∧ ((rankOf (sub s d i) r).selfRefresh = false) ∧ ((rankOf (sub s d i) r).retrain = none) ∧ (tempDrift s d i r temp = false) ∧ ((rankOf (sub s d i) r).hot = false) ∧ (85 < temp)) .west 11 0 86 (inMode .serve) := by
  decide +kernel

theorem test_HotRanksRefreshTwice_2 : (fun (d : Die) (i r : Nat) (temp : Int) (s : State) => (i < 12) ∧ (rankThere s d r = true) ∧ ((rankOf (sub s d i) r).selfRefresh = false) ∧ ((rankOf (sub s d i) r).retrain = none) ∧ (tempDrift s d i r temp = false) ∧ ((rankOf (sub s d i) r).hot = true) ∧ (temp ≤ 83)) .east 0 0 83 (withSub (fun b => { b with r0 := { b.r0 with hot := true, owed := 3, woke := true } })) := by
  decide +kernel

theorem test_HotRanksRefreshTwice_3 : (fun (d : Die) (i r : Nat) (temp : Int) (s : State) => (i < 12) ∧ (rankThere s d r = true) ∧ ((rankOf (sub s d i) r).selfRefresh = false) ∧ ((rankOf (sub s d i) r).retrain = none) ∧ (tempDrift s d i r temp = false) ∧ (((rankOf (sub s d i) r).hot = false ∧ temp ≤ 85) ∨ ((rankOf (sub s d i) r).hot = true ∧ 83 < temp))) .east 0 0 84 (withSub (fun b => { b with r0 := { b.r0 with hot := true } })) := by
  decide +kernel

/-! ### QueuesTakeAndAgeRequests -/

theorem test_QueuesTakeAndAgeRequests_1 : (fun (d : Die) (c : Nat) (q : Req) (rest : List Req) (s : State) => (s.Idle) ∧ ((chan s d c).mxin = q :: rest) ∧ ((chan s d c).clockRec = false) ∧ (copyHolds s d q = false) ∧ (isCopy q = false) ∧ (q.write = false) ∧ ((sub s d q.sub).demandHeld.any (fun x => x.home == q.home) = false) ∧ (answerOf s d q.sub q.loc q.home = none) ∧ ((sub s d q.sub).rdq.length < 64)) .east 0 (aRead 0 7) ([]) (onChan .east 0 (fun c => { c with mxin := [aRead 0 7] }) (withSub (fun b => { b with cells := [(7, 0)] }))) := by
  decide +kernel

theorem test_QueuesTakeAndAgeRequests_2 : (fun (d : Die) (c : Nat) (q : Req) (rest : List Req) (s : State) => (s.Idle) ∧ (c < 6) ∧ ((chan s d c).mxin = q :: rest) ∧ ((chan s d c).clockRec = false) ∧ (copyHolds s d q = false) ∧ (q.write = true) ∧ (q.why = .post) ∧ (q.port ≠ .sru) ∧ ((sub s d q.sub).st ≠ .retired) ∧ ((die s d).sru.memoryLost = false) ∧ (fenced s d = false) ∧ (uninit (sub s d q.sub) q.loc = false) ∧ ((sub s d q.sub).demandHeld.any (fun x => x.loc / 4 == q.loc / 4) = false) ∧ (evacTwin s d q.sub q.loc = none) ∧ ((sub s d q.sub).wrq.length < 64)) .east 0 ({ aWrite 0 7 with why := .post }) ([]) (onChan .east 0 (fun c => { c with mxin := [{ aWrite 0 7 with why := .post }] }) (withSub (fun b => { b with wrq := List.replicate 16 (aWrite 1 9) }))) := by
  decide +kernel

theorem test_QueuesTakeAndAgeRequests_3 : (fun (d : Die) (i r k row : Nat) (rest : List Nat) (s : State) => ((bankOf (sub s d i) (r * 32 + k)).mitig = row :: rest) ∧ (mitigHeld s d i r = false) ∧ (directed s d (i / 2) = true) ∧ ((bankOf (sub s d i) (r * 32 + k)).mitigDone < 64)) .east 0 0 31 5 ([6]) (wf F.MSC_ECHO_CFG.METHOD .east 0 1 (withSub (fun b => { b with banks := [(31, { BankSt.reset with mitig := [5, 6], row := some 9, mitigDone := 63 })] }))) := by
  decide +kernel

theorem test_QueuesTakeAndAgeRequests_4 : (fun (d : Die) (i r k row : Nat) (rest : List Nat) (s : State) => ((bankOf (sub s d i) (r * 32 + k)).mitig = row :: rest) ∧ (mitigHeld s d i r = false) ∧ (directed s d (i / 2) = false) ∧ ((bankOf (sub s d i) (r * 32 + k)).mitigDone < 64)) .east 0 0 31 5 ([6]) (withSub (fun b => { b with banks := [(31, { BankSt.reset with mitig := [5, 6], row := some 9 })] })) := by
  decide +kernel

/-! ### SchedulerIssuesThePickedCommand -/

theorem test_SchedulerIssuesThePickedCommand_1 : (fun (d : Die) (i : Nat) (ready : List Nat) (q : Req) (s : State) => (s.Idle) ∧ (i < 12) ∧ (pick s d i ready = some q) ∧ (q.sub = i) ∧ (nextCmd s d q = .act)) .east 0 ([1]) (aRead 1 7) (withSub (fun b => { b with rdq := [aRead 1 7] })) := by
  decide +kernel

theorem test_SchedulerIssuesThePickedCommand_2 : (fun (d : Die) (i : Nat) (ready : List Nat) (q : Req) (s : State) => (s.Idle) ∧ (i < 12) ∧ (pick s d i ready = some q) ∧ (q.sub = i) ∧ (nextCmd s d q = .pre)) .east 0 ([1]) (aRead 1 7) (withSub (fun b => { b with rdq := [aRead 1 7], banks := [(0, { BankSt.reset with row := some 5 })] })) := by
  decide +kernel

theorem test_SchedulerIssuesThePickedCommand_3 : (fun (d : Die) (i : Nat) (ready : List Nat) (q : Req) (s : State) => (s.Idle) ∧ (i < 12) ∧ (pick s d i ready = some q) ∧ (q.sub = i) ∧ (nextCmd s d q = .rd)) .east 0 ([1]) (aRead 1 7) (withSub (fun b => { b with rdq := [aRead 1 7], cells := [(7, 9)], banks := [(0, { BankSt.reset with row := some 0 })] })) := by
  decide +kernel

theorem test_SchedulerIssuesThePickedCommand_4 : (fun (d : Die) (i : Nat) (ready : List Nat) (q : Req) (s : State) => (s.Idle) ∧ (i < 12) ∧ (pick s d i ready = some q) ∧ (q.sub = i) ∧ (nextCmd s d q = .wr)) .east 0 ([1]) (aWrite 1 7) (withSub (fun b => { b with wrq := [aWrite 1 7], banks := [(0, { BankSt.reset with row := some 0 })] })) := by
  decide +kernel

theorem test_SchedulerIssuesThePickedCommand_5 : (fun (d : Die) (i : Nat) (ready : List Nat) (q : Req) (s : State) => (s.Idle) ∧ (i < 12) ∧ (pick s d i ready = some q) ∧ (q.sub = i) ∧ ((sub s d i).permanent = true ∨ (sub s d i).permFails.length + 1 < rf s F.EVT_PERM_CFG.COUNT d 0)) .east 0 ([1]) (aRead 1 7) (wf F.EVT_PERM_CFG.COUNT .east 0 2 (withSub (fun b => { b with rdq := [aRead 1 7] }))) := by
  decide +kernel

/-! ### WritesReachTheArrayOrReplay -/

theorem test_WritesReachTheArrayOrReplay_1 : (fun (d : Die) (i : Nat) (e : Replay) (x : Stored) (s : State) => ((sub s d i).replay.find? (fun z => z.req.seq == e.req.seq) = some e) ∧ ((sub s d i).isolating = none) ∧ (e.req.enc = some x) ∧ ((sub s d i).replay.any (fun z => z.req.home == e.req.home && decide (z.req.seq < e.req.seq)) = false)) .east 0 (⟨aWrite 3 7, 0, true⟩) 0 (withSub (fun b => { b with replay := [⟨aWrite 2 6, 0, true⟩, ⟨aWrite 3 7, 0, true⟩] })) := by
  decide +kernel

theorem test_WritesReachTheArrayOrReplay_2 : (fun (d : Die) (i : Nat) (s : State) => (s.Idle) ∧ (i < 12) ∧ (alertIgnored s (sub s d i) = false) ∧ ((sub s d i).isolating = none) ∧ ((sub s d i).replay.any (fun e => e.open_) = true) ∧ ((sub s d i).replay.all (fun e => !e.open_ || decide (e.retries < maxRetry s d (i / 2))) = true)) .east 1 (onSub .east 1 (fun b => { b with replay := [⟨aWrite 2 6, 0, true⟩, ⟨aWrite 3 7, 9, false⟩] }) (wf F.CFE_WCRC_CFG.MAX_RETRY .east 0 1 (inMode .serve))) := by
  decide +kernel

theorem test_WritesReachTheArrayOrReplay_3 : (fun (d : Die) (i : Nat) (s : State) => (s.Idle) ∧ (i < 12) ∧ (alertIgnored s (sub s d i) = false) ∧ ((sub s d i).isolating = none) ∧ ((sub s d i).replay.any (fun e => e.open_) = false)) .east 1 (inMode .serve) := by
  decide +kernel

theorem test_WritesReachTheArrayOrReplay_4 : (fun (d : Die) (i : Nat) (s : State) => (s.Idle) ∧ (alertIgnored s (sub s d i) = true)) .east 1 (inMode .train) := by
  decide +kernel

/-! ### ReturnedReadsAreDeliveredDecrypted -/

theorem test_ReturnedReadsAreDeliveredDecrypted_1 : (fun (d : Die) (q : Req) (o : OpSt) (p : Die) (tag n : Nat) (x : Stored) (flips : Flips) (free : Bool) (s : State) => (s.Idle) ∧ (q.sub < 12) ∧ ((sub s d q.sub).returning = [q]) ∧ (q.enc = some x) ∧ (q.why = .op n 0) ∧ ((sub s d q.sub).st ≠ .retired) ∧ (nget s.ops n = some o) ∧ (o.job = .read) ∧ (o.asker = .host p tag) ∧ (o.want = [0]) ∧ (o.track = none) ∧ (o.page = none) ∧ (linkHeld s p = false) ∧ (atMirror o.attr = false) ∧ (atInteg o.attr = 0) ∧ ((decodeLine q.home (markOf s d q.sub (qRank s d (q.loc / 4))) (x ^^^ flips)).outc = .none)) .east ({ aRead 3 0 with enc := some (encodeLine 0 0 false none) }) aReadOp .east 9 1 (encodeLine 0 0 false none) 0 false ({ withSub (fun b => { b with returning := [{ aRead 3 0 with enc := some (encodeLine 0 0 false none) }] }) with ops := [(1, aReadOp)] }) := by
  decide +kernel

theorem test_ReturnedReadsAreDeliveredDecrypted_2 : (fun (d : Die) (q : Req) (o : OpSt) (p : Die) (tag n : Nat) (x : Stored) (flips : Flips) (free : Bool) (s : State) => (s.Idle) ∧ (q.sub < 12) ∧ ((sub s d q.sub).returning = [q]) ∧ (q.enc = some x) ∧ (q.why = .op n 0) ∧ ((sub s d q.sub).st ≠ .retired) ∧ (nget s.ops n = some o) ∧ (o.job = .read) ∧ (o.asker = .host p tag) ∧ (o.want = [0]) ∧ (o.track = none) ∧ (o.page = none) ∧ (linkHeld s p = false) ∧ (atMirror o.attr = false) ∧ ((chan s d (q.sub / 2)).clockRec = false) ∧ ((decodeLine q.home (markOf s d q.sub (qRank s d (q.loc / 4))) (x ^^^ flips)).outc = .poison)) .east ({ aRead 3 0 with enc := some (encodeLine 0 0 true none) }) aReadOp .east 9 1 (encodeLine 0 0 true none) 0 false ({ withSub (fun b => { b with returning := [{ aRead 3 0 with enc := some (encodeLine 0 0 true none) }] }) with ops := [(1, aReadOp)] }) := by
  decide +kernel

/-! ### TrainingRecordsAndRetrains -/

theorem test_TrainingRecordsAndRetrains_1 : (fun (d : Die) (i r point : Nat) (res : TrainResult) (s : State) => (s.Idle) ∧ (i < 12) ∧ (s.dev.mode = .train) ∧ ((sub s d i).st ≠ .retired) ∧ (judge (critOf s d (i / 2)) false res = ⟨false, none, []⟩) ∧ (markOf s d i r = none) ∧ (s.dev.fuse = []) ∧ ((sub s d (2 * (i / 2))).trainFail = none) ∧ ((sub s d (2 * (i / 2) + 1)).trainFail = none)) .west 11 1 1 okTrain (inMode .train) := by
  decide +kernel

theorem test_TrainingRecordsAndRetrains_2 : (fun (d : Die) (i r dev drift : Nat) (s : State) => (i < 12) ∧ (rf s F.CFE_DRIFT_CFG.PERIOD d (i / 2) ≠ 0) ∧ (rf s F.CFE_DRIFT_CFG.RETRAIN d (i / 2) ≤ drift) ∧ ((rankOf (sub s d i) r).retrain = none) ∧ ((rankOf (sub s d i) r).retrainWanted = none) ∧ (retrainBarred s d (i / 2) = false) ∧ (chanRetrains s d (i / 2) = false) ∧ ((rankOf (sub s d i) r).selfRefresh = false)) .east 3 1 10 63 (wf F.CFE_DRIFT_CFG.PERIOD .east 1 100 (wf F.CFE_DRIFT_CFG.RETRAIN .east 1 63 (inMode .serve))) := by
  decide +kernel

theorem test_TrainingRecordsAndRetrains_3 : (fun (d : Die) (i r dev drift : Nat) (s : State) => (rf s F.CFE_DRIFT_CFG.PERIOD d (i / 2) = 0 ∨ drift < rf s F.CFE_DRIFT_CFG.RETRAIN d (i / 2))) .east 3 1 10 63 (wf F.CFE_DRIFT_CFG.PERIOD .east 1 0 (inMode .serve)) := by
  decide +kernel

theorem test_TrainingRecordsAndRetrains_4 : (fun (d : Die) (c u r : Nat) (v : Word) (s : State) => (c < 6) ∧ (u < 2) ∧ (r < popRanks s d) ∧ (r < 2) ∧ (verdict s .CFE d false = .take) ∧ (bitn v.toNat u = true) ∧ (bitn v.toNat (1 - u) = false) ∧ (fld v.toNat 4 2 = 2 ^ r) ∧ ((sub s d (2 * c + u)).st ≠ .retired) ∧ (chanRetrains s d c = false) ∧ (retrainBarred s d c = false) ∧ ((rankOf (sub s d (2 * c + u)) r).selfRefresh = false) ∧ ((rankOf (sub s d (2 * c + u)) r).retrainWanted = none)) .west 5 1 0 0x16 (inMode .serve) := by
  decide +kernel

theorem test_TrainingRecordsAndRetrains_5 : (fun (d : Die) (i r : Nat) (res : TrainResult) (s : State) => (s.Idle) ∧ ((sub s d i).st ≠ .retired) ∧ ((rankOf (sub s d i) r).retrain = some .quick)) .east 0 0 okTrain (withSub (fun b => { b with r0 := { b.r0 with retrain := some .quick } })) := by
  decide +kernel

theorem test_TrainingRecordsAndRetrains_6 : (fun (d : Die) (i r : Nat) (edge : Bool) (k : RetrainKind) (res : TrainResult) (s : State) => (s.Idle) ∧ (i < 12) ∧ (s.dev.mode ≠ .train) ∧ ((rankOf (sub s d i) r).retrain = some k) ∧ (k = .full ∨ edge = false) ∧ ((sub s d i).st ≠ .retired) ∧ (judge (critOf s d (i / 2)) (k == .quick) res = ⟨false, none, []⟩) ∧ (markOf s d i r = none) ∧ ((sub s d (2 * (i / 2))).trainFail = none) ∧ ((sub s d (2 * (i / 2) + 1)).trainFail = none) ∧ ((rankOf (sub s d i) r).mr4Wanted = false) ∧ (chanRetrains (onSub d i (onRank r (fun x => { x with retrain := none })) s) d (i / 2) = false) ∧ ([(2 * (i / 2), 0), (2 * (i / 2), 1), (2 * (i / 2) + 1, 0), (2 * (i / 2) + 1, 1)].all (fun p => (rankOf (sub s d p.1) p.2).retrainWanted.isNone) = true)) .east 0 0 false .quick okTrain (withSub (fun b => { b with r0 := { b.r0 with retrain := some .quick } })) := by
  decide +kernel

/-! ### ChannelsFreezeAndThaw -/

theorem test_ChannelsFreezeAndThaw_1 : (fun (d : Die) (c : Nat) (s : State) => (c < 6) ∧ (verdict s .EVT d false = .take) ∧ ((chan s d c).frozen = none)) .west 5 (inMode .serve) := by
  decide +kernel

theorem test_ChannelsFreezeAndThaw_2 : (fun (d : Die) (c : Nat) (z : FrzSt) (q : Req) (s : State) => (s.Idle) ∧ (c < 6) ∧ ((chan s d c).frozen = some z) ∧ (z.held = false) ∧ (rfb s F.EVT_FRZ_CFG.HOLD d 0 = false) ∧ (z.joined = [q]) ∧ (z.cmdErrs = []) ∧ ((sub s d q.sub).st ≠ .retired) ∧ (q.sub / 2 = c) ∧ (z.sub / 2 = c) ∧ ((chan s d c).clockRec = false)) .east 0 (⟨0, 0, 0, 0, [], [aRead 3 7], false, true⟩) (aRead 3 7) (onChan .east 0 (fun c => { c with frozen := some ⟨0, 0, 0, 0, [], [aRead 3 7], false, true⟩ }) (inMode .serve)) := by
  decide +kernel

theorem test_ChannelsFreezeAndThaw_3 : (fun (d : Die) (c : Nat) (z : FrzSt) (s : State) => (s.Idle) ∧ ((chan s d c).frozen = some z) ∧ (z.held = false) ∧ (rfb s F.EVT_FRZ_CFG.HOLD d 0 = true)) .east 0 (⟨0, 0, 0, 0, [], [], false, true⟩) (wf F.EVT_FRZ_CFG.HOLD .east 0 1 (onChan .east 0 (fun c => { c with frozen := some ⟨0, 0, 0, 0, [], [], false, true⟩ }) (inMode .serve))) := by
  decide +kernel

theorem test_ChannelsFreezeAndThaw_4 : (fun (d : Die) (c : Nat) (z : FrzSt) (q : Req) (s : State) => (s.Idle) ∧ (c < 6) ∧ (verdict s .EVT d false = .take) ∧ ((chan s d c).frozen = some z) ∧ (z.held = true) ∧ (z.joined = [q]) ∧ (z.cmdErrs = []) ∧ ((sub s d q.sub).st ≠ .retired) ∧ (q.sub / 2 = c) ∧ (z.sub / 2 = c) ∧ ((chan s d c).clockRec = false)) .east 0 (⟨0, 0, 0, 0, [], [aRead 3 7], true, true⟩) (aRead 3 7) (onChan .east 0 (fun c => { c with frozen := some ⟨0, 0, 0, 0, [], [aRead 3 7], true, true⟩ }) (inMode .serve)) := by
  decide +kernel

/-! ### WordCodeRegistersAct -/

theorem test_WordCodeRegistersAct_1 : (fun (d : Die) (c u r dev : Nat) (s : State) => (c < 6) ∧ (u < 2) ∧ (r < 2) ∧ (dev ≤ 10) ∧ (verdict s .CWU d false = .take) ∧ (markOf s d (2 * c + u) r = none)) .east 5 1 0 10 (inMode .serve) := by
  decide +kernel

theorem test_WordCodeRegistersAct_2 : (fun (d : Die) (c u r dev a : Nat) (s : State) => (c < 6) ∧ (u < 2) ∧ (r < 2) ∧ (dev ≤ 10) ∧ (verdict s .CWU d false = .take) ∧ (markOf s d (2 * c + u) r = some a) ∧ (a ≠ dev) ∧ ((die s d).sru.spareSub = none)) .east 5 0 0 10 9 (wf F.CWU_ERASE.VALID_A0 .east 5 1 (wf F.CWU_ERASE.DEV_A0 .east 5 9 (inMode .serve))) := by
  decide +kernel

theorem test_WordCodeRegistersAct_3 : (fun (d : Die) (c : Nat) (v : Word) (s : State) => (c < 6) ∧ (verdict s .CWU d false = .take)) .west 5 0xFFFFFFFF (inMode .serve) := by
  decide +kernel

theorem test_WordCodeRegistersAct_4 : (fun (d : Die) (c : Nat) (s : State) => (verdict s .CWU d false = .take)) .west 5 (inMode .serve) := by
  decide +kernel

theorem test_WordCodeRegistersAct_5 : (fun (d : Die) (c dev r u : Nat) (s : State) => (c < 6) ∧ (dev < 11) ∧ (r < 2) ∧ (u < 2) ∧ (verdict s .CWU d false = .take)) .east 0 10 1 0 (withSub (fun b => { b with devcnt := [(10, 4), (26, 5)] })) := by
  decide +kernel

/-! ### LanternReadsAndRepairsComplete -/

theorem test_LanternReadsAndRepairsComplete_1 : (fun (d : Die) (i q l : Nat) (w : Bool) (s : State) => (i < 12) ∧ (rfb s F.SRU_SCRUB_CFG.EN d (i / 2) = true) ∧ (resting s = false) ∧ ((sub s d i).st = .live) ∧ (scrubHeld s d i = false) ∧ ((sub s d i).scrub.outstanding < 4) ∧ ((sub s d i).scrub.owed = 0) ∧ ((sub s d i).scrub.held = []) ∧ (scrubFind s d i 200 (sub s d i).scrub.q (sub s d i).scrub.line false = some (q, l, w))) .east 0 0 0 false (wf F.SRU_SCRUB_CFG.EN .east 0 1 (onSru .east (fun u => { u with liveList := [0] }) (inMode .serve))) := by
  decide +kernel

theorem test_LanternReadsAndRepairsComplete_2 : (fun (d : Die) (i : Nat) (s : State) => (rfb s F.SRU_SCRUB_CFG.EN d (i / 2) = true) ∧ (resting s = false) ∧ ((sub s d i).st = .live) ∧ (scrubHeld s d i = true ∨ (4 ≤ (sub s d i).scrub.outstanding ∧ (sub s d i).scrub.held = [])) ∧ ((sub s d i).scrub.owed < 65534)) .east 0 (wf F.SRU_SCRUB_CFG.EN .east 0 1 (withSub (fun b => { b with scrub := { b.scrub with outstanding := 4 } }))) := by
  decide +kernel

theorem test_LanternReadsAndRepairsComplete_3 : (fun (d : Die) (i k : Nat) (c : RemapCopy) (l : Option LineData) (m : RemapEnt) (s : State) => (i < 12) ∧ ((die s d).sru.remapCopies.find? (fun x => x.sub == i && x.entry == k) = some c) ∧ (c.got = some l) ∧ (nget (sub s d i).remap k = some m) ∧ ((sub s d i).wrq.length < 64) ∧ ((chan s d (i / 2)).frozen = none) ∧ ((chan s d (i / 2)).inj = none)) .east 0 31 (⟨0, 31, 5, true, some (some ⟨7, false⟩)⟩) (some ⟨7, false⟩) (⟨0, 3, false⟩) (onSru .east (fun u => { u with liveList := [0], remapCopies := [⟨0, 31, 5, true, some (some ⟨7, false⟩)⟩] }) (withSub (fun b => { b with remap := [(31, ⟨0, 3, false⟩)] }))) := by
  decide +kernel

theorem test_LanternReadsAndRepairsComplete_4 : (fun (d : Die) (i r k : Nat) (free : Bool) (x : RowRepair) (s : State) => (s.Idle) ∧ (i < 12) ∧ ((die s d).sru.rowRepairs.find? (fun x => x.sub == i && x.rank == r && x.bg * 4 + x.bank == k) = some x) ∧ (rowReady s d i (4 * rowFirstQ s d x.rank x.bg x.bank x.row) = true) ∧ ((chan s d (i / 2)).inj = none) ∧ ((sub s d i).remap = []) ∧ (s.dev.fuse.length < 1024) ∧ (((die s d).sru.rowRepairs.filter (fun y => y != x)).any (fun y => y.sub == i && y.rank == x.rank && y.bg == x.bg && y.bank == x.bank) = false) ∧ ((List.range 128).all (fun n => uninit (sub s d i) (4 * rowFirstQ s d x.rank x.bg x.bank x.row + n) || decide ((decodeLine (homeOf s d i (4 * rowFirstQ s d x.rank x.bg x.bank x.row + n)) (markOf s d i (qRank s d ((4 * rowFirstQ s d x.rank x.bg x.bank x.row + n) / 4))) (cellAt (sub s d i) (4 * rowFirstQ s d x.rank x.bg x.bank x.row + n) (homeOf s d i (4 * rowFirstQ s d x.rank x.bg x.bank x.row + n)))).outc = .none)) = true)) .east 0 0 5 true (⟨0, 0, 1, 1, 7, 3, 4⟩) (onSru .east (fun u => { u with liveList := [0], rowRepairs := [⟨0, 0, 1, 1, 7, 3, 4⟩] }) (withSub (fun b => { b with cells := [(0, 1)], initW := 0x4000000 }))) := by
  decide +kernel

theorem test_LanternReadsAndRepairsComplete_5 : (fun (d : Die) (s : State) => ((List.range 12).all (fun i => decide (risen s d i = []) || !(rfb s F.SRU_ERASE_CFG.EN d (i / 2))) = true)) .east (withSub (fun b => { b with devcnt := [(3, 7)] })) := by
  decide +kernel

/-! ### SparesAndSalvageTakeOver -/

theorem test_SparesAndSalvageTakeOver_1 : (fun (d : Die) (c u sp : Nat) (v : Word) (s : State) => (c < 6) ∧ (u < 2) ∧ (bitn v.toNat u = true) ∧ (bitn v.toNat (1 - u) = false) ∧ (verdict s .SRU d false = .take) ∧ ((die s d).sru.spareSub = some sp) ∧ ((die s d).sru.evac = none) ∧ ((sub s d (2 * c + u)).st = .live) ∧ ((die s d).sru.liveList.contains (2 * c + u) = true)) .east 5 0 11 1 (onSru .east (fun u => { u with liveList := [0, 10], spareSub := some 11 }) (inMode .serve)) := by
  decide +kernel

theorem test_SparesAndSalvageTakeOver_2 : (fun (d : Die) (e : EvacSt) (s : State) => (s.Idle) ∧ (e.failing < 12) ∧ ((die s d).sru.evac = some e) ∧ (e.rebuild = false) ∧ (e.begun = false) ∧ (e.q < qTop s d - 8) ∧ ((chan s d (e.failing / 2)).frozen = none) ∧ ((chan s d (e.spare / 2)).frozen = none) ∧ ((die s d).sru.remapCopies.any (·.sub == e.failing) = false) ∧ ((List.range 4).all (fun l => (dlaOf s (homeOf s d e.failing (4 * e.q + l))).isNone) = true)) .east (⟨0, 11, 2, false, false, [], [], 0, false⟩) (onSub .east 0 (fun b => { b with cells := [(8, 3)] }) (onSru .east (fun u => { u with liveList := [0], spareSub := some 11, evac := some ⟨0, 11, 2, false, false, [], [], 0, false⟩ }) (inMode .serve))) := by
  decide +kernel

theorem test_SparesAndSalvageTakeOver_3 : (fun (d : Die) (e : EvacSt) (s : State) => (s.Idle) ∧ (e.failing < 12) ∧ ((die s d).sru.evac = some e) ∧ (e.rebuild = false) ∧ (e.begun = true) ∧ (e.left = []) ∧ (e.q + 1 < qTop s d - 8) ∧ ((chan s d (e.failing / 2)).frozen = none) ∧ ((chan s d (e.spare / 2)).frozen = none) ∧ ((die s d).sru.remapCopies.any (·.sub == e.failing) = false) ∧ ((sub s d e.spare).wrq.length ≤ 60) ∧ ((sub s d e.spare).remap = []) ∧ (e.spare ≠ e.failing) ∧ ((List.range 4).all (fun l => (dlaOf s (homeOf s d e.failing (4 * (e.q + 1) + l))).isNone) = true)) .east (⟨0, 11, 2, true, true, [], [(0, ⟨9, false⟩), (1, ⟨0, true⟩)], 1, false⟩) (onSru .east (fun u => { u with liveList := [0], spareSub := some 11, evac := some ⟨0, 11, 2, true, true, [], [(0, ⟨9, false⟩), (1, ⟨0, true⟩)], 1, false⟩ }) (inMode .serve)) := by
  decide +kernel

theorem test_SparesAndSalvageTakeOver_4 : (fun (d : Die) (e : EvacSt) (s : State) => (s.Idle) ∧ (e.failing < 12) ∧ (e.spare < 12) ∧ (e.spare ≠ e.failing) ∧ ((die s d).sru.evac = some e) ∧ (e.rebuild = false) ∧ (qTop s d - 8 ≤ e.q) ∧ (drained s d e.failing = true) ∧ ((List.range 12).all (fun j => !(sub s d j).permanent) = true)) .east (⟨0, 11, 0x4000000, false, false, [], [], 0, false⟩) (onSru .east (fun u => { u with liveList := [0], spareSub := some 11, evac := some ⟨0, 11, 0x4000000, false, false, [], [], 0, false⟩ }) (wf F.CFE_POP.RANKS .east 0 0 (wf F.CFE_POP.DENSITY .east 0 0 (inMode .serve)))) := by
  decide +kernel

theorem test_SparesAndSalvageTakeOver_5 : (fun (d : Die) (n : Nat) (flips : List (Nat × Flips)) (s : State) => (s.Idle) ∧ (dieFresh s d = true) ∧ ((die s d).sru.memoryLost = false) ∧ (fenced s d = false) ∧ ((List.range 6).all (fun c => (chan s d c).frozen.isNone) = true) ∧ ((mirrorRegions s).contains n = true) ∧ ((die s d).sru.rebuilt.contains n = false) ∧ (writtenLines s (otherDie d) n = []) ∧ ((die s d).sru.evac = none)) .east 63 ([]) (wfc F.RGN_CTRL.ENABLE 1 63 (wfc F.RGN_ATTR.MIRROR 1 63 (onSru .east (fun u => { u with liveList := [0] }) (withSub (fun b => { b with fresh := .takeover }))))) := by
  decide +kernel

theorem test_SparesAndSalvageTakeOver_6 : (fun (d : Die) (free : Bool) (z : SalvageSt) (s : State) => (s.todo = []) ∧ (s.sani = none) ∧ ((die s (otherDie d)).sru.salvage = none) ∧ ((die s d).sru.salvage = some z) ∧ (salvageOver s d z = true) ∧ (11 ≤ ((die s d).sru.liveList.filter (· != z.sub)).length) ∧ ((die s d).sru.drip = []) ∧ ((tme s d).starved = []) ∧ ((die s d).sru.liveList.Nodup)) .east false (⟨3, 0⟩) (onTme .east (fun x => { x with staged := some none }) (onSub .east 1 (fun b => { b with cells := [(0, 5)], remap := [(2, ⟨0, 0, true⟩)] }) (onSru .east (fun u => { u with liveList := List.range 12, salvage := some ⟨3, 0⟩ }) { inMode .serve with nowNs := 5000000000000 }))) := by
  decide +kernel

theorem test_SparesAndSalvageTakeOver_7 : (fun (d : Die) (s : State) => (verdict s .SRU d false = .take)) .east (wf F.SRU_RETIRE_CTRL.SALVAGE_HOLD .east 5 1 (inMode .serve)) := by
  decide +kernel

/-! ### RegionDescriptorsTakeWritesAndEnables -/

theorem test_RegionDescriptorsTakeWritesAndEnables_1 : (fun (n off : Nat) (v : Word) (r : RegName) (sess : Option Nat) (s : State) => (s.Idle) ∧ (n < 64) ∧ (verdict s .RGN .east (sessOwner s sess) = .take) ∧ (rgOn s n = false) ∧ (rgReg off = some r)) 63 4 0x1234 .RGN_ATTR none (live .serve) := by
  decide +kernel

theorem test_RegionDescriptorsTakeWritesAndEnables_2 : (fun (n off : Nat) (v : Word) (r : RegName) (sess : Option Nat) (s : State) => (s.Idle) ∧ (n < 64) ∧ (verdict s .RGN .east (sessOwner s sess) = .take) ∧ (rgOn s n = true) ∧ (rgReg off = some r) ∧ (r ≠ .RGN_ATTR) ∧ (takeFields (regFields r) (rdReg s r .east n) v.toNat ≠ rdReg s r .east n)) 0 8 9 .RGN_PLACE none (withRegion 0) := by
  decide +kernel

theorem test_RegionDescriptorsTakeWritesAndEnables_3 : (fun (n : Nat) (v : Word) (sess : Option Nat) (s : State) => (s.Idle) ∧ (n < 64) ∧ (verdict s .RGN .east (sessOwner s sess) = .take) ∧ (rgOn s n = true) ∧ (takeFields rgFree (rgAttr s n) v.toNat = takeFields (regFields .RGN_ATTR) (rgAttr s n) v.toNat)) 0 0x1860 none (withRegion 0) := by
  decide +kernel

theorem test_RegionDescriptorsTakeWritesAndEnables_4 : (fun (n : Nat) (sess : Option Nat) (s : State) => (s.Idle) ∧ (n < 64) ∧ (verdict s .RGN .east (sessOwner s sess) = .take) ∧ (rgOn s n = false) ∧ (enableFault s n = none)) 0 none (wfc F.RGN_CTRL.ENABLE 0 0 (withRegion 0)) := by
  decide +kernel

theorem test_RegionDescriptorsTakeWritesAndEnables_5 : (fun (n r : Nat) (sess : Option Nat) (s : State) => (s.Idle) ∧ (n < 64) ∧ (verdict s .RGN .east (sessOwner s sess) = .take) ∧ (rgOn s n = false) ∧ (enableFault s n = some r)) 1 1 none (withRegion 0) := by
  decide +kernel

theorem test_RegionDescriptorsTakeWritesAndEnables_6 : (fun (n off : Nat) (v : Word) (sess : Option Nat) (s : State) => (s.Idle) ∧ (verdict s .RGN .east (sessOwner s sess) = .denied)) 0 0 7 none (wfc F.SEC_POLICY.LOCKDOWN 1 0 (live .serve)) := by
  decide +kernel

/-! ### RegionFillsAndDisablesEnd -/

theorem test_RegionFillsAndDisablesEnd_1 : (fun (n : Nat) (s : State) => (s.Idle) ∧ (n < 64) ∧ (rgOn s n = true) ∧ (rg s F.RGN_CTRL.BUSY n = 1) ∧ (atTiered (rgAttr s n) = false) ∧ (∀ o, o ∈ rgDies (rgAttr s n) → shareRuns s o n = [] ∧ ∀ c, c < 6 → (chan s o c).inj = none)) 0 (onSub .east 3 (fun b => { b with cells := [(7, 9), (0x3ffffff, 3)] }) (wfc F.RGN_CTRL.BUSY 1 0 (withRegion 0))) := by
  decide +kernel

theorem test_RegionFillsAndDisablesEnd_2 : (fun (n : Nat) (sess : Option Nat) (s : State) => (s.Idle) ∧ (n < 64) ∧ (verdict s .RGN .east (sessOwner s sess) = .take) ∧ (rgOn s n = true) ∧ (atTiered (rgAttr s n) = false) ∧ (atCoherent (rgAttr s n) = false) ∧ (s.tables = []) ∧ (s.east.pools = []) ∧ (s.west.pools = []) ∧ (s.east.badNodes = []) ∧ (s.west.badNodes = []) ∧ (s.rots = [])) 0 none (withRegion 0) := by
  decide +kernel

theorem test_RegionFillsAndDisablesEnd_3 : (fun (n : Nat) (s : State) => (s.Idle) ∧ (n < 64) ∧ (rgOn s n = false) ∧ (rg s F.RGN_CTRL.BUSY n = 1) ∧ (regionBusy s n = false) ∧ (atTiered (rgAttr s n) = false) ∧ (s.tables = []) ∧ (s.east.pools = []) ∧ (s.west.pools = [])) 0 (keepBound 0 (wfc F.RGN_CTRL.ENABLE 0 0 (wfc F.RGN_CTRL.BUSY 1 0 (withRegion 0)))) := by
  decide +kernel

theorem test_RegionFillsAndDisablesEnd_4 : (fun (n : Nat) (s : State) => (s.Idle) ∧ (n < 64) ∧ (rgOn s n = false) ∧ (rg s F.RGN_CTRL.BUSY n = 1) ∧ (regionBusy s n = false) ∧ (atTiered (rgAttr s n) = true) ∧ (s.tables = []) ∧ (s.east.pools = []) ∧ (s.west.pools = []) ∧ ((tme s (atHome (rgAttr s n))).starved = []) ∧ ((tme s (atHome (rgAttr s n))).full = []) ∧ ((tme s (atHome (rgAttr s n))).jobs = [])) 0 (keepBound 0 (wfc F.RGN_CTRL.ENABLE 0 0 (wfc F.RGN_CTRL.BUSY 1 0 (withPage 9 (aPage 40))))) := by
  decide +kernel

/-! ### PagesMoveAndTheirOldPlacesDrain -/

theorem test_PagesMoveAndTheirOldPlacesDrain_1 : (fun (d : Die) (n dla : Nat) (e : PageEnt) (s : State) => (rfb s F.TME_POLICY.EN d 0 = true) ∧ (serving s = true) ∧ (resting s = false) ∧ ((tieredOn s d).contains n = true) ∧ (rgHolds s n dla = true) ∧ ((die s d).sru.salvage = none) ∧ (rfb s F.TME_STATUS.REHOME d 0 = false) ∧ (dla % 4096 = 0) ∧ (pageEnt s d (pageKey s n dla) = e) ∧ (cachedEntry s d (pageKey s n dla) = true) ∧ (e.tier = tT0) ∧ (e.pin = false) ∧ (freshIncomp s d e = false) ∧ (e.heat = 0) ∧ (spared s d (pageKey s n dla) = false) ∧ (movable s d (pageKey s n dla) = true)) .east 0 36864 (aPage 40) (withPage 9 (aPage 40)) := by
  decide +kernel

theorem test_PagesMoveAndTheirOldPlacesDrain_2 : (fun (d : Die) (n dla k rp : Nat) (e : PageEnt) (s : State) => (s.Idle) ∧ (rfb s F.TME_POLICY.EN d 0 = true) ∧ (serving s = true) ∧ (resting s = false) ∧ ((tieredOn s d).contains n = true) ∧ (rgHolds s n dla = true) ∧ ((die s d).sru.salvage = none) ∧ (rfb s F.TME_STATUS.REHOME d 0 = false) ∧ (dla % 4096 = 0) ∧ (pageEnt s d (pageKey s n dla) = e) ∧ (cachedEntry s d (pageKey s n dla) = true) ∧ (e.tier = tT1) ∧ (farAge s d e = true) ∧ (e.heat = 0) ∧ (spared s d (pageKey s n dla) = false) ∧ (moveOf s d (pageKey s n dla) = none) ∧ (freeSlot s d = some k) ∧ (t2Allowed s n = true) ∧ ((outPort s d (rf s F.TME_T2_CFG.NODE d 0)).isSome = true) ∧ (lowGap (tme s d).pool 0 < poolSize s d) ∧ (rp = rf s F.TME_T2_CFG.BASE_G d 0 * 262144 + lowGap (tme s d).pool 0)) .east 0 36864 0 0 ({ aPage 640 with tier := 2 }) (withPeer aCtx (wf F.TME_T2_SIZE.SIZE_G .east 0 1 (wf F.TME_T2_CFG.NODE .east 0 2 (wf F.TME_POLICY.T2_AGE .east 0 0 (withPage 9 { aPage 640 with tier := 2 }))))) := by
  decide +kernel

theorem test_PagesMoveAndTheirOldPlacesDrain_3 : (fun (d : Die) (k : Nat) (m : MoveSt) (s : State) => (nget (tme s d).moves k = some m) ∧ (m.accepted = true) ∧ (m.committed = false)) .east 0 (⟨7, .code false, true, [], 0, 9, 36864, { aPage 40 with tier := 0, place := 0 }, aPage 40, false, true, false, [], .sweep⟩) (onTme .east (fun t => { t with moves := [(0, ⟨7, .code false, true, [], 0, 9, 36864, { aPage 40 with tier := 0, place := 0 }, aPage 40, false, true, false, [], .sweep⟩)] }) (withPage 9 (aPage 40))) := by
  decide +kernel

theorem test_PagesMoveAndTheirOldPlacesDrain_4 : (fun (d : Die) (k : Nat) (m : MoveSt) (s : State) => (s.Idle) ∧ (nget (tme s d).moves k = some m) ∧ (m.accepted = true) ∧ (m.committed = false) ∧ (m.waiting = []) ∧ (m.why = .sweep) ∧ ((tme s d).full = [])) .east 0 (⟨7, .code false, true, [], 0, 9, 36864, { aPage 40 with tier := 0, place := 0 }, aPage 40, false, true, false, [], .sweep⟩) (onTme .east (fun t => { t with moves := [(0, ⟨7, .code false, true, [], 0, 9, 36864, { aPage 40 with tier := 0, place := 0 }, aPage 40, false, true, false, [], .sweep⟩)] }) (withPage 9 (aPage 40))) := by
  decide +kernel

theorem test_PagesMoveAndTheirOldPlacesDrain_5 : (fun (d : Die) (k : Nat) (m : MoveSt) (s : State) => (nget (tme s d).moves k = some m) ∧ (m.committed = true) ∧ (drainCount s d m = 0)) .east 0 (⟨7, .code false, true, [], 0, 9, 36864, { aPage 40 with tier := 0, place := 0 }, aPage 40, false, true, true, [], .sweep⟩) (onTme .east (fun t => { t with moves := [(0, ⟨7, .code false, true, [], 0, 9, 36864, { aPage 40 with tier := 0, place := 0 }, aPage 40, false, true, true, [], .sweep⟩)] }) (withPage 9 PageEnt.blank)) := by
  decide +kernel

/-! ### FillsReleasesAndRehomesEnd -/

theorem test_FillsReleasesAndRehomesEnd_1 : (fun (d : Die) (i : Nat) (s : State) => (s.Idle) ∧ (i < 12) ∧ (0 < (sub s d i).initW) ∧ (fillRuns s d i = true) ∧ ((sub s d i).demand.contains ((sub s d i).initW - 1) = true)) .east 2 (onSub .east 2 (fun b => { b with initW := 1, demand := [0], cells := [(3, 5), (4, 8)] }) (live .serve)) := by
  decide +kernel

theorem test_FillsReleasesAndRehomesEnd_2 : (fun (d : Die) (i : Nat) (s : State) => (s.Idle) ∧ (i < 12) ∧ (0 < (sub s d i).initW) ∧ (fillRuns s d i = true) ∧ ((sub s d i).demand.contains ((sub s d i).initW - 1) = false) ∧ (queueRoom s d i (4 * ((sub s d i).initW - 1)) 4 = true) ∧ ((sub s d i).remap = [])) .east 2 (onSub .east 2 (fun b => { b with initW := 2, demand := [0], cells := [(3, 5), (4, 8)] }) (live .serve)) := by
  decide +kernel

theorem test_FillsReleasesAndRehomesEnd_3 : (fun (d : Die) (i : Nat) (r : Req) (rest : List Req) (s : State) => ((chan s d (i / 2)).frozen = none) ∧ (s.dev.mode ≠ .hold) ∧ ((sub s d i).demandHeld = r :: rest) ∧ (uninit (sub s d i) r.loc = false) ∧ (writeRoom s d r = true)) .east 0 (aWrite 2 7) ([]) (withSub (fun b => { b with demandHeld := [aWrite 2 7] })) := by
  decide +kernel

theorem test_FillsReleasesAndRehomesEnd_4 : (fun (d : Die) (n dla : Nat) (r : MemReq) (s : State) => ((tme s d).starved = [r]) ∧ (r.region = n) ∧ (r.dla / 4096 = dla / 4096) ∧ (dla % 4096 = 0) ∧ ((tme s d).jobs = []) ∧ ((tme s d).stuck = []) ∧ (cachedEntry s d (pageKey s n dla) = true) ∧ ((pageEnt s d (pageKey s n dla)).tier ≠ tT0) ∧ (frameHi s d n ≤ lowGap (tme s d).frames (frameLo s n))) .east 0 36864 (⟨.host .east 4, .wr, .east, .hp0, none, false, 0, 1, 36864, ⟨5, false⟩, BitVec.allOnes 64, none, false, false⟩) (wrReg .RGN_PLACE .east 0 2047 (onTme .east (fun t => { t with starved := [⟨.host .east 4, .wr, .east, .hp0, none, false, 0, 1, 36864, ⟨5, false⟩, BitVec.allOnes 64, none, false, false⟩] }) (withPage 9 PageEnt.blank))) := by
  decide +kernel

theorem test_FillsReleasesAndRehomesEnd_5 : (fun (d : Die) (kept lost : Nat) (s : State) => (s.Idle) ∧ ((tme s d).rehome = some (kept, lost, []))) .west 5 0 (onTme .west (fun t => { t with rehome := some (5, 0, []) }) (live .serve)) := by
  decide +kernel

/-! ### TieringDescriptorsReportPages -/

theorem test_TieringDescriptorsReportPages_1 : (fun (d : Die) (e : Desc) (p : PageEnt) (s : State) => (s.Runs d e 0x51) ∧ (tmeCheck d e (e.zero 16 48) 1 s = (0, s)) ∧ (cachedEntry s (atHome (rgAttr s (e.arg % 64))) (pageKey s (e.arg % 64) (e.num 8 8)) = true) ∧ (pageEnt s (atHome (rgAttr s (e.arg % 64))) (pageKey s (e.arg % 64) (e.num 8 8)) = p)) .east (aDesc 0x51 0 36864) (aPage 40) (withDesc (aDesc 0x51 0 36864) (withPage 9 (aPage 40))) := by
  decide +kernel

theorem test_TieringDescriptorsReportPages_2 : (fun (d : Die) (e : Desc) (p : PageEnt) (s : State) => (s.Runs d e 0x52) ∧ (e.phase = 0) ∧ (tmeCheck d e (e.zero 21 43 && decide (e.num 20 1 < 2)) (e.num 16 4) s = (0, s)) ∧ (e.num 16 4 = 1) ∧ (cachedEntry s (atHome (rgAttr s (e.arg % 64))) (pageKey s (e.arg % 64) (e.num 8 8)) = true) ∧ (e.num 20 1 = 0) ∧ (e.num 8 8 % 4096 = 0) ∧ (movable s (atHome (rgAttr s (e.arg % 64))) (pageKey s (e.arg % 64) (e.num 8 8)) = true) ∧ (nget (tme s (atHome (rgAttr s (e.arg % 64)))).jobs (s.seq + 1) = none) ∧ (jobMoves s (atHome (rgAttr s (e.arg % 64))) (s.seq + 1) = 0) ∧ (pageEnt s (atHome (rgAttr s (e.arg % 64))) (pageKey s (e.arg % 64) (e.num 8 8)) = p)) .east (aDesc 0x52 0 (36864 + 2 ^ 64)) ({ aPage 40 with pin := true }) (withDesc (aDesc 0x52 0 (36864 + 2 ^ 64)) (withPage 9 { aPage 40 with pin := true })) := by
  decide +kernel

theorem test_TieringDescriptorsReportPages_3 : (fun (d : Die) (e : Desc) (s : State) => (s.Runs d e 0x50) ∧ (e.phase = 0) ∧ (tmeCheck d e (e.zero 21 43 && decide (e.num 20 1 < 4)) (e.num 16 4) s = (0, s)) ∧ (e.num 16 4 = 1) ∧ (cachedEntry s (atHome (rgAttr s (e.arg % 64))) (pageKey s (e.arg % 64) (e.num 8 8)) = true) ∧ (e.num 20 1 < 3) ∧ (e.num 8 8 % 4096 = 0) ∧ (movable s (atHome (rgAttr s (e.arg % 64))) (pageKey s (e.arg % 64) (e.num 8 8)) = true) ∧ (nget (tme s (atHome (rgAttr s (e.arg % 64)))).jobs (s.seq + 1) = none) ∧ (jobMoves s (atHome (rgAttr s (e.arg % 64))) (s.seq + 1) = 0) ∧ ((pageEnt s (atHome (rgAttr s (e.arg % 64))) (pageKey s (e.arg % 64) (e.num 8 8))).tier = e.num 20 1 + 1)) .east (aDesc 0x50 0 (36864 + 2 ^ 64)) (withDesc (aDesc 0x50 0 (36864 + 2 ^ 64)) (withPage 9 (aPage 40))) := by
  decide +kernel

theorem test_TieringDescriptorsReportPages_4 : (fun (d : Die) (e : Desc) (p : PageEnt) (k : Nat) (s : State) => (s.Runs d e 0x50) ∧ (e.phase = 0) ∧ (tmeCheck d e (e.zero 21 43 && decide (e.num 20 1 < 4)) (e.num 16 4) s = (0, s)) ∧ (e.num 16 4 = 1) ∧ (cachedEntry s (atHome (rgAttr s (e.arg % 64))) (pageKey s (e.arg % 64) (e.num 8 8)) = true) ∧ (e.num 20 1 = 3) ∧ (e.num 8 8 % 4096 = 0) ∧ (movable s (atHome (rgAttr s (e.arg % 64))) (pageKey s (e.arg % 64) (e.num 8 8)) = true) ∧ (nget (tme s (atHome (rgAttr s (e.arg % 64)))).jobs (s.seq + 1) = none) ∧ (freeSlot s (atHome (rgAttr s (e.arg % 64))) = some k) ∧ (pageEnt s (atHome (rgAttr s (e.arg % 64))) (pageKey s (e.arg % 64) (e.num 8 8)) = p) ∧ (p.tier = tT1) ∧ (p.pin = false)) .east (aDesc 0x50 0 (36864 + 2 ^ 64 + 3 * 2 ^ 96)) ({ aPage 640 with tier := 2 }) 0 (withDesc (aDesc 0x50 0 (36864 + 2 ^ 64 + 3 * 2 ^ 96)) (withPage 9 { aPage 640 with tier := 2 })) := by
  decide +kernel

theorem test_TieringDescriptorsReportPages_5 : (fun (d : Die) (e : Desc) (s : State) => (s.Runs d e 0x51) ∧ (tmeCheck d e (e.zero 16 48) 1 s = (0, s)) ∧ (cachedEntry s (atHome (rgAttr s (e.arg % 64))) (pageKey s (e.arg % 64) (e.num 8 8)) = false) ∧ (wayFree s (atHome (rgAttr s (e.arg % 64))) (pageKey s (e.arg % 64) (e.num 8 8)) = true) ∧ (s.ops.all (fun p => p.2.job != .map (atHome (rgAttr s (e.arg % 64))) (pageKey s (e.arg % 64) (e.num 8 8))) = true) ∧ ((placeOf s (mapHome s (atHome (rgAttr s (e.arg % 64))) (pageKey s (e.arg % 64) (e.num 8 8)))).isSome = true)) .east (aDesc 0x51 0 36864) (withDesc (aDesc 0x51 0 36864) (onTme .east (fun t => { t with cached := [] }) (withPage 9 (aPage 40)))) := by
  decide +kernel

theorem test_TieringDescriptorsReportPages_6 : (fun (d : Die) (e : Desc) (s : State) => (s.Runs d e 0x51) ∧ (rgLive s (e.arg % 64) = false)) .east (aDesc 0x51 1 0) (withDesc (aDesc 0x51 1 0) (live .serve)) := by
  decide +kernel

/-! ### KeySlotsAreGeneratedBoundRotatedAndDestroyed -/

theorem test_KeySlotsAreGeneratedBoundRotatedAndDestroyed_1 : (fun (d : Die) (e : Desc) (k : Nat) (s : State) => (s.Runs d e 0x60) ∧ (keyFieldsOk e true = true) ∧ (e.num 8 1 = k) ∧ ((slotOf s k).st = .empty) ∧ (noEntropy s = false)) .east (aDesc 0x60 0 (9 + 0x10003 * 2 ^ 32)) 9 (withDesc (aDesc 0x60 0 (9 + 0x10003 * 2 ^ 32)) (live .serve)) := by
  decide +kernel

theorem test_KeySlotsAreGeneratedBoundRotatedAndDestroyed_2 : (fun (d : Die) (e : Desc) (k : Nat) (s : State) => (s.Runs d e 0x61) ∧ (keyFieldsOk e false = true) ∧ (e.num 8 1 = k) ∧ ((slotOf s k).st = .active) ∧ ((slotOf s k).epoch < 65535) ∧ ((s.slots.filter (fun p => p.2.st == .rotating)).length < 4) ∧ (noEntropy s = false) ∧ (slotRegions s k = [])) .east (aDesc 0x61 0 9) 9 (withDesc (aDesc 0x61 0 9) { live .serve with slots := [(9, { SlotSt.reset with st := .active, bind := 3 })] }) := by
  decide +kernel

theorem test_KeySlotsAreGeneratedBoundRotatedAndDestroyed_3 : (fun (d : Die) (e : Desc) (k : Nat) (s : State) => (s.Runs d e 0x61) ∧ (keyFieldsOk e false = true) ∧ (e.num 8 1 = k) ∧ ((slotOf s k).st = .active) ∧ ((slotOf s k).epoch < 65535) ∧ ((s.slots.filter (fun p => p.2.st == .rotating)).length < 4) ∧ (noEntropy s = false) ∧ ((rotNext s k 0 0).isSome = true)) .east (aDesc 0x61 0 0) 0 (withDesc (aDesc 0x61 0 0) (withRegion 0)) := by
  decide +kernel

theorem test_KeySlotsAreGeneratedBoundRotatedAndDestroyed_4 : (fun (d : Die) (e : Desc) (k : Nat) (s : State) => (s.Runs d e 0x62) ∧ (keyFieldsOk e false = true) ∧ (e.num 8 1 = k) ∧ ((slotOf s k).st = .active) ∧ (slotRegions s k = []) ∧ (nwf s.slots = true)) .east (aDesc 0x62 0 9) 9 (withDesc (aDesc 0x62 0 9) { live .serve with slots := [(9, { SlotSt.reset with st := .active, bind := 3 })] }) := by
  decide +kernel

theorem test_KeySlotsAreGeneratedBoundRotatedAndDestroyed_5 : (fun (d : Die) (e : Desc) (k : Nat) (s : State) => (s.Runs d e 0x63) ∧ (keyFieldsOk e true = true) ∧ (e.num 8 1 = k) ∧ ((slotOf s k).st ≠ .empty)) .east (aDesc 0x63 0 (9 + 0x10003 * 2 ^ 32)) 9 (withDesc (aDesc 0x63 0 (9 + 0x10003 * 2 ^ 32)) { live .serve with slots := [(9, { SlotSt.reset with st := .active, bind := 4 })] }) := by
  decide +kernel

theorem test_KeySlotsAreGeneratedBoundRotatedAndDestroyed_6 : (fun (d : Die) (e : Desc) (s : State) => (s.Runs d e 0x64) ∧ (keyFieldsOk e false = true)) .east (aDesc 0x64 0 9) (withDesc (aDesc 0x64 0 9) (live .serve)) := by
  decide +kernel

theorem test_KeySlotsAreGeneratedBoundRotatedAndDestroyed_7 : (fun (d : Die) (e : Desc) (s : State) => (s.Runs d e 0x60) ∧ (keyFieldsOk e true = true) ∧ ((slotOf s (e.num 8 1)).st ≠ .empty)) .east (aDesc 0x60 0 0) (withDesc (aDesc 0x60 0 0) (withRegion 0)) := by
  decide +kernel

/-! ### RotationAndEntropyAreKept -/

theorem test_RotationAndEntropyAreKept_1 : (fun (k : Nat) (s : State) => (s.Idle) ∧ ((slotOf s k).st = .rotating) ∧ (serving s = true) ∧ (resting s = false) ∧ (nget s.rots k = none) ∧ (rotNext s k (slotOf s k).curRegion (slotOf s k).curBlock = none)) 4 ({ live .serve with slots := [(4, { SlotSt.reset with st := .rotating, pxts := 9, epoch := 3 })] }) := by
  decide +kernel

theorem test_RotationAndEntropyAreKept_2 : (fun (k n b : Nat) (s : State) => ((slotOf s k).st = .rotating) ∧ (serving s = true) ∧ (resting s = false) ∧ (nget s.rots k = none) ∧ (rotNext s k (slotOf s k).curRegion (slotOf s k).curBlock = some (n, b)) ∧ (atTiered (rgAttr s n) = false) ∧ ((rgDies (rgAttr s n)).all (fun d => belowBad s d n (flatDla s n (4 * b)) || (metaNext s d n (rgAttr s n) (4 * b)).isNone) = true)) 0 0 5 ({ withRegion 0 with slots := [(0, { SlotSt.reset with st := .rotating, bind := 7, domain := 1, xts := 3, mac := 4, pxts := 5, pmac := 6, curBlock := 5 })] }) := by
  decide +kernel

theorem test_RotationAndEntropyAreKept_3 : (fun (k : Nat) (r : RotSt) (s : State) => ((slotOf s k).st = .rotating) ∧ (serving s = true) ∧ (resting s = false) ∧ (nget s.rots k = some r) ∧ (r.need = []) ∧ (r.stale = false) ∧ ((rgDies (rgAttr s r.region)).all (fun d => blockQuiet s d (blockHome s d r.region r.block)) = true)) 0 (⟨1, 0, 5, [], [], false, []⟩) ({ withRegion 0 with rots := [(0, ⟨1, 0, 5, [], [], false, []⟩)], slots := [(0, { SlotSt.reset with st := .rotating, bind := 7, domain := 1, xts := 3, mac := 4, pxts := 5, pmac := 6, curBlock := 5 })] }) := by
  decide +kernel

theorem test_RotationAndEntropyAreKept_4 : (fun (d : Die) (s : State) => ((die s d).drbgStopped = false) ∧ (2 ^ 20 ≤ (die s d).drbgUsed)) .west (onDie .west (fun x => { x with drbgUsed := 1048576 }) (live .serve)) := by
  decide +kernel

theorem test_RotationAndEntropyAreKept_5 : (fun (d : Die) (test : Nat) (s : State) => (diePresent s d = true) ∧ ((die s d).drbgStopped = false)) .east 2 (live .serve) := by
  decide +kernel

theorem test_RotationAndEntropyAreKept_6 : (fun (sess : Option Nat) (s : State) => (verdict s .SEC .east (sessOwner s sess) = .take)) none (live .serve) := by
  decide +kernel

/-! ### SanitizeDestroysTheKeys -/

theorem test_SanitizeDestroysTheKeys_1 : (fun (d : Die) (e : Desc) (s : State) => (s.Runs d e 0x65) ∧ (e.phase = 0) ∧ (saniStatus e s = 0) ∧ (e.num 8 1 = 0) ∧ (boundRegions s = []) ∧ (s.ops = []) ∧ (noEntropy s = false) ∧ ((cdr s .east).dir = []) ∧ ((cdr s .west).dir = []) ∧ ((diesPresent s).any (keyUnderWay s) = false)) .east (aDesc 0x65 0 0) (withDesc (aDesc 0x65 0 0) { live .serve with metaKey := some (5, 6), slots := [(4, { SlotSt.reset with st := .active })] }) := by
  decide +kernel

theorem test_SanitizeDestroysTheKeys_2 : (fun (d : Die) (e : Desc) (s : State) => (s.Runs d e 0x65) ∧ (e.phase = 0) ∧ (saniStatus e s = 0) ∧ (e.num 8 1 = 1) ∧ (boundRegions s = []) ∧ (s.ops = []) ∧ (noEntropy s = false) ∧ ((cdr s .east).dir = []) ∧ ((cdr s .west).dir = []) ∧ ((diesPresent s).any (keyUnderWay s) = false)) .east (aDesc 0x65 0 1) (withDesc (aDesc 0x65 0 1) { live .serve with metaKey := some (5, 6), slots := [(4, { SlotSt.reset with st := .active })] }) := by
  decide +kernel

theorem test_SanitizeDestroysTheKeys_3 : (fun (p : Die) (tag : Nat) (z : SaniSt) (s : State) => (s.todo = []) ∧ (s.east.sru.salvage = none) ∧ (s.west.sru.salvage = none) ∧ (s.sani = some z) ∧ (z.desc = none) ∧ (z.session = some (p, tag)) ∧ (z.destroyed = true) ∧ (z.overwrite = true) ∧ (z.debug = false) ∧ (s.dev.mode = .sanitize) ∧ (saniFilled s = true)) .east 7 (⟨none, some (.east, 7), true, true, false, false, true⟩) ({ live .sanitize with sani := some ⟨none, some (.east, 7), true, true, false, false, true⟩ }) := by
  decide +kernel

theorem test_SanitizeDestroysTheKeys_4 : (fun (p : Die) (n : Nat) (x : SpdmSess) (s : State) => (mboxOpen s p = true) ∧ (3 ≤ s.spdm.stage) ∧ (nget s.spdm.sessions n = some x) ∧ (x.open_ = true) ∧ (serving s = true) ∧ (s.dev.trans = none)) .east 3 (⟨true, true, 0⟩) (withSession ⟨true, true, 0⟩ (live .serve)) := by
  decide +kernel

theorem test_SanitizeDestroysTheKeys_5 : (fun (p : Die) (n : Nat) (x : SpdmSess) (s : State) => (s.Idle) ∧ (mboxOpen s p = true) ∧ (3 ≤ s.spdm.stage) ∧ (nget s.spdm.sessions n = some x) ∧ (x.open_ = true)) .east 3 (⟨true, true, 0⟩) (withSession ⟨true, true, 0⟩ (live .serve)) := by
  decide +kernel

/-! ### LinksAreSecuredBySessionsAndMka -/

theorem test_LinksAreSecuredBySessionsAndMka_1 : (fun (p : Die) (n : Nat) (x : SpdmSess) (k : Key) (s : State) => (mboxOpen s p = true) ∧ (3 ≤ s.spdm.stage) ∧ (nget s.spdm.sessions n = some x) ∧ (x.open_ = true)) .east 3 (⟨true, false, 0⟩) 77 (withSession ⟨true, false, 0⟩ (live .serve)) := by
  decide +kernel

theorem test_LinksAreSecuredBySessionsAndMka_2 : (fun (p : Die) (n : Nat) (x : SpdmSess) (k : Key) (s : State) => (mboxOpen s p = true) ∧ (3 ≤ s.spdm.stage) ∧ (nget s.spdm.sessions n = some x) ∧ (x.open_ = true)) .east 3 (⟨true, false, 0⟩) 77 (withSession ⟨true, false, 0⟩ (live .serve)) := by
  decide +kernel

theorem test_LinksAreSecuredBySessionsAndMka_3 : (fun (p : Die) (n : Nat) (x : SpdmSess) (k : Key) (s : State) => (mboxOpen s p = true) ∧ (3 ≤ s.spdm.stage) ∧ (nget s.spdm.sessions n = some x) ∧ (x.open_ = true)) .east 3 (⟨true, false, 0⟩) 77 (withSession ⟨true, false, 0⟩ (live .serve)) := by
  decide +kernel

theorem test_LinksAreSecuredBySessionsAndMka_4 : (fun (d : Die) (node : Nat) (s : State) => (fabPresent s d = true) ∧ (rfb s F.FPC_PORT_CFG.EN d 0 = true) ∧ (rfb s F.FPC_LINK_STATUS.UP d 0 = true) ∧ (s.msx.cak ≠ none)) .west 5 (wf F.FPC_PORT_CFG.EN .west 0 1 (wf F.FPC_LINK_STATUS.UP .west 0 1 { live .serve with msx := { (live .serve).msx with cak := some 6 } })) := by
  decide +kernel

theorem test_LinksAreSecuredBySessionsAndMka_5 : (fun (d : Die) (s : State) => (rfb s F.FPC_LINK_STATUS.SECURE d 0 = true)) .west (wf F.FPC_LINK_STATUS.SECURE .west 0 1 (live .serve)) := by
  decide +kernel

/-! ### SpdmNegotiatesAndAttests -/

theorem test_SpdmNegotiatesAndAttests_1 : (fun (p : Die) (s : State) => (mboxOpen s p = true)) .east (portUp0 (live .serve)) := by
  decide +kernel

theorem test_SpdmNegotiatesAndAttests_2 : (fun (p : Die) (limit : Nat) (s : State) => (mboxOpen s p = true) ∧ (1 ≤ s.spdm.stage)) .east 9 (withSession ⟨true, true, 0⟩ (live .serve)) := by
  decide +kernel

theorem test_SpdmNegotiatesAndAttests_3 : (fun (p : Die) (asym hash dhe aead : Nat) (s : State) => (mboxOpen s p = true) ∧ (2 ≤ s.spdm.stage) ∧ (12 < s.spdm.limit)) .east 0x80 2 0x10 2 (withSession ⟨true, true, 0⟩ (live .serve)) := by
  decide +kernel

theorem test_SpdmNegotiatesAndAttests_4 : (fun (p : Die) (s : State) => (mboxOpen s p = true) ∧ (3 ≤ s.spdm.stage)) .east (withSession ⟨true, true, 0⟩ (live .serve)) := by
  decide +kernel

theorem test_SpdmNegotiatesAndAttests_5 : (fun (p : Die) (slot off len : Nat) (c : List Byte) (s : State) => (mboxOpen s p = true) ∧ (3 ≤ s.spdm.stage) ∧ (certChain s slot = some c)) .east 5 1 2 ([7, 8, 9, 10]) ({ withSession ⟨true, true, 0⟩ (live .serve) with dev := { (live .serve).dev with flash := { FlashSt.reset with certs := [(5, [7, 8, 9, 10])] } } }) := by
  decide +kernel

theorem test_SpdmNegotiatesAndAttests_6 : (fun (p : Die) (slot nonce : Nat) (s : State) => (mboxOpen s p = true) ∧ (3 ≤ s.spdm.stage) ∧ ((certChain s slot).isSome = true)) .east 0 2 (withSession ⟨true, true, 0⟩ (live .serve)) := by
  decide +kernel

theorem test_SpdmNegotiatesAndAttests_7 : (fun (p : Die) (i : Nat) (s : State) => (mboxOpen s p = true) ∧ (3 ≤ s.spdm.stage) ∧ (1 ≤ i) ∧ (i ≤ 6)) .east 4 (withSession ⟨true, true, 0⟩ (live .serve)) := by
  decide +kernel

theorem test_SpdmNegotiatesAndAttests_8 : (fun (p : Die) (s : State) => (mboxOpen s p = true) ∧ (3 ≤ s.spdm.stage)) .east (withSession ⟨true, true, 0⟩ (live .serve)) := by
  decide +kernel

/-! ### SpdmSessionsOpenServeAndEnd -/

theorem test_SpdmSessionsOpenServeAndEnd_1 : (fun (p : Die) (n slot : Nat) (s : State) => (mboxOpen s p = true) ∧ (3 ≤ s.spdm.stage) ∧ ((certChain s slot).isSome = true) ∧ (nget s.spdm.sessions n = none)) .east 4 0 (withSession ⟨true, true, 0⟩ (live .serve)) := by
  decide +kernel

theorem test_SpdmSessionsOpenServeAndEnd_2 : (fun (p : Die) (n : Nat) (root : Option Nat) (x : SpdmSess) (s : State) => (mboxOpen s p = true) ∧ (3 ≤ s.spdm.stage) ∧ (nget s.spdm.sessions n = some x) ∧ (x.open_ = false)) .east 3 (some 2) (⟨false, false, 0⟩) (withSession ⟨false, false, 0⟩ (live .serve)) := by
  decide +kernel

theorem test_SpdmSessionsOpenServeAndEnd_3 : (fun (p : Die) (n : Nat) (root : Option Nat) (x : SpdmSess) (s : State) => (mboxOpen s p = true) ∧ (3 ≤ s.spdm.stage) ∧ (nget s.spdm.sessions n = some x) ∧ (x.open_ = false)) .east 3 (some 2) (⟨false, false, 0⟩) (withSession ⟨false, false, 0⟩ (live .serve)) := by
  decide +kernel

theorem test_SpdmSessionsOpenServeAndEnd_4 : (fun (p : Die) (n : Nat) (x : SpdmSess) (s : State) => (mboxOpen s p = true) ∧ (3 ≤ s.spdm.stage) ∧ (nget s.spdm.sessions n = some x) ∧ (x.open_ = true)) .east 3 (⟨true, false, 0⟩) (withSession ⟨true, false, 0⟩ (live .serve)) := by
  decide +kernel

theorem test_SpdmSessionsOpenServeAndEnd_5 : (fun (p : Die) (n op tag : Nat) (x : SpdmSess) (s : State) => (mboxOpen s p = true) ∧ (3 ≤ s.spdm.stage) ∧ (nget s.spdm.sessions n = some x) ∧ (x.open_ = true)) .east 3 1 9 (⟨true, false, 0⟩) (withSession ⟨true, false, 0⟩ (live .serve)) := by
  decide +kernel

theorem test_SpdmSessionsOpenServeAndEnd_6 : (fun (p : Die) (n : Nat) (x : SpdmSess) (s : State) => (mboxOpen s p = true) ∧ (3 ≤ s.spdm.stage) ∧ (nget s.spdm.sessions n = some x) ∧ (x.open_ = true)) .east 3 (⟨true, false, 0⟩) (withSession ⟨true, false, 0⟩ (live .serve)) := by
  decide +kernel

theorem test_SpdmSessionsOpenServeAndEnd_7 : (fun (p : Die) (n slot : Nat) (c : List Byte) (x : SpdmSess) (s : State) => (mboxOpen s p = true) ∧ (3 ≤ s.spdm.stage) ∧ (nget s.spdm.sessions n = some x) ∧ (x.open_ = true) ∧ (2 ≤ slot) ∧ (slot ≤ 7)) .east 3 7 ([1, 2]) (⟨true, false, 0⟩) (withSession ⟨true, false, 0⟩ (live .serve)) := by
  decide +kernel

theorem test_SpdmSessionsOpenServeAndEnd_8 : (fun (p : Die) (n slot : Nat) (c : List Byte) (x : SpdmSess) (s : State) => (mboxOpen s p = true) ∧ (3 ≤ s.spdm.stage) ∧ (nget s.spdm.sessions n = some x) ∧ (x.open_ = true) ∧ (slot < 2 ∨ 7 < slot)) .east 3 1 ([1, 2]) (⟨true, false, 0⟩) (withSession ⟨true, false, 0⟩ (live .serve)) := by
  decide +kernel

theorem test_SpdmSessionsOpenServeAndEnd_9 : (fun (p : Die) (h : Nat) (bs : List Byte) (s : State) => (mboxOpen s p = true) ∧ (2 ≤ s.spdm.stage) ∧ (2 ≤ s.spdm.limit)) .east 3 ([1, 2]) (withSession ⟨true, false, 0⟩ (live .serve)) := by
  decide +kernel

theorem test_SpdmSessionsOpenServeAndEnd_10 : (fun (p : Die) (h : Nat) (bs : List Byte) (s : State) => (mboxOpen s p = true) ∧ (2 ≤ s.spdm.stage)) .east 3 ([0x13, 0x81, 0, 0]) (withSession ⟨true, false, 0⟩ (live .serve)) := by
  decide +kernel

theorem test_SpdmSessionsOpenServeAndEnd_11 : (fun (p : Die) (h k : Nat) (bs : List Byte) (s : State) => (mboxOpen s p = true) ∧ (2 ≤ s.spdm.stage) ∧ (s.spdm.chunkOut = some (h, k, bs)) ∧ (s.spdm.limit < bs.length)) .east 1 0 ([1, 2, 3]) ({ withSession ⟨true, false, 0⟩ (live .serve) with spdm := { SpdmSt.reset with stage := 3, limit := 2, chunkOut := some (1, 0, [1, 2, 3]) } }) := by
  decide +kernel

theorem test_SpdmSessionsOpenServeAndEnd_12 : (fun (p : Die) (n : Nat) (b : Line) (x : SpdmSess) (s : State) => (s.Idle) ∧ (mboxOpen s p = true) ∧ (3 ≤ s.spdm.stage) ∧ (nget s.spdm.sessions n = some x) ∧ (x.open_ = true) ∧ ((Desc.mk 0 0 b 0 0 [] [] []).op = 0x64) ∧ (sessionCheck s x ⟨0, 0, b, 0, 0, [], [], []⟩ = 0) ∧ (keyFieldsOk ⟨0, 0, b, 0, 0, [], [], []⟩ false = true)) .east 3 (descLine 0x64 0 9) (⟨true, false, 0⟩) (withSession ⟨true, false, 0⟩ (live .serve)) := by
  decide +kernel

/-! ### HostRequestsReachTheirLine -/

theorem test_HostRequestsReachTheirLine_1 : (fun (p : Die) (tag hpa k n i loc : Nat) (m : MetaValue) (y : SnpType) (x : HdmDec) (s : State) => (s.HostBinds p hpa k x n) ∧ (atCoherent (rgAttr s n) = false) ∧ (atTiered (rgAttr s n) = false) ∧ (atMirror (rgAttr s n) = false) ∧ (atInteg (rgAttr s n) = 0) ∧ (placeOf s (flatHome s n (atHome (rgAttr s n)) (x.toDla hpa / 64 * 64)) = some (atHome (rgAttr s n), i, loc)) ∧ (aboveTop s (flatHome s n (atHome (rgAttr s n)) (x.toDla hpa / 64 * 64)) = false) ∧ (coreBypass s (atHome (rgAttr s n)) = false)) .east 5 64 0 0 0 1 .i .noOp (⟨0, 2 ^ 33, 1, 256, 0, 0⟩) (withHost (withRegion 0)) := by
  decide +kernel

theorem test_HostRequestsReachTheirLine_2 : (fun (p : Die) (tag hpa k n i loc : Nat) (data : Line) (poison : Bool) (m : MetaValue) (x : HdmDec) (s : State) => (s.HostBinds p hpa k x n) ∧ (atCoherent (rgAttr s n) = false) ∧ (atTiered (rgAttr s n) = false) ∧ (atMirror (rgAttr s n) = false) ∧ (atInteg (rgAttr s n) = 0) ∧ (placeOf s (flatHome s n (atHome (rgAttr s n)) (x.toDla hpa / 64 * 64)) = some (atHome (rgAttr s n), i, loc)) ∧ (aboveTop s (flatHome s n (atHome (rgAttr s n)) (x.toDla hpa / 64 * 64)) = false) ∧ (coreBypass s (atHome (rgAttr s n)) = false) ∧ (atOwner (rgAttr s n) ≠ 1) ∧ ((chan s (atHome (rgAttr s n)) (i / 2)).inj = none) ∧ ((chan s (atHome (rgAttr s n)) (i / 2)).frozen = none) ∧ ((die s (atHome (rgAttr s n))).sru.evac = none) ∧ (belowBad s (atHome (rgAttr s n)) n (x.toDla hpa / 64 * 64) = false)) .east 5 64 0 0 0 1 77 false .i (⟨0, 2 ^ 33, 1, 256, 0, 0⟩) (withHost (withRegion 0)) := by
  decide +kernel

theorem test_HostRequestsReachTheirLine_3 : (fun (p : Die) (tag hpa k n : Nat) (x : HdmDec) (s : State) => (s.HostBinds p hpa k x n) ∧ (atCoherent (rgAttr s n) = false)) .east 5 64 0 0 (⟨0, 2 ^ 33, 1, 256, 0, 0⟩) (withHost (withRegion 0)) := by
  decide +kernel

theorem test_HostRequestsReachTheirLine_4 : (fun (p : Die) (tag hpa : Nat) (m : MetaValue) (y : SnpType) (s : State) => (s.Idle) ∧ (portUp s p = true) ∧ (diePresent s p = true) ∧ (coreBypass s p = false) ∧ (linkHeld s p = false) ∧ (s.dev.mode ≠ .hold) ∧ (hostBarred s p = false) ∧ (hdmFind s p hpa = none)) .east 5 (2 ^ 34) .a .inv (withHost (withRegion 0)) := by
  decide +kernel

theorem test_HostRequestsReachTheirLine_5 : (fun (p : Die) (tag hpa k n : Nat) (data : Line) (poison : Bool) (mask : BitVec 64) (m : MetaValue) (x : HdmDec) (s : State) => (s.HostBinds p hpa k x n) ∧ (atCoherent (rgAttr s n) = false) ∧ (atOwner (rgAttr s n) = 1)) .east 5 64 0 0 77 false 0 .i (⟨0, 2 ^ 33, 1, 256, 0, 0⟩) (withHost (withRegion 512)) := by
  decide +kernel

/-! ### TheDirectoryTracksHoldersAndSnoops -/

theorem test_TheDirectoryTracksHoldersAndSnoops_1 : (fun (p : Die) (tag hpa k n w : Nat) (x : HdmDec) (s : State) => (s.HostBinds p hpa k x n) ∧ (atCoherent (rgAttr s n) = true) ∧ (portDb s p = true) ∧ (atTiered (rgAttr s n) = false) ∧ (atMirror (rgAttr s n) = false) ∧ ((cdr s (atHome (rgAttr s n))).retry = []) ∧ ((cdr s (atHome (rgAttr s n))).held = []) ∧ ((cdr s (atHome (rgAttr s n))).late = []) ∧ ((cdr s (atHome (rgAttr s n))).recalls = []) ∧ (dirFind s (atHome (rgAttr s n)) (flatHome s n (atHome (rgAttr s n)) (x.toDla hpa / 64 * 64)) = none) ∧ (pinned s (atHome (rgAttr s n)) (dirSet (flatHome s n (atHome (rgAttr s n)) (x.toDla hpa / 64 * 64))) < pinMax s (atHome (rgAttr s n))) ∧ (freeWay s (atHome (rgAttr s n)) (dirSet (flatHome s n (atHome (rgAttr s n)) (x.toDla hpa / 64 * 64))) = some w)) .east 5 64 0 0 16 (⟨0, 2 ^ 33, 1, 256, 0, 0⟩) (withAgents (withRegion 256)) := by
  decide +kernel

theorem test_TheDirectoryTracksHoldersAndSnoops_2 : (fun (p q : Die) (tag hpa k n w : Nat) (x : HdmDec) (e : DirEnt) (s : State) => (s.HostBinds p hpa k x n) ∧ (atCoherent (rgAttr s n) = true) ∧ (portDb s p = true) ∧ (atTiered (rgAttr s n) = false) ∧ (atMirror (rgAttr s n) = false) ∧ ((cdr s (atHome (rgAttr s n))).retry = []) ∧ ((cdr s (atHome (rgAttr s n))).late = []) ∧ (nwf (cdr s (atHome (rgAttr s n))).dir = true) ∧ (dirFind s (atHome (rgAttr s n)) (flatHome s n (atHome (rgAttr s n)) (x.toDla hpa / 64 * 64)) = some (w, e)) ∧ (e.tr = none) ∧ (e.x = true) ∧ (e.owner ≠ agentOf s p k) ∧ (e.dla = x.toDla hpa / 64 * 64) ∧ (agentPort s e.owner = some q) ∧ (pinned s (atHome (rgAttr s n)) (dirSet (flatHome s n (atHome (rgAttr s n)) (x.toDla hpa / 64 * 64))) < pinMax s (atHome (rgAttr s n)))) .east .east 5 64 0 0 16 (⟨0, 2 ^ 33, 1, 256, 0, 0⟩) (⟨1, true, 2, [], true, none, [], 0, 64⟩) (withEnt ⟨1, true, 2, [], true, none, [], 0, 64⟩) := by
  decide +kernel

theorem test_TheDirectoryTracksHoldersAndSnoops_3 : (fun (p d : Die) (g hpa k w : Nat) (r : MemReq) (e : DirEnt) (x : HdmDec) (a : Nat) (s : State) => (s.Idle) ∧ (portUp s p = true) ∧ (linkHeld s p = false) ∧ (pendTag s p g (x.toDla hpa / 64 * 64) = false) ∧ (hdmFind s p hpa = some (k, x)) ∧ ((portAgents s p).contains g = true) ∧ (e.dla = x.toDla hpa / 64 * 64) ∧ (snooped s g e.dla = some (d, w, e, ⟨some r, none, [⟨g, .inv⟩], [], [], 0, false, false, []⟩, ⟨g, .inv⟩)) ∧ (nwf (cdr s d).dir = true) ∧ (nget (cdr s d).dir w = some e) ∧ (e.x = true) ∧ (e.owner = g) ∧ (e.waiting = []) ∧ (r.kind = .inv) ∧ (r.agent = some a) ∧ ((cdr s d).recalls = []) ∧ ((cdr s d).held = []) ∧ (dirFind s d e.line = some (w, e))) .east .east 2 64 0 16 (aMem .inv 1) (⟨1, true, 2, [], true, some ⟨some (aMem .inv 1), none, [⟨2, .inv⟩], [], [], 0, false, false, []⟩, [], 0, 64⟩) (⟨0, 2 ^ 33, 1, 256, 0, 0⟩) 1 (withEnt ⟨1, true, 2, [], true, some ⟨some (aMem .inv 1), none, [⟨2, .inv⟩], [], [], 0, false, false, []⟩, [], 0, 64⟩) := by
  decide +kernel

theorem test_TheDirectoryTracksHoldersAndSnoops_4 : (fun (d : Die) (g w : Nat) (e : DirEnt) (tr : CdrTr) (s : State) => ((lineTr s d e.dla).map (fun q => (q.1, q.2.1)) = some (w, e)) ∧ (e.tr = some tr) ∧ (tr.out.any (fun z => z.agent == g) = true) ∧ ((e.x && e.owner == g) = false)) .east 2 16 (⟨1, false, 0, [2], true, some ⟨some (aMem .inv 1), none, [⟨2, .inv⟩], [], [], 0, false, false, []⟩, [], 0, 64⟩) (⟨some (aMem .inv 1), none, [⟨2, .inv⟩], [], [], 0, false, false, []⟩) (withEnt ⟨1, false, 0, [2], true, some ⟨some (aMem .inv 1), none, [⟨2, .inv⟩], [], [], 0, false, false, []⟩, [], 0, 64⟩) := by
  decide +kernel

theorem test_TheDirectoryTracksHoldersAndSnoops_5 : (fun (p : Die) (hpa : Nat) (s : State) => (portUp s p = true) ∧ (linkHeld s p = false) ∧ (portDb s p = true)) .east 64 (withAgents (withRegion 256)) := by
  decide +kernel

/-! ### TheDirectoryOutlivesItsAgents -/

theorem test_TheDirectoryOutlivesItsAgents_1 : (fun (d : Die) (g w : Nat) (e : DirEnt) (tr : CdrTr) (s : State) => ((lineTr s d e.dla).map (fun q => (q.1, q.2.1)) = some (w, e)) ∧ (e.tr = some tr) ∧ (tr.await = [g])) .east 2 16 (⟨1, false, 0, [], true, some ⟨some (aMem .inv 1), none, [], [], [2], 0, false, false, []⟩, [], 0, 64⟩) (⟨some (aMem .inv 1), none, [], [], [2], 0, false, false, []⟩) (withEnt ⟨1, false, 0, [], true, some ⟨some (aMem .inv 1), none, [], [], [2], 0, false, false, []⟩, [], 0, 64⟩) := by
  decide +kernel

theorem test_TheDirectoryOutlivesItsAgents_2 : (fun (d : Die) (port : Port) (set : Nat) (r : MemReq) (rest : List MemReq) (s : State) => ((cdr s d).retry = r :: rest) ∧ (r.port = port) ∧ (dirSet (dirLine s r.region r.attr r.dla) = set) ∧ (rest.all (fun q => !(q.port == port && dirSet (dirLine s q.region q.attr q.dla) == set)) = true)) .east .hp0 1 (aMem .inv 1) ([]) (onCdr .east (fun x => { x with retry := [aMem .inv 1] }) (withAgents (withRegion 256))) := by
  decide +kernel

theorem test_TheDirectoryOutlivesItsAgents_3 : (fun (d p : Die) (o : Nat) (s : State) => (s.Idle) ∧ ((cdr s d).walks.find? (fun w => w.1 == p) = some (p, o)) ∧ ((cdr s d).recalls = []) ∧ (nwf (cdr s d).dir = true) ∧ ((cdr s d).dir.all (fun q => q.2.tr.isNone && !(q.2.x && (portAgents s p).contains q.2.owner)) = true)) .east .west 0 (onCdr .east (fun x => { x with walks := [(.west, 0)] }) (wrReg .CDR_AGENT_MAP .west 0 0x77777777 (withEnt ⟨1, false, 0, [2, 7], true, none, [], 0, 64⟩))) := by
  decide +kernel

theorem test_TheDirectoryOutlivesItsAgents_4 : (fun (d : Die) (v : Word) (s : State) => (verdict s .CDR d false = .take) ∧ (mapClash s d v.toNat = none) ∧ (rfc s F.DEV_MODE.LOCKED = 0)) .east 0x87654321 (withAgents (withRegion 256)) := by
  decide +kernel

theorem test_TheDirectoryOutlivesItsAgents_5 : (fun (d : Die) (v : Word) (k g : Nat) (s : State) => (verdict s .CDR d false = .take) ∧ (mapClash s d v.toNat = some (k, g)) ∧ (rfc s F.DEV_MODE.LOCKED = 0)) .west 0x87654321 0 1 (withAgents (withRegion 256)) := by
  decide +kernel

theorem test_TheDirectoryOutlivesItsAgents_6 : (fun (d : Die) (v : Word) (s : State) => (verdict s .CDR d false = .take)) .east 0 (wf F.CDR_PROBE_LO.DLA_LO .east 0 1 (withEnt ⟨1, false, 0, [2, 7], true, none, [], 0, 64⟩)) := by
  decide +kernel

/-! ### LinksRetryRetrainAndFallBack -/

theorem test_LinksRetryRetrainAndFallBack_1 : (fun (p : Die) (same x8 : Bool) (s : State) => (s.Idle) ∧ (coreBypass s p = false) ∧ (portUp s p = true) ∧ ((if same then (die s p).hpc.replays + 1 else 1) < max 1 (rf s F.HPC_LADDER_CFG.RETRY_MAX p 0))) .east true false (onHpc .east (fun h => { h with replays := 2 }) (portUp0 (live .serve))) := by
  decide +kernel

theorem test_LinksRetryRetrainAndFallBack_2 : (fun (p : Die) (x8 : Bool) (s : State) => (s.Idle) ∧ (coreBypass s p = false) ∧ (portUp s p = true) ∧ (max 1 (rf s F.HPC_LADDER_CFG.RETRY_MAX p 0) ≤ (die s p).hpc.replays + 1) ∧ ((die s p).hpc.retrains = [])) .east true (onHpc .east (fun h => { h with replays := 3 }) (portUp0 (live .serve))) := by
  decide +kernel

theorem test_LinksRetryRetrainAndFallBack_3 : (fun (p : Die) (x8 : Bool) (s : State) => (s.Idle) ∧ (coreBypass s p = false) ∧ (portUp s p = true) ∧ (((die s p).hpc.retrains.filter (fun t => decide (s.nowNs < t + rf s F.HPC_LADDER_CFG.WINDOW_MS p 0 * 1000000))).length < max 1 (rf s F.HPC_LADDER_CFG.RETRAIN_MAX p 0))) .east true (portUp0 (live .serve)) := by
  decide +kernel

theorem test_LinksRetryRetrainAndFallBack_4 : (fun (p : Die) (x8 : Bool) (s : State) => (s.Idle) ∧ (coreBypass s p = false) ∧ (portUp s p = true) ∧ (verdict s .HPC p false = .take) ∧ (((die s p).hpc.retrains.filter (fun t => decide (s.nowNs < t + rf s F.HPC_LADDER_CFG.WINDOW_MS p 0 * 1000000))).length < max 1 (rf s F.HPC_LADDER_CFG.RETRAIN_MAX p 0))) .east false (portUp0 (live .serve)) := by
  decide +kernel

theorem test_LinksRetryRetrainAndFallBack_5 : (fun (p : Die) (rate : Nat) (s : State) => (portUp s p = true)) .east 2 (portUp0 (live .serve)) := by
  decide +kernel

theorem test_LinksRetryRetrainAndFallBack_6 : (fun (p : Die) (s : State) => (s.Idle) ∧ (coreBypass s p = false) ∧ (portRung s p = 1) ∧ (portRate s p ≠ 0)) .east (wf F.HPC_LINK_STATUS.RUNG .east 0 1 (wf F.HPC_LINK_STATUS.RATE .east 0 2 (live .serve))) := by
  decide +kernel

theorem test_LinksRetryRetrainAndFallBack_7 : (fun (p : Die) (s : State) => (s.Idle) ∧ (portRung s p = 1) ∧ ((die s p).hpc.target = portRate s p) ∧ ((die s p).hpc.viralTx = false) ∧ ((die s p).hpc.cpls = []) ∧ ((die s p).hpc.lin = []) ∧ ((die s p).hpc.hxin = [])) .east (onHpc .east (fun h => { h with target := 2, cxl3 := true }) (wf F.HPC_LINK_STATUS.RUNG .east 0 1 (wf F.HPC_LINK_STATUS.RATE .east 0 2 (live .serve)))) := by
  decide +kernel

/-! ### PortsGoDownAndTrainAgain -/

theorem test_PortsGoDownAndTrainAgain_1 : (fun (p : Die) (s : State) => (s.Idle) ∧ (coreBypass s p = false) ∧ (portRung s p = 2) ∧ (portDb s p = false) ∧ (s.fw.xfer = none)) .east ({ wf F.HPC_LINK_STATUS.RUNG .east 0 2 (live .serve) with ops := [(1, aReadOp)] }) := by
  decide +kernel

theorem test_PortsGoDownAndTrainAgain_2 : (fun (p : Die) (s : State) => (s.Idle) ∧ (portUp s p = true) ∧ (verdict s .HPC p false = .take) ∧ (portDb s p = false) ∧ (s.fw.xfer = none)) .east (withDesc (aDesc 0 0 0) (portUp0 (live .serve))) := by
  decide +kernel

theorem test_PortsGoDownAndTrainAgain_3 : (fun (p : Die) (s : State) => (verdict s .HPC p false = .take) ∧ (diePresent s p = true) ∧ (portEn s p = true) ∧ (portAlive s p = false) ∧ (perstLow s p = false) ∧ (fenced s p = false) ∧ (s.dev.mode ≠ .boot)) .east (wf F.HPC_LINK_STATUS.RUNG .east 0 3 (wf F.HPC_LINK_CFG.EN .east 0 1 (live .serve))) := by
  decide +kernel

theorem test_PortsGoDownAndTrainAgain_4 : (fun (p : Die) (s : State) => (rf s F.HPC_LINK_CFG.REUP_S p 0 ≠ 0) ∧ (diePresent s p = true) ∧ (portEn s p = true) ∧ (portAlive s p = false) ∧ (perstLow s p = false) ∧ (fenced s p = false) ∧ (s.dev.mode ≠ .boot)) .east (wf F.HPC_LINK_STATUS.RUNG .east 0 3 (wf F.HPC_LINK_CFG.EN .east 0 1 (live .serve))) := by
  decide +kernel

theorem test_PortsGoDownAndTrainAgain_5 : (fun (p : Die) (v : Word) (s : State) => (s.Idle) ∧ (verdict s .HPC p false = .take) ∧ (bitn v.toNat 4 = true) ∧ (portEn s p = false) ∧ (portIsDown s p = true) ∧ (portAlive s p = false) ∧ ((diesPresent s).any (fun q => q != p && portEn s q && portIsDown s q) = false) ∧ (rfc s F.DEV_STATUS.DEG_HPORT = 1) ∧ (diePresent s p = true) ∧ (perstLow s p = false) ∧ (fenced s p = false)) .east 0x912 (wfc F.DEV_STATUS.DEG_HPORT 1 0 (wf F.HPC_LINK_STATUS.RUNG .east 0 3 (live .serve))) := by
  decide +kernel

theorem test_PortsGoDownAndTrainAgain_6 : (fun (p : Die) (cxl3 ext lo x8 : Bool) (rate : Nat) (s : State) => (s.Idle) ∧ ((die s p).hpc.training = true) ∧ (portEn s p = true) ∧ (perstLow s p = false) ∧ (s.east.cdr.walks = []) ∧ (s.west.cdr.walks = [])) .east true false true false 2 (onHpc .east (fun h => { h with training := true }) (wf F.HPC_LINK_STATUS.RUNG .east 0 3 (wf F.HPC_LINK_CFG.EN .east 0 1 (live .serve)))) := by
  decide +kernel

/-! ### PortsInjectReportAndDecode -/

theorem test_PortsInjectReportAndDecode_1 : (fun (p : Die) (v : Word) (s : State) => (verdict s .HPC p false = .take)) .west 0x1F59 (live .serve) := by
  decide +kernel

theorem test_PortsInjectReportAndDecode_2 : (fun (p : Die) (s : State) => (verdict s .HPC p false = .take)) .west (live .serve) := by
  decide +kernel

theorem test_PortsInjectReportAndDecode_3 : (fun (p : Die) (s : State) => (portUp s p = true)) .east (portUp0 (live .serve)) := by
  decide +kernel

theorem test_PortsInjectReportAndDecode_4 : (fun (p : Die) (base size ways gran skip isp : Nat) (s : State) => (diePresent s p = true) ∧ (nget (die s p).hpc.hdm 0 = none) ∧ ([1, 2, 3, 4, 6, 8, 12, 16].contains ways = true) ∧ ([256, 512, 1024, 2048, 4096, 8192, 16384].contains gran = true) ∧ (isp < ways) ∧ (0 < size) ∧ (size % (gran * ways) = 0) ∧ (skip + size / ways ≤ 2 ^ 43)) .west 4096 (3 * 2 ^ 28) 3 256 0 2 (live .train) := by
  decide +kernel

theorem test_PortsInjectReportAndDecode_5 : (fun (p : Die) (k base size ways gran skip isp : Nat) (s : State) => (diePresent s p = true) ∧ ((nget (die s p).hpc.hdm k).isSome = true ∨ [1, 2, 3, 4, 6, 8, 12, 16].contains ways = false ∨ 2 ^ 43 < skip + size / ways)) .west 0 4096 (2 ^ 28) 5 256 0 2 (live .train) := by
  decide +kernel

theorem test_PortsInjectReportAndDecode_6 : (fun (p : Die) (h : Nat) (s : State) => (portUp s p = true)) .east 1 (portUp0 (withRegion 0)) := by
  decide +kernel

/-! ### TheMailboxTellsAndSets -/

theorem test_TheMailboxTellsAndSets_1 : (fun (p : Die) (s : State) => (mboxOpen s p = true)) .east (withSession ⟨true, true, 0⟩ (live .serve)) := by
  decide +kernel

theorem test_TheMailboxTellsAndSets_2 : (fun (p : Die) (s : State) => (mboxOpen s p = true)) .east (withSession ⟨true, true, 0⟩ (live .serve)) := by
  decide +kernel

theorem test_TheMailboxTellsAndSets_3 : (fun (p : Die) (s : State) => (mboxOpen s p = true)) .east (withSession ⟨true, true, 0⟩ (live .serve)) := by
  decide +kernel

theorem test_TheMailboxTellsAndSets_4 : (fun (p : Die) (ns : Nat) (s : State) => (mboxOpen s p = true)) .east 1000 (withSession ⟨true, true, 0⟩ (live .serve)) := by
  decide +kernel

theorem test_TheMailboxTellsAndSets_5 : (fun (p : Die) (s : State) => (mboxOpen s p = true)) .east (withSession ⟨true, true, 0⟩ (live .serve)) := by
  decide +kernel

theorem test_TheMailboxTellsAndSets_6 : (fun (p : Die) (off len : Nat) (s : State) => (mboxOpen s p = true) ∧ (len ≤ 4096) ∧ (off + len ≤ (freezeLog s).length)) .east 1 2 (onDie .east (fun x => { x with frz := [(0, ⟨0, 1, 0, true, [7, 8, 9]⟩)] }) (withSession ⟨true, true, 0⟩ (live .serve))) := by
  decide +kernel

theorem test_TheMailboxTellsAndSets_7 : (fun (p : Die) (log off len : Nat) (s : State) => (mboxOpen s p = true) ∧ (2 ≤ log ∨ 4096 < len)) .east 2 0 4 (withSession ⟨true, true, 0⟩ (live .serve)) := by
  decide +kernel

theorem test_TheMailboxTellsAndSets_8 : (fun (p : Die) (s : State) => (mboxOpen s p = true)) .east (withSession ⟨true, true, 0⟩ (live .serve)) := by
  decide +kernel

theorem test_TheMailboxTellsAndSets_9 : (fun (p : Die) (s : State) => (mboxOpen s p = true)) .east (withSession ⟨true, true, 0⟩ (live .serve)) := by
  decide +kernel

theorem test_TheMailboxTellsAndSets_10 : (fun (p : Die) (c : List Byte) (s : State) => (mboxOpen s p = true)) .east ([1, 2, 3]) (withSession ⟨true, true, 0⟩ (live .serve)) := by
  decide +kernel

theorem test_TheMailboxTellsAndSets_11 : (fun (p : Die) (op : Nat) (s : State) => (mboxOpen s p = true) ∧ (mboxOpcodes.contains op = false)) .east 0x4600 (withSession ⟨true, true, 0⟩ (live .serve)) := by
  decide +kernel

/-! ### TheMailboxServesEventsFirmwareAndPoison -/

theorem test_TheMailboxServesEventsFirmwareAndPoison_1 : (fun (p : Die) (log : Nat) (s : State) => (mboxOpen s p = true) ∧ (log < 4)) .east 0 (onHpc .east (fun h => { h with logs := [(0, { LogSt.reset with recs := [⟨⟨5, 0x0B01, 1, 0, []⟩, 1, 5, none⟩, ⟨⟨6, 0x0B01, 1, 0, []⟩, 2, 6, none⟩] })] }) (withSession ⟨true, true, 0⟩ (live .serve))) := by
  decide +kernel

theorem test_TheMailboxServesEventsFirmwareAndPoison_2 : (fun (p : Die) (log : Nat) (hs : List Nat) (s : State) => (mboxOpen s p = true) ∧ (log < 4) ∧ (((logAt s p log).recs.take hs.length).map (·.handle) = hs)) .east 0 ([1]) (onHpc .east (fun h => { h with logs := [(0, { LogSt.reset with recs := [⟨⟨5, 0x0B01, 1, 0, []⟩, 1, 5, none⟩, ⟨⟨6, 0x0B01, 1, 0, []⟩, 2, 6, none⟩] })] }) (withSession ⟨true, true, 0⟩ (live .serve))) := by
  decide +kernel

theorem test_TheMailboxServesEventsFirmwareAndPoison_3 : (fun (p : Die) (log : Nat) (hs : List Nat) (s : State) => (mboxOpen s p = true) ∧ (log < 4)) .east 1 ([]) (withSession ⟨true, true, 0⟩ (live .serve)) := by
  decide +kernel

theorem test_TheMailboxServesEventsFirmwareAndPoison_4 : (fun (p : Die) (a b c d : Nat) (s : State) => (mboxOpen s p = true) ∧ (a < 256) ∧ (b < 256) ∧ (c < 256) ∧ (d < 256)) .east 17 0 33 1 (withSession ⟨true, true, 0⟩ (live .serve)) := by
  decide +kernel

theorem test_TheMailboxServesEventsFirmwareAndPoison_5 : (fun (p : Die) (s : State) => (mboxOpen s p = true)) .east (withSession ⟨true, true, 0⟩ (live .serve)) := by
  decide +kernel

theorem test_TheMailboxServesEventsFirmwareAndPoison_6 : (fun (p : Die) (s : State) => (mboxOpen s p = true)) .east (withSession ⟨true, true, 0⟩ (live .serve)) := by
  decide +kernel

theorem test_TheMailboxServesEventsFirmwareAndPoison_7 : (fun (p : Die) (slot : Nat) (s : State) => (mboxOpen s p = true) ∧ (s.fw.xfer = none) ∧ (slot < 2) ∧ (slot ≠ s.fw.running)) .east 1 (withSession ⟨true, true, 0⟩ (live .serve)) := by
  decide +kernel

theorem test_TheMailboxServesEventsFirmwareAndPoison_8 : (fun (p : Die) (slot : Nat) (signed : Bool) (s : State) => (s.fw.xfer = some (p, slot)) ∧ (slot < 2)) .east 1 true ({ live .serve with fw := ⟨some (.east, 1), 0⟩ }) := by
  decide +kernel

theorem test_TheMailboxServesEventsFirmwareAndPoison_9 : (fun (p : Die) (slot : Nat) (s : State) => (mboxOpen s p = true) ∧ (slot < 2) ∧ (fwValid s slot = true)) .east 1 ({ withSession ⟨true, true, 0⟩ (live .serve) with dev := { (live .serve).dev with flash := { FlashSt.reset with fw1 := true } } }) := by
  decide +kernel

theorem test_TheMailboxServesEventsFirmwareAndPoison_10 : (fun (p : Die) (slot : Nat) (s : State) => (mboxOpen s p = true)) .east 1 (withSession ⟨true, true, 0⟩ (live .serve)) := by
  decide +kernel

theorem test_TheMailboxServesEventsFirmwareAndPoison_11 : (fun (p : Die) (dla n : Nat) (s : State) => (mboxOpen s p = true) ∧ (rfc s F.SEC_POLICY.LOCKDOWN = 0) ∧ (portWrites s p dla = some n) ∧ (dla % 64 = 0) ∧ (s.injected.length < 64) ∧ (s.injected.contains dla = false)) .east 64 0 (withHost (withRegion 0)) := by
  decide +kernel

theorem test_TheMailboxServesEventsFirmwareAndPoison_12 : (fun (p : Die) (dla n : Nat) (b : Line) (s : State) => (mboxOpen s p = true) ∧ (rfc s F.SEC_POLICY.LOCKDOWN = 0) ∧ (portWrites s p dla = some n) ∧ (dla % 64 = 0)) .east 64 0 7 (withHost (withRegion 0)) := by
  decide +kernel

theorem test_TheMailboxServesEventsFirmwareAndPoison_13 : (fun (p : Die) (dla : Nat) (b : Line) (s : State) => (s.Idle) ∧ (mboxOpen s p = true) ∧ (rfc s F.SEC_POLICY.LOCKDOWN = 1)) .east 64 7 (wfc F.SEC_POLICY.LOCKDOWN 1 0 (withHost (withRegion 0))) := by
  decide +kernel

theorem test_TheMailboxServesEventsFirmwareAndPoison_14 : (fun (p : Die) (dla len : Nat) (s : State) => (mboxOpen s p = true)) .east 0 128 (withHost (withRegion 0)) := by
  decide +kernel

/-! ### PeersRequestsAreServedLineByLine -/

theorem test_PeersRequestsAreServedLineByLine_1 : (fun (d : Die) (f : Frame) (n : Nat) (s : State) => (s.Expects d f) ∧ (f.op = 1) ∧ (badRange f.arg f.len = false) ∧ (f.op = 9 → f.len = 4096) ∧ (modeStatus s = 0) ∧ (regionOf s f.arg = some n) ∧ (at_ (rgAttr s n) F.RGN_ATTR.FABRIC_READ = 1) ∧ (bitn (bindOf s (rgAttr s n)) 2 = true)) .east (aFrame 1 128 64 []) 0 (withPeer aCtx withFabRegion) := by
  decide +kernel

theorem test_PeersRequestsAreServedLineByLine_2 : (fun (d : Die) (f : Frame) (n : Nat) (s : State) => (s.Expects d f) ∧ (f.op = 9) ∧ (badRange f.arg f.len = false) ∧ (f.op = 9 → f.len = 4096) ∧ (modeStatus s = 0) ∧ (regionOf s f.arg = some n) ∧ (at_ (rgAttr s n) F.RGN_ATTR.FABRIC_READ = 1) ∧ (bitn (bindOf s (rgAttr s n)) 2 = true)) .east (aFrame 9 4096 4096 []) 0 (withPeer aCtx withFabRegion) := by
  decide +kernel

theorem test_PeersRequestsAreServedLineByLine_3 : (fun (d : Die) (f : Frame) (n : Nat) (s : State) => (s.Expects d f) ∧ (f.op = 3) ∧ (f.more = false) ∧ ((ctx s d (f.src % 4096)).part = none) ∧ (badRange f.arg f.len = false) ∧ (f.op = 7 → (frameLines f).length = 64) ∧ (modeStatus s = 0) ∧ (regionOf s f.arg = some n) ∧ (at_ (rgAttr s n) F.RGN_ATTR.FABRIC_WRITE = 1) ∧ (bitn (bindOf s (rgAttr s n)) 2 = true) ∧ (atOwner (rgAttr s n) ≠ 1)) .east (aFrame 3 128 64 (List.replicate 128 5)) 0 (withPeer { aCtx with big := false } withFabRegion) := by
  decide +kernel

theorem test_PeersRequestsAreServedLineByLine_4 : (fun (d : Die) (f : Frame) (n : Nat) (s : State) => (s.Expects d f) ∧ (f.op = 7) ∧ (f.more = false) ∧ ((ctx s d (f.src % 4096)).part = none) ∧ (badRange f.arg f.len = false) ∧ (f.op = 7 → (frameLines f).length = 64) ∧ (modeStatus s = 0) ∧ (regionOf s f.arg = some n) ∧ (at_ (rgAttr s n) F.RGN_ATTR.FABRIC_WRITE = 1) ∧ (bitn (bindOf s (rgAttr s n)) 2 = true) ∧ (atOwner (rgAttr s n) ≠ 1)) .east (aFrame 7 4096 4096 (List.replicate 4096 5)) 0 (withPeer { aCtx with big := true } withFabRegion) := by
  decide +kernel

theorem test_PeersRequestsAreServedLineByLine_5 : (fun (d : Die) (f : Frame) (s : State) => (s.Expects d f) ∧ (f.op = 5) ∧ (f.more = false) ∧ ((ctx s d (f.src % 4096)).part = none) ∧ (modeStatus s = 0)) .east (aFrame 5 64 (64 * 2 ^ 32) (List.replicate 64 5)) (withPeer aCtx withFabRegion) := by
  decide +kernel

theorem test_PeersRequestsAreServedLineByLine_6 : (fun (d : Die) (f : Frame) (s : State) => (s.Expects d f) ∧ (f.op = 1) ∧ (badRange f.arg f.len = true)) .east (aFrame 1 63 64 []) (withPeer aCtx withFabRegion) := by
  decide +kernel

/-! ### PeersResponsesReachWhoWaits -/

theorem test_PeersResponsesReachWhoWaits_1 : (fun (d : Die) (f : Frame) (r : PeerReq) (s : State) => (s.Expects d f) ∧ (f.op = 2) ∧ (f.more = false) ∧ ((die s d).fpc.outq = []) ∧ ((ctx s d (f.src % 4096)).reqs.find? (fun (q : PeerReq) => q.tag == f.tag && q.op + 1 == f.op) = some r)) .east (aFrame 2 64 0 (List.replicate 64 5)) (⟨9, 1, .op 4, 64, 64, []⟩) (withPeer { aCtx with reqs := [⟨9, 1, .op 4, 64, 64, []⟩] } { (live .serve) with ops := [(4, ⟨.host .east 9, .read, .hp0, 0, 0, 0, .plain, none, none, [0], [], [], []⟩)] }) := by
  decide +kernel

theorem test_PeersResponsesReachWhoWaits_2 : (fun (d : Die) (f : Frame) (r : PeerReq) (s : State) => (s.Expects d f) ∧ (f.op = 4) ∧ (f.more = false) ∧ ((die s d).fpc.outq = []) ∧ ((ctx s d (f.src % 4096)).reqs.find? (fun (q : PeerReq) => q.tag == f.tag && q.op + 1 == f.op) = some r)) .east (aFrame 4 64 0 (List.replicate 64 5)) (⟨9, 3, .desc .east 0 0 0, 64, 64, []⟩) (withPeer { aCtx with reqs := [⟨9, 3, .desc .east 0 0 0, 64, 64, []⟩] } (live .serve)) := by
  decide +kernel

theorem test_PeersResponsesReachWhoWaits_3 : (fun (d : Die) (f : Frame) (r : PeerReq) (s : State) => (s.Expects d f) ∧ (f.op = 6) ∧ (f.more = false) ∧ ((die s d).fpc.outq = []) ∧ ((ctx s d (f.src % 4096)).reqs.find? (fun (q : PeerReq) => q.tag == f.tag && q.op + 1 == f.op) = some r)) .east (aFrame 6 64 0 (List.replicate 64 5)) (⟨9, 5, .enq .east 0 0, 64, 64, []⟩) (withPeer { aCtx with reqs := [⟨9, 5, .enq .east 0 0, 64, 64, []⟩] } (live .serve)) := by
  decide +kernel

theorem test_PeersResponsesReachWhoWaits_4 : (fun (d : Die) (f : Frame) (r : PeerReq) (s : State) => (s.Expects d f) ∧ (f.op = 8) ∧ (f.more = false) ∧ ((die s d).fpc.outq = []) ∧ ((ctx s d (f.src % 4096)).reqs.find? (fun (q : PeerReq) => q.tag == f.tag && q.op + 1 == f.op) = some r)) .east (aFrame 8 64 0 (List.replicate 64 5)) (⟨9, 7, .move .east 1, 64, 64, []⟩) (withPeer { aCtx with reqs := [⟨9, 7, .move .east 1, 64, 64, []⟩] } (live .serve)) := by
  decide +kernel

theorem test_PeersResponsesReachWhoWaits_5 : (fun (d : Die) (f : Frame) (r : PeerReq) (s : State) => (s.Expects d f) ∧ (f.op = 10) ∧ (f.more = false) ∧ ((die s d).fpc.outq = []) ∧ ((ctx s d (f.src % 4096)).reqs.find? (fun (q : PeerReq) => q.tag == f.tag && q.op + 1 == f.op) = some r)) .east (aFrame 10 64 0 (List.replicate 64 5)) (⟨9, 9, .move .east 1, 64, 64, []⟩) (withPeer { aCtx with reqs := [⟨9, 9, .move .east 1, 64, 64, []⟩] } (live .serve)) := by
  decide +kernel

theorem test_PeersResponsesReachWhoWaits_6 : (fun (d p : Die) (f : Frame) (r : PeerReq) (n tag : Nat) (o : OpSt) (s : State) => (s.Expects d f) ∧ (f.op = 2) ∧ (f.more = false) ∧ (f.status = 0) ∧ ((die s d).fpc.outq = []) ∧ ((ctx s d (f.src % 4096)).unreported < 15) ∧ ((ctx s d (f.src % 4096)).reqs.find? (fun (q : PeerReq) => q.tag == f.tag && q.op + 1 == f.op) = some r) ∧ (r.waiter = .op n) ∧ (r.got = []) ∧ (nget s.ops n = some o) ∧ (o.job = .read) ∧ (o.asker = .host p tag) ∧ (o.want = [0]) ∧ (o.track = none)) .east .east (aFrame 2 64 0 (List.replicate 64 5)) (⟨9, 1, .op 4, 64, 64, []⟩) 4 9 (⟨.host .east 9, .read, .hp0, 0, 0, 0, .plain, none, none, [0], [], [], []⟩) (withPeer { aCtx with reqs := [⟨9, 1, .op 4, 64, 64, []⟩] } { (live .serve) with ops := [(4, ⟨.host .east 9, .read, .hp0, 0, 0, 0, .plain, none, none, [0], [], [], []⟩)] }) := by
  decide +kernel

theorem test_PeersResponsesReachWhoWaits_7 : (fun (d q : Die) (f : Frame) (r : PeerReq) (e : Desc) (off : Nat) (s : State) => (s.Expects d f) ∧ (f.op = 4) ∧ (f.more = false) ∧ (f.status = 0) ∧ (f.payload = []) ∧ ((die s d).fpc.outq = []) ∧ ((ctx s d (f.src % 4096)).unreported < 15) ∧ ((ctx s d (f.src % 4096)).reqs.find? (fun (q : PeerReq) => q.tag == f.tag && q.op + 1 == f.op) = some r) ∧ (r.got = []) ∧ (r.waiter = .desc q e.sq e.seq off) ∧ (startedDesc s q e.sq e.seq = some e) ∧ (e.op = 0x91) ∧ (e.phase = 1) ∧ (e.left = 1) ∧ (e.fails = []) ∧ (nget e.vals 4 = none) ∧ (e.quiet = false) ∧ (rfb s F.CPR_SQ_CTRL.ERROR q e.sq = false) ∧ (rfb s F.CPR_CQ_CTRL.EN q (sqCq s q e.sq) = true) ∧ (rfb s F.CPR_CQ_CTRL.ERROR q (sqCq s q e.sq) = false)) .east .east (aFrame 4 0 0 []) (⟨9, 3, .desc .east 0 0 0, 64, 64, []⟩) ({ aDesc 0x91 0 ((2 * 2 ^ 43 + 64) + 2 ^ 64 * 4096 + 2 ^ 128 * 64) with phase := 1, left := 1 }) 0 (withPeer { aCtx with reqs := [⟨9, 3, .desc .east 0 0 0, 64, 64, []⟩] } (withDesc { aDesc 0x91 0 ((2 * 2 ^ 43 + 64) + 2 ^ 64 * 4096 + 2 ^ 128 * 64) with phase := 1, left := 1 } (live .serve))) := by
  decide +kernel

theorem test_PeersResponsesReachWhoWaits_8 : (fun (d q : Die) (f : Frame) (r : PeerReq) (e : Desc) (s : State) => (s.Expects d f) ∧ (f.op = 6) ∧ (f.more = false) ∧ (f.status = 0) ∧ (f.payload = []) ∧ ((die s d).fpc.outq = []) ∧ ((ctx s d (f.src % 4096)).unreported < 15) ∧ ((ctx s d (f.src % 4096)).reqs.find? (fun (q : PeerReq) => q.tag == f.tag && q.op + 1 == f.op) = some r) ∧ (r.got = []) ∧ (r.waiter = .enq q e.sq e.seq) ∧ (startedDesc s q e.sq e.seq = some e) ∧ (e.left = 1) ∧ (e.num 10 1 ≠ 2) ∧ (e.quiet = false) ∧ (rfb s F.CPR_SQ_CTRL.ERROR q e.sq = false) ∧ (rfb s F.CPR_CQ_CTRL.EN q (sqCq s q e.sq) = true) ∧ (rfb s F.CPR_CQ_CTRL.ERROR q (sqCq s q e.sq) = false)) .east .east (aFrame 6 0 0 []) (⟨9, 5, .enq .east 0 0, 64, 64, []⟩) ({ aDesc 0x3E 0 0 with phase := 1, left := 1, vals := [(3, 64)] }) (withPeer { aCtx with reqs := [⟨9, 5, .enq .east 0 0, 64, 64, []⟩] } (withDesc { aDesc 0x3E 0 0 with phase := 1, left := 1, vals := [(3, 64)] } (live .serve))) := by
  decide +kernel

theorem test_PeersResponsesReachWhoWaits_9 : (fun (d q : Die) (f : Frame) (r : PeerReq) (m : MoveSt) (k : Nat) (s : State) => (s.Expects d f) ∧ (f.op = 8) ∧ (f.more = false) ∧ (f.status = 0) ∧ (f.payload = []) ∧ ((die s d).fpc.outq = []) ∧ ((ctx s d (f.src % 4096)).unreported < 15) ∧ ((ctx s d (f.src % 4096)).reqs.find? (fun (q : PeerReq) => q.tag == f.tag && q.op + 1 == f.op) = some r) ∧ (r.got = []) ∧ (r.waiter = .move q k) ∧ (nget (tme s q).moves k = some m) ∧ (m.committed = false) ∧ (m.accepted = false) ∧ (m.waitsPeer = true) ∧ (m.dest.tier = 3)) .east .east (aFrame 8 0 0 []) (⟨9, 7, .move .east 1, 64, 64, []⟩) (⟨0, .send, true, [], 0, 0, 0, { aPage 0 with tier := 3, node := 2 }, aPage 4, true, false, false, [], .sweep⟩) 1 (withPeer { aCtx with reqs := [⟨9, 7, .move .east 1, 64, 64, []⟩] } (onTme .east (fun x => { x with moves := [(1, ⟨0, .send, true, [], 0, 0, 0, { aPage 0 with tier := 3, node := 2 }, aPage 4, true, false, false, [], .sweep⟩)] }) (live .serve))) := by
  decide +kernel

theorem test_PeersResponsesReachWhoWaits_10 : (fun (d : Die) (f : Frame) (s : State) => (s.Expects d f) ∧ (f.op = 2) ∧ ((ctx s d (f.src % 4096)).unreported < 15) ∧ ((ctx s d (f.src % 4096)).reqs.find? (fun (q : PeerReq) => q.tag == f.tag && q.op + 1 == f.op) = none)) .east (aFrame 2 64 0 (List.replicate 64 5)) (withPeer aCtx (live .serve)) := by
  decide +kernel

/-! ### FramesAcknowledgeConnectAndAreDropped -/

theorem test_FramesAcknowledgeConnectAndAreDropped_1 : (fun (d : Die) (f : Frame) (s : State) => (s.Hears d f) ∧ (f.op = 0) ∧ ((ctx s d (f.src % 4096)).waiting = [])) .east (aFrame 0 0 0 []) (withPeer { aCtx with timeouts := 2, unacked := [aFrame 2 0 0 [], { aFrame 4 0 0 [] with seq := 22 }] } (live .serve)) := by
  decide +kernel

theorem test_FramesAcknowledgeConnectAndAreDropped_2 : (fun (d : Die) (f : Frame) (s : State) => (s.Hears d f) ∧ (f.op = 14) ∧ ((ctx s d (f.src % 4096)).waiting = [])) .east (aFrame 14 0 0 []) (withPeer { aCtx with timeouts := 2, unacked := [aFrame 2 0 0 [], { aFrame 4 0 0 [] with seq := 22 }] } (live .serve)) := by
  decide +kernel

theorem test_FramesAcknowledgeConnectAndAreDropped_3 : (fun (d : Die) (f : Frame) (s : State) => (s.FabOpen d (f.src % 4096)) ∧ (coreBypass s d = false) ∧ (badFrame s d f true = none) ∧ (f.op = 12) ∧ (maySession s d = true) ∧ (ctxUp s d (f.src % 4096) = false) ∧ ((ctx s d (f.src % 4096)).st = .connecting → (f.src % 4096) ≤ nodeId s) ∧ (s.NoReqs d)) .east (aFrame 12 0 5 []) (withPeer { aCtx with st := .down } (live .serve)) := by
  decide +kernel

theorem test_FramesAcknowledgeConnectAndAreDropped_4 : (fun (d : Die) (f : Frame) (s : State) => (s.FabOpen d (f.src % 4096)) ∧ (coreBypass s d = false) ∧ (badFrame s d f true = none) ∧ (f.op = 13) ∧ ((ctx s d (f.src % 4096)).st = .connecting) ∧ (f.arg % 16 = (ctx s d (f.src % 4096)).session)) .east (aFrame 13 0 3 []) (withPeer { aCtx with st := .connecting } (live .serve)) := by
  decide +kernel

theorem test_FramesAcknowledgeConnectAndAreDropped_5 : (fun (d : Die) (f : Frame) (s : State) => (s.FabOpen d (f.src % 4096)) ∧ (coreBypass s d = false) ∧ (badFrame s d f true = none) ∧ (f.op = 1) ∧ (ctxUp s d (f.src % 4096) = false ∨ f.session ≠ (ctx s d (f.src % 4096)).session)) .east (aFrame 1 64 0 (List.replicate 64 5)) (withPeer { aCtx with session := 4 } (live .serve)) := by
  decide +kernel

theorem test_FramesAcknowledgeConnectAndAreDropped_6 : (fun (d : Die) (f : Frame) (s : State) => (s.FabOpen d (f.src % 4096)) ∧ (coreBypass s d = false) ∧ (badFrame s d f true = none) ∧ (f.op = 2) ∧ (ctxUp s d (f.src % 4096) = false ∨ f.session ≠ (ctx s d (f.src % 4096)).session)) .east (aFrame 2 64 0 (List.replicate 64 5)) (withPeer { aCtx with session := 4 } (live .serve)) := by
  decide +kernel

theorem test_FramesAcknowledgeConnectAndAreDropped_7 : (fun (d : Die) (f : Frame) (s : State) => (s.FabOpen d (f.src % 4096)) ∧ (coreBypass s d = false) ∧ (badFrame s d f true = none) ∧ (f.op = 3) ∧ (ctxUp s d (f.src % 4096) = false ∨ f.session ≠ (ctx s d (f.src % 4096)).session)) .east (aFrame 3 64 0 (List.replicate 64 5)) (withPeer { aCtx with session := 4 } (live .serve)) := by
  decide +kernel

theorem test_FramesAcknowledgeConnectAndAreDropped_8 : (fun (d : Die) (f : Frame) (s : State) => (s.FabOpen d (f.src % 4096)) ∧ (coreBypass s d = false) ∧ (badFrame s d f true = none) ∧ (f.op = 0) ∧ (ctxUp s d (f.src % 4096) = false ∨ f.session ≠ (ctx s d (f.src % 4096)).session)) .east (aFrame 0 64 0 (List.replicate 64 5)) (withPeer { aCtx with session := 4 } (live .serve)) := by
  decide +kernel

theorem test_FramesAcknowledgeConnectAndAreDropped_9 : (fun (d : Die) (f : Frame) (sci : Bool) (s : State) => (s.Idle) ∧ (coreBypass s d = false) ∧ (canReceive s d (f.src % 4096) = true)) .east (aFrame 3 64 0 []) true (withPeer aCtx (live .serve)) := by
  decide +kernel

theorem test_FramesAcknowledgeConnectAndAreDropped_10 : (fun (d : Die) (f : Frame) (k : Nat) (sci : Bool) (s : State) => (s.FabOpen d (f.src % 4096)) ∧ (coreBypass s d = false) ∧ (badFrame s d { f with op := 3 } sci = some k)) .east ({ aFrame 3 64 0 [] with ver := 2 }) 0 true (withPeer aCtx (live .serve)) := by
  decide +kernel

theorem test_FramesAcknowledgeConnectAndAreDropped_11 : (fun (d : Die) (f : Frame) (s : State) => (s.Hears d f) ∧ (f.op = 3) ∧ (1 ≤ seqDist (ctx s d (f.src % 4096)).expect f.seq) ∧ (seqDist (ctx s d (f.src % 4096)).expect f.seq ≤ 64) ∧ ((nget (ctx s d (f.src % 4096)).held f.seq).isNone = true) ∧ ((ctx s d (f.src % 4096)).unacked = []) ∧ ((ctx s d (f.src % 4096)).waiting = []) ∧ ((ctx s d (f.src % 4096)).unreported < 15) ∧ (storeBytes s d + f.payload.length ≤ 2 ^ 21) ∧ ((ctx s d (f.src % 4096)).expect < 2 ^ 24) ∧ (f.seq < 2 ^ 24)) .east ({ aFrame 3 64 0 (List.replicate 64 5) with seq := 12 }) (withPeer aCtx (live .serve)) := by
  decide +kernel

/-! ### FabricTimersResendAndGiveUp -/

theorem test_FabricTimersResendAndGiveUp_1 : (fun (d : Die) (n : Nat) (g : Frame) (s : State) => (s.FabOpen d n) ∧ (ctxUp s d n = true) ∧ (s.dev.mode ≠ .hold) ∧ (coreBypass s d = false) ∧ ((ctx s d n).unacked = [g]) ∧ ((ctx s d n).timeouts + 1 < clamp 2 63 (rf s F.FPC_TIMER_CFG.UNREACH_N d 0))) .east 2 (aFrame 2 64 0 [1, 2]) (wf F.FPC_TIMER_CFG.UNREACH_N .east 0 8 (withPeer { aCtx with unacked := [aFrame 2 64 0 [1, 2]] } (live .serve))) := by
  decide +kernel

theorem test_FabricTimersResendAndGiveUp_2 : (fun (d : Die) (n : Nat) (s : State) => (s.FabOpen d n) ∧ (ctxUp s d n = true) ∧ (s.NoReqs d) ∧ (s.dev.mode ≠ .hold) ∧ (coreBypass s d = false) ∧ ((ctx s d n).unacked ≠ []) ∧ (clamp 2 63 (rf s F.FPC_TIMER_CFG.UNREACH_N d 0) ≤ (ctx s d n).timeouts + 1)) .east 2 (wf F.FPC_TIMER_CFG.UNREACH_N .east 0 8 (withPeer { aCtx with timeouts := 7, unacked := [aFrame 2 64 0 [1, 2]] } (live .serve))) := by
  decide +kernel

theorem test_FabricTimersResendAndGiveUp_3 : (fun (d : Die) (n : Nat) (s : State) => (s.FabOpen d n) ∧ (ctxUp s d n = true) ∧ (s.NoReqs d) ∧ (s.dev.mode ≠ .hold)) .east 2 (withPeer aCtx (live .serve)) := by
  decide +kernel

theorem test_FabricTimersResendAndGiveUp_4 : (fun (d : Die) (n tag : Nat) (p : Die) (r : PeerReq) (o : OpSt) (m : Nat) (s : State) => (s.FabOpen d n) ∧ (ctxUp s d n = true) ∧ (s.dev.mode ≠ .hold) ∧ ((die s d).fpc.outq = []) ∧ ((ctx s d n).reqs = [r]) ∧ (r.waiter = .op m) ∧ (nget s.ops m = some o) ∧ (o.job = .read) ∧ (o.asker = .host p tag) ∧ (o.want = [0]) ∧ (o.track = none)) .east 2 9 .east (⟨9, 1, .op 4, 64, 64, []⟩) (⟨.host .east 9, .read, .hp0, 0, 0, 0, .plain, none, none, [0], [], [], []⟩) 4 (withPeer { aCtx with reqs := [⟨9, 1, .op 4, 64, 64, []⟩] } { (live .serve) with ops := [(4, ⟨.host .east 9, .read, .hp0, 0, 0, 0, .plain, none, none, [0], [], [], []⟩)] }) := by
  decide +kernel

theorem test_FabricTimersResendAndGiveUp_5 : (fun (d : Die) (n : Nat) (s : State) => (s.FabOpen d n) ∧ (ctxUp s d n = true) ∧ (coreBypass s d = false) ∧ (0 < (ctx s d n).unreported)) .east 2 (withPeer { aCtx with unreported := 3 } (live .serve)) := by
  decide +kernel

theorem test_FabricTimersResendAndGiveUp_6 : (fun (d : Die) (n : Nat) (s : State) => (s.FabOpen d n) ∧ ((ctx s d n).st = .connecting) ∧ (s.dev.mode ≠ .hold) ∧ (maySession s d = true)) .east 2 (withPeer { aCtx with st := .connecting } (live .serve)) := by
  decide +kernel

theorem test_FabricTimersResendAndGiveUp_7 : (fun (d : Die) (n : Nat) (s : State) => (s.FabOpen d n) ∧ ((ctx s d n).st = .unreachable) ∧ (s.dev.mode ≠ .hold) ∧ (maySession s d = true)) .east 2 (withPeer { aCtx with st := .unreachable } (live .serve)) := by
  decide +kernel

theorem test_FabricTimersResendAndGiveUp_8 : (fun (d : Die) (n : Nat) (s : State) => (s.FabOpen d n) ∧ (ctxUp s d n = true)) .east 2 (withPeer aCtx (live .serve)) := by
  decide +kernel

/-! ### PeerContextsAreEnabledAndLost -/

theorem test_PeerContextsAreEnabledAndLost_1 : (fun (d : Die) (v : Word) (s : State) => (s.Idle) ∧ (verdict s .FPC d false = .take) ∧ (fabPresent s d = true) ∧ ((ctx s d (rf s F.FPC_PEER_SEL.NODE d 0)).en = false) ∧ (rf s F.FPC_PEER_SEL.NODE d 0 ≠ nodeId s)) .east 0x30055 (wf F.FPC_PEER_SEL.NODE .east 0 2 (withPeer CtxSt.reset (live .serve))) := by
  decide +kernel

theorem test_PeerContextsAreEnabledAndLost_2 : (fun (d : Die) (v : Word) (s : State) => (s.FabOpen d (rf s F.FPC_PEER_SEL.NODE d 0)) ∧ (s.NoReqs d) ∧ (verdict s .FPC d false = .take) ∧ (maySession s d = true) ∧ ((ctx s d (rf s F.FPC_PEER_SEL.NODE d 0)).en = true)) .east 0x90055 (wf F.FPC_PEER_SEL.NODE .east 0 2 (withPeer aCtx (live .serve))) := by
  decide +kernel

theorem test_PeerContextsAreEnabledAndLost_3 : (fun (d : Die) (v : Word) (s : State) => (s.Idle) ∧ (s.NoReqs d) ∧ (verdict s .FPC d false = .take) ∧ ((ctx s d (rf s F.FPC_PEER_SEL.NODE d 0)).en = true)) .east 0x55 (wf F.FPC_PEER_SEL.NODE .east 0 2 (withPeer aCtx (live .serve))) := by
  decide +kernel

theorem test_PeerContextsAreEnabledAndLost_4 : (fun (d : Die) (v : Word) (s : State) => (verdict s .FPC d false = .take) ∧ (rfc s F.DEV_MODE.LOCKED = 0)) .west 0x10007 (withPeer aCtx (live .serve)) := by
  decide +kernel

theorem test_PeerContextsAreEnabledAndLost_5 : (fun (d : Die) (s : State) => (s.Idle) ∧ (s.NoReqs d) ∧ (fabPresent s d = true) ∧ (rfb s F.FPC_LINK_STATUS.UP d 0 = true) ∧ (nwf (die s d).fpc.ctxs = true)) .east (withPeer aCtx (live .serve)) := by
  decide +kernel

theorem test_PeerContextsAreEnabledAndLost_6 : (fun (d : Die) (s : State) => (s.Idle) ∧ (s.NoReqs d) ∧ (fabPresent s d = true) ∧ (rfb s F.FPC_LINK_STATUS.UP d 0 = true) ∧ (nwf (die s d).fpc.ctxs = true)) .east (withPeer aCtx (live .serve)) := by
  decide +kernel

theorem test_PeerContextsAreEnabledAndLost_7 : (fun (d : Die) (s : State) => (s.Idle) ∧ (fabPresent s d = true) ∧ (rfb s F.FPC_PORT_CFG.EN d 0 = true) ∧ (rfb s F.FPC_LINK_STATUS.UP d 0 = false) ∧ (fenced s d = false) ∧ (s.dev.mode ≠ .boot) ∧ (s.dev.mode ≠ .hold)) .east (wf F.FPC_LINK_STATUS.UP .east 0 0 (withPeer aCtx (live .serve))) := by
  decide +kernel

theorem test_PeerContextsAreEnabledAndLost_8 : (fun (d : Die) (n : Nat) (s : State) => (s.Idle) ∧ (s.NoReqs d) ∧ (fabPresent s d = true) ∧ ((die s d).fpc.channels.contains n = true) ∧ (ctxUp s d n = true)) .east 2 (withPeer aCtx (live .serve)) := by
  decide +kernel

/-! ### RemoteDescriptorsAndFrameInjections -/

theorem test_RemoteDescriptorsAndFrameInjections_1 : (fun (d : Die) (e : Desc) (a : Nat) (s : State) => (s.Runs d e 0x90) ∧ (e.phase = 0) ∧ (remFieldsOk s e = true) ∧ (remLocal e = ⟨false, a⟩) ∧ (placeStatus s ⟨false, a⟩ (remLen e) true = 0) ∧ (remParts e = [(0, remLen e)]) ∧ (outPort s d (remNode e) = some d) ∧ (inFlight s d < 8192) ∧ (s.FabOpen d (remNode e)) ∧ ((ctx s d (remNode e)).unacked.length < 1024)) .east (aDesc 0x90 0 ((2 * 2 ^ 43 + 64) + 2 ^ 64 * 4096 + 2 ^ 128 * 64)) 4096 (withPeer aCtx (withDesc (aDesc 0x90 0 ((2 * 2 ^ 43 + 64) + 2 ^ 64 * 4096 + 2 ^ 128 * 64)) (live .serve))) := by
  decide +kernel

theorem test_RemoteDescriptorsAndFrameInjections_2 : (fun (d : Die) (e : Desc) (a : Nat) (l : LineData) (s : State) => (s.Runs d e 0x91) ∧ (e.phase = 0) ∧ (remFieldsOk s e = true) ∧ (remLocal e = ⟨false, a⟩) ∧ (placeStatus s ⟨false, a⟩ (remLen e) false = 0) ∧ (remLen e = 64) ∧ (outPort s d (remNode e) = some d) ∧ (inFlight s d < 8192) ∧ (s.FabOpen d (remNode e)) ∧ ((ctx s d (remNode e)).unacked.length < 1024)) .east (aDesc 0x91 0 ((2 * 2 ^ 43 + 64) + 2 ^ 64 * 4096 + 2 ^ 128 * 64)) 4096 (⟨77, false⟩) (withPeer aCtx (withDesc (aDesc 0x91 0 ((2 * 2 ^ 43 + 64) + 2 ^ 64 * 4096 + 2 ^ 128 * 64)) (live .serve))) := by
  decide +kernel

theorem test_RemoteDescriptorsAndFrameInjections_3 : (fun (d : Die) (e : Desc) (a : Nat) (s : State) => (s.Runs d e 0x90) ∧ (e.phase = 0) ∧ (remFieldsOk s e = true) ∧ (remLocal e = ⟨false, a⟩) ∧ (placeStatus s ⟨false, a⟩ (remLen e) true = 0) ∧ (outPort s d (remNode e) = none)) .east (aDesc 0x90 0 ((2 * 2 ^ 43 + 64) + 2 ^ 64 * 4096 + 2 ^ 128 * 64)) 4096 (withPeer { aCtx with st := .connecting } (withDesc (aDesc 0x90 0 ((2 * 2 ^ 43 + 64) + 2 ^ 64 * 4096 + 2 ^ 128 * 64)) (live .serve))) := by
  decide +kernel

theorem test_RemoteDescriptorsAndFrameInjections_4 : (fun (d : Die) (e : Desc) (s : State) => (s.Runs d e 0x92) ∧ (peerFieldsOk s e = true)) .east (aDesc 0x92 0 2) (withPeer { aCtx with retx := 7 } (withDesc (aDesc 0x92 0 2) (live .serve))) := by
  decide +kernel

theorem test_RemoteDescriptorsAndFrameInjections_5 : (fun (d : Die) (e : Desc) (s : State) => (s.Runs d e 0x93) ∧ (peerFieldsOk s e = true) ∧ (s.NoReqs (dieOf (e.num 28 1))) ∧ ((ctx s (dieOf (e.num 28 1)) (e.num 8 8)).en = true)) .east (aDesc 0x93 0 2) (withPeer { aCtx with retx := 7 } (withDesc (aDesc 0x93 0 2) (live .serve))) := by
  decide +kernel

theorem test_RemoteDescriptorsAndFrameInjections_6 : (fun (d : Die) (v : Word) (s : State) => (verdict s .FPC d false = .take)) .east 0x1F59 (withPeer aCtx (live .serve)) := by
  decide +kernel

theorem test_RemoteDescriptorsAndFrameInjections_7 : (fun (d : Die) (s : State) => (verdict s .FPC d false = .take)) .east (withPeer aCtx (live .serve)) := by
  decide +kernel

theorem test_RemoteDescriptorsAndFrameInjections_8 : (fun (d : Die) (n : Nat) (f : Frame) (s : State) => (s.Idle) ∧ (canSend s d n = true) ∧ ((die s d).fpc.swapped = some ⟨false, n, f, true⟩) ∧ ((die s d).fpc.pn < 2 ^ 62 - 2)) .east 2 (aFrame 1 64 0 []) (onFpc .east (fun x => { x with swapped := some ⟨false, 2, aFrame 1 64 0 [], true⟩ }) (withPeer aCtx (live .serve))) := by
  decide +kernel

theorem test_RemoteDescriptorsAndFrameInjections_9 : (fun (d : Die) (n : Nat) (f : Frame) (hs : List HeldFrame) (s : State) => (s.Idle) ∧ (canSend s d n = true) ∧ ((die s d).fpc.delayed = ⟨false, n, f, true⟩ :: hs) ∧ ((die s d).fpc.pn < 2 ^ 62 - 2)) .east 2 (aFrame 1 64 0 []) ([]) (onFpc .east (fun x => { x with delayed := [⟨false, 2, aFrame 1 64 0 [], true⟩] }) (withPeer aCtx (live .serve))) := by
  decide +kernel

/-! ### DoorbellsInterruptsAndRingControl -/

theorem test_DoorbellsInterruptsAndRingControl_1 : (fun (p d : Die) (n v : Nat) (s : State) => (diePresent s p = true) ∧ (portUp s p = true) ∧ (ringOwner s .sq n = some d) ∧ (doorbellIndex s .sq d n v 4 = some v) ∧ (n < 256) ∧ ((sqOf s d n).tailSeq + (v + sqSize s d n - (sqOf s d n).tailSeq % sqSize s d n) % sqSize s d n - (sqOf s d n).oldest ≤ sqSize s d n - 1)) .east .east 0 5 (wf F.CPR_SQ_CTRL.LOG2SIZE .east 0 6 (portUp0 (onSq .east 0 (fun _ => ⟨[], [], 0, 0, 0⟩) (withDesc (aDesc 0 0 0) (live .serve))))) := by
  decide +kernel

theorem test_DoorbellsInterruptsAndRingControl_2 : (fun (p d : Die) (n v : Nat) (s : State) => (diePresent s p = true) ∧ (portUp s p = true) ∧ (ringOwner s .cq n = some d) ∧ (doorbellIndex s .cq d n v 4 = some v) ∧ (n < 256) ∧ (headFits (ringSize (rf s F.CPR_CQ_CTRL.LOG2SIZE d n)) (rf s F.CPR_CQ_PTR.HEAD d n) (rf s F.CPR_CQ_PTR.TAIL d n) v = true)) .east .east 0 5 (wf F.CPR_CQ_PTR.TAIL .east 0 7 (wf F.CPR_CQ_CTRL.LOG2SIZE .east 0 6 (portUp0 (withDesc (aDesc 0 0 0) (live .serve))))) := by
  decide +kernel

theorem test_DoorbellsInterruptsAndRingControl_3 : (fun (p d : Die) (n v : Nat) (s : State) => (diePresent s p = true) ∧ (portUp s p = true) ∧ (ringOwner s .eq n = some d) ∧ (doorbellIndex s .eq d n v 4 = some v) ∧ (n < 4) ∧ (headFits (ringSize (rf s F.CPR_EQ_CTRL.LOG2SIZE d n)) (rf s F.CPR_EQ_PTR.HEAD d n) (rf s F.CPR_EQ_PTR.TAIL d n) v = true) ∧ (d = p) ∧ (rf s F.CPR_EQ_LOST.COUNT d n = 0)) .east .east 0 5 (wf F.CPR_EQ_PTR.TAIL .east 0 7 (wf F.CPR_EQ_CTRL.LOG2SIZE .east 0 6 (wf F.CPR_EQ_CTRL.EN .east 0 1 (portUp0 (live .serve))))) := by
  decide +kernel

theorem test_DoorbellsInterruptsAndRingControl_4 : (fun (p d : Die) (n v : Nat) (s : State) => (diePresent s p = true) ∧ (portUp s p = true) ∧ (ringOwner s .eq n = some d) ∧ (doorbellIndex s .eq d n v 4 = some v) ∧ (n < 4) ∧ (headFits (ringSize (rf s F.CPR_EQ_CTRL.LOG2SIZE d n)) (rf s F.CPR_EQ_PTR.HEAD d n) (rf s F.CPR_EQ_PTR.TAIL d n) v = true) ∧ (d = p) ∧ (0 < rf s F.CPR_EQ_LOST.COUNT d n) ∧ ((rf s F.CPR_EQ_PTR.TAIL d n + 1) % ringSize (rf s F.CPR_EQ_CTRL.LOG2SIZE d n) ≠ v)) .east .east 0 5 (wf F.CPR_EQ_LOST.COUNT .east 0 3 (wf F.CPR_EQ_PTR.TAIL .east 0 7 (wf F.CPR_EQ_CTRL.LOG2SIZE .east 0 6 (wf F.CPR_EQ_CTRL.EN .east 0 1 (portUp0 (live .serve)))))) := by
  decide +kernel

theorem test_DoorbellsInterruptsAndRingControl_5 : (fun (p : Die) (n v size : Nat) (s : State) => (diePresent s p = true) ∧ (portUp s p = true) ∧ (size ≠ 4 ∨ 65536 ≤ v ∨ (ringOwner s .sq n).isNone = true) ∧ (ringOwner s .sq n = none ∨ ringOwner s .sq n = some p)) .east 0 5 2 (wf F.CPR_SQ_CTRL.LOG2SIZE .east 0 6 (portUp0 (onSq .east 0 (fun _ => ⟨[], [], 0, 0, 0⟩) (withDesc (aDesc 0 0 0) (live .serve))))) := by
  decide +kernel

theorem test_DoorbellsInterruptsAndRingControl_6 : (fun (d : Die) (n : Nat) (s : State) => (rfb s F.CPR_CQ_CTRL.IRQ_EN d n = true) ∧ (0 < (cqOf s d n).sinceIrq) ∧ ((die s d).hpc.msixMask.contains (rf s F.CPR_CQ_CTRL.VECTOR d n) = false)) .east 0 (wf F.CPR_CQ_CTRL.IRQ_EN .east 0 1 (onCq .east 0 (fun q => { q with sinceIrq := 2 }) (wf F.CPR_CQ_CTRL.LOG2SIZE .east 0 6 (portUp0 (withDesc (aDesc 0 0 0) (live .serve)))))) := by
  decide +kernel

theorem test_DoorbellsInterruptsAndRingControl_7 : (fun (d : Die) (n : Nat) (s : State) => (rfb s F.CPR_EQ_CTRL.IRQ_EN d n = true) ∧ (0 < (eqOf s d n).sinceIrq) ∧ ((die s d).hpc.msixMask.contains (rf s F.CPR_EQ_CTRL.VECTOR d n) = true)) .east 0 (wf F.CPR_EQ_CTRL.IRQ_EN .east 0 1 (onHpc .east (fun h => { h with msixMask := [0] }) (onEq .east 0 (fun q => { q with sinceIrq := 2 }) (wf F.CPR_EQ_CTRL.LOG2SIZE .east 0 6 (wf F.CPR_EQ_CTRL.EN .east 0 1 (portUp0 (live .serve))))))) := by
  decide +kernel

theorem test_DoorbellsInterruptsAndRingControl_8 : (fun (d : Die) (n : Nat) (s : State) => ((cqOf s d n).fullNs.isSome = true) ∧ ((cqOf s d n).stallPosted = false)) .east 0 (onCq .east 0 (fun q => { q with fullNs := some 5 }) (wf F.CPR_CQ_CTRL.LOG2SIZE .east 0 6 (portUp0 (withDesc (aDesc 0 0 0) (live .serve))))) := by
  decide +kernel

theorem test_DoorbellsInterruptsAndRingControl_9 : (fun (d : Die) (n : Nat) (s : State) => (verdict s .CPR d false = .take) ∧ (n < 256) ∧ (rfb s F.CPR_SQ_CTRL.EN d n = false) ∧ (enableReason s .sq d n = none)) .east 1 (wf F.CPR_SQ_CTRL.LOG2SIZE .east 1 6 (wf F.CPR_CQ_CTRL.LOG2SIZE .east 0 6 (portUp0 (withDesc (aDesc 0 0 0) (live .serve))))) := by
  decide +kernel

theorem test_DoorbellsInterruptsAndRingControl_10 : (fun (d : Die) (n : Nat) (s : State) => (verdict s .CPR d false = .take) ∧ (n < 256) ∧ (rfb s F.CPR_CQ_CTRL.EN d n = false) ∧ (enableReason s .cq d n = none)) .east 1 (wf F.CPR_CQ_CTRL.LOG2SIZE .east 1 6 (wf F.CPR_CQ_CTRL.LOG2SIZE .east 0 6 (portUp0 (withDesc (aDesc 0 0 0) (live .serve))))) := by
  decide +kernel

theorem test_DoorbellsInterruptsAndRingControl_11 : (fun (d : Die) (n : Nat) (s : State) => (verdict s .CPR d false = .take) ∧ (n < 4) ∧ (rfb s F.CPR_EQ_CTRL.EN d n = false) ∧ (enableReason s .eq d n = none)) .east 1 (wf F.CPR_EQ_CTRL.LOG2SIZE .east 1 6 (wf F.CPR_CQ_CTRL.LOG2SIZE .east 0 6 (portUp0 (withDesc (aDesc 0 0 0) (live .serve))))) := by
  decide +kernel

theorem test_DoorbellsInterruptsAndRingControl_12 : (fun (d : Die) (n r : Nat) (s : State) => (verdict s .CPR d false = .take) ∧ (n < 256) ∧ (rfb s F.CPR_SQ_CTRL.EN d n = false) ∧ (enableReason s .sq d n = some r)) .east 1 2 ((wf F.CPR_CQ_CTRL.LOG2SIZE .east 0 6 (portUp0 (withDesc (aDesc 0 0 0) (live .serve))))) := by
  decide +kernel

theorem test_DoorbellsInterruptsAndRingControl_13 : (fun (d : Die) (n : Nat) (e : Desc) (s : State) => (verdict s .CPR d false = .take) ∧ (n < 256) ∧ (rfb s F.CPR_SQ_CTRL.EN d n = true) ∧ (e.sq = n) ∧ ((sqOf s d n).fetched = [e]) ∧ (e.quiet = false) ∧ (rfb s F.CPR_SQ_CTRL.ERROR d n = false) ∧ (rfb s F.CPR_CQ_CTRL.EN d (sqCq s d n) = true) ∧ (rfb s F.CPR_CQ_CTRL.ERROR d (sqCq s d n) = false)) .east 0 (aDesc 3 0 0) (onSq .east 0 (fun q => { q with fetched := [aDesc 3 0 0], started := [] }) (wf F.CPR_CQ_CTRL.LOG2SIZE .east 0 6 (portUp0 (withDesc (aDesc 0 0 0) (live .serve))))) := by
  decide +kernel

theorem test_DoorbellsInterruptsAndRingControl_14 : (fun (d : Die) (n : Nat) (s : State) => (verdict s .CPR d false = .take) ∧ (n < 256) ∧ (rfb s F.CPR_CQ_CTRL.EN d n = true) ∧ ((List.range 256).any (fun k => rfb s F.CPR_SQ_CTRL.EN d k && sqCq s d k == n) = false) ∧ ((List.range 256).any (fun k => rfb s F.CPR_SQ_CTRL.BUSY d k && sqCq s d k == n) = false) ∧ ((cqOf s d n).waiting = [])) .east 1 (wf F.CPR_CQ_CTRL.EN .east 1 1 (wf F.CPR_CQ_CTRL.LOG2SIZE .east 0 6 (portUp0 (withDesc (aDesc 0 0 0) (live .serve))))) := by
  decide +kernel

theorem test_DoorbellsInterruptsAndRingControl_15 : (fun (d : Die) (n : Nat) (s : State) => (verdict s .CPR d false = .take) ∧ (n < 256) ∧ (rfb s F.CPR_CQ_CTRL.EN d n = true) ∧ ((List.range 256).any (fun k => rfb s F.CPR_SQ_CTRL.EN d k && sqCq s d k == n) = true)) .east 0 ((wf F.CPR_CQ_CTRL.LOG2SIZE .east 0 6 (portUp0 (withDesc (aDesc 0 0 0) (live .serve))))) := by
  decide +kernel

theorem test_DoorbellsInterruptsAndRingControl_16 : (fun (d : Die) (n : Nat) (s : State) => (verdict s .CPR d false = .take)) .east 0 ((wf F.CPR_EQ_CTRL.LOG2SIZE .east 0 6 (wf F.CPR_EQ_CTRL.EN .east 0 1 (portUp0 (live .serve))))) := by
  decide +kernel

/-! ### DescriptorsAreFetchedRunAndCompleted -/

theorem test_DescriptorsAreFetchedRunAndCompleted_1 : (fun (d : Die) (n : Nat) (b : Line) (s : State) => (s.Idle) ∧ (n < 256) ∧ (mayFetch s d n = true) ∧ ((sqOf s d n).fetched = []) ∧ (rfc s F.SEC_POLICY.LOCKDOWN = 0) ∧ (fenceOpen s d ⟨n, (sqOf s d n).next, b, 0, 0, [], [], []⟩ = true) ∧ (descCheck s d ⟨n, (sqOf s d n).next, b, 0, 0, [], [], []⟩ = 0)) .east 0 (descLine 3 0 0) (onSq .east 0 (fun q => { q with tailSeq := 5 }) (wf F.CPR_SQ_CTRL.LOG2SIZE .east 0 6 (portUp0 (onSq .east 0 (fun _ => ⟨[], [], 0, 0, 0⟩) (withDesc (aDesc 0 0 0) (live .serve)))))) := by
  decide +kernel

theorem test_DescriptorsAreFetchedRunAndCompleted_2 : (fun (d : Die) (n : Nat) (b : Line) (s : State) => (s.Idle) ∧ (n < 256) ∧ (mayFetch s d n = true) ∧ ((sqOf s d n).fetched = []) ∧ (rfc s F.SEC_POLICY.LOCKDOWN = 0) ∧ (fenceOpen s d ⟨n, (sqOf s d n).next, b, 0, 0, [], [], []⟩ = true) ∧ (descCheck s d ⟨n, (sqOf s d n).next, b, 0, 0, [], [], []⟩ ≠ 0) ∧ ((sqOf s d n).started = []) ∧ (fld (lineNum b 1 1) 1 1 = 0) ∧ (rfb s F.CPR_CQ_CTRL.EN d (sqCq s d n) = true) ∧ (rfb s F.CPR_CQ_CTRL.ERROR d (sqCq s d n) = false)) .east 0 (descLine 0x77 0 0) (onSq .east 0 (fun q => { q with tailSeq := 5 }) (wf F.CPR_SQ_CTRL.LOG2SIZE .east 0 6 (portUp0 (onSq .east 0 (fun _ => ⟨[], [], 0, 0, 0⟩) (withDesc (aDesc 0 0 0) (live .serve)))))) := by
  decide +kernel

theorem test_DescriptorsAreFetchedRunAndCompleted_3 : (fun (d : Die) (n : Nat) (s : State) => (s.Idle) ∧ (n < 256) ∧ (mayFetch s d n = true)) .east 0 (onSq .east 0 (fun q => { q with tailSeq := 5 }) (wf F.CPR_SQ_CTRL.LOG2SIZE .east 0 6 (portUp0 (onSq .east 0 (fun _ => ⟨[], [], 0, 0, 0⟩) (withDesc (aDesc 0 0 0) (live .serve)))))) := by
  decide +kernel

theorem test_DescriptorsAreFetchedRunAndCompleted_4 : (fun (d : Die) (n : Nat) (c : Comp) (cs : List Comp) (s : State) => (s.Idle) ∧ (n < 256) ∧ ((cqOf s d n).waiting = c :: cs) ∧ (cqFull s d n = false) ∧ (rfb s F.CPR_CQ_CTRL.ERROR d n = false) ∧ (s.dev.mode ≠ .hold) ∧ (portAlive s d = true) ∧ ((sqOf s d c.sq).fetched = [])) .east 0 (⟨0, 4, 7, 0, 1, 2, false, false⟩) ([]) (onCq .east 0 (fun q => { q with waiting := [⟨0, 4, 7, 0, 1, 2, false, false⟩] }) (wf F.CPR_CQ_CTRL.LOG2SIZE .east 0 6 (portUp0 (withDesc (aDesc 0 0 0) (live .serve))))) := by
  decide +kernel

theorem test_DescriptorsAreFetchedRunAndCompleted_5 : (fun (d : Die) (n : Nat) (c : Comp) (cs : List Comp) (s : State) => (s.Idle) ∧ (n < 256) ∧ ((cqOf s d n).waiting = c :: cs) ∧ (cqFull s d n = false) ∧ (rfb s F.CPR_CQ_CTRL.ERROR d n = false) ∧ (s.dev.mode ≠ .hold)) .east 0 (⟨0, 4, 7, 0, 1, 2, false, false⟩) ([]) (onCq .east 0 (fun q => { q with waiting := [⟨0, 4, 7, 0, 1, 2, false, false⟩] }) (wf F.CPR_CQ_CTRL.LOG2SIZE .east 0 6 (portUp0 (withDesc (aDesc 0 0 0) (live .serve))))) := by
  decide +kernel

theorem test_DescriptorsAreFetchedRunAndCompleted_6 : (fun (d : Die) (e : Desc) (s : State) => (s.Runs d e 0) ∧ (e.arg = 0) ∧ (e.zero 16 48 = true)) .east (aDesc 0 0 77) (withDesc (aDesc 0 0 77) (live .serve)) := by
  decide +kernel

theorem test_DescriptorsAreFetchedRunAndCompleted_7 : (fun (d : Die) (e : Desc) (s : State) => (s.Runs d e 0) ∧ (e.arg ≠ 0)) .east (aDesc 0 1 77) (withDesc (aDesc 0 1 77) (live .serve)) := by
  decide +kernel

theorem test_DescriptorsAreFetchedRunAndCompleted_8 : (fun (d : Die) (e : Desc) (s : State) => (s.Runs d e 3) ∧ (e.arg = 0) ∧ (e.zero 8 56 = true)) .east (aDesc 3 0 0) (withDesc (aDesc 3 0 0) (live .serve)) := by
  decide +kernel

theorem test_DescriptorsAreFetchedRunAndCompleted_9 : (fun (d : Die) (e : Desc) (k : RingKind) (s : State) => (s.Runs d e 4) ∧ (e.arg = 0) ∧ (e.zero 11 53 = true) ∧ (ringKind (e.num 8 1) = some k) ∧ (e.num 9 2 < (if k = .eq then 4 else 256))) .east (aDesc 4 0 0) .sq (withDesc (aDesc 4 0 0) (live .serve)) := by
  decide +kernel

theorem test_DescriptorsAreFetchedRunAndCompleted_10 : (fun (d : Die) (e : Desc) (host : List LineData) (s : State) => (s.Runs d e 1) ∧ (e.phase = 0) ∧ (copyFieldsOk e = true) ∧ (copySrc e = ⟨false, (copySrc e).addr⟩) ∧ (copyDst e = ⟨true, (copyDst e).addr⟩) ∧ (domainCheck d e.sq (copyDst e).addr .cpr s = (true, s)) ∧ (rangeStatus s (copyDst e).addr (copyLen e) true = 0)) .east (aDesc 1 0 (4096 + 2 ^ 64 * 128 + 2 ^ 128 * 128 + 2 ^ 160 * 2)) ([⟨5, false⟩, ⟨6, false⟩]) (withDesc (aDesc 1 0 (4096 + 2 ^ 64 * 128 + 2 ^ 128 * 128 + 2 ^ 160 * 2)) (withRegion 0)) := by
  decide +kernel

theorem test_DescriptorsAreFetchedRunAndCompleted_11 : (fun (d : Die) (e : Desc) (host : List LineData) (s : State) => (s.Runs d e 1) ∧ (e.phase = 0) ∧ (copyFieldsOk e = true) ∧ (copySrc e = ⟨true, (copySrc e).addr⟩) ∧ (copyDst e = ⟨false, (copyDst e).addr⟩) ∧ (domainCheck d e.sq (copySrc e).addr .cpr s = (true, s)) ∧ (rangeStatus s (copySrc e).addr (copyLen e) false = 0)) .east (aDesc 1 0 (4096 + 2 ^ 64 * 128 + 2 ^ 128 * 128 + 2 ^ 160 * 1)) ([]) (withDesc (aDesc 1 0 (4096 + 2 ^ 64 * 128 + 2 ^ 128 * 128 + 2 ^ 160 * 1)) (withRegion 0)) := by
  decide +kernel

theorem test_DescriptorsAreFetchedRunAndCompleted_12 : (fun (d : Die) (e : Desc) (host : List LineData) (s : State) => (s.Runs d e 1) ∧ (e.phase = 1) ∧ (copyDst e = ⟨false, (copyDst e).addr⟩) ∧ (portAlive s d = true)) .east ({ aDesc 1 0 (4096 + 2 ^ 64 * 128 + 2 ^ 128 * 128 + 2 ^ 160 * 1) with phase := 1, got := [(0, ⟨5, false⟩), (1, ⟨6, true⟩)] }) ([]) (portUp0 (withDesc { aDesc 1 0 (4096 + 2 ^ 64 * 128 + 2 ^ 128 * 128 + 2 ^ 160 * 1) with phase := 1, got := [(0, ⟨5, false⟩), (1, ⟨6, true⟩)] } (withRegion 0))) := by
  decide +kernel

theorem test_DescriptorsAreFetchedRunAndCompleted_13 : (fun (d : Die) (e : Desc) (s : State) => (s.Runs d e 2) ∧ (fillFieldsOk e = true) ∧ (domainCheck d e.sq (e.num 8 8) .cpr s = (true, s)) ∧ (rangeStatus s (e.num 8 8) (e.num 24 4) true = 0)) .east (aDesc 2 0 (4096 + 2 ^ 64 * 0x0102030405060708 + 2 ^ 128 * 128)) (withDesc (aDesc 2 0 (4096 + 2 ^ 64 * 0x0102030405060708 + 2 ^ 128 * 128)) (withRegion 0)) := by
  decide +kernel

/-! ### LookupsAnswerTheVisibleResult -/

theorem test_LookupsAnswerTheVisibleResult_1 : (fun (d : Die) (e : Desc) (t0 : TblSt) (r : Nat × Nat × EmSlot) (s : State) => (s.Runs d e 0x10) ∧ (tableFor d e (fun t => t.type == 0) s = (.ok t0, s)) ∧ (e.zero 8 8 = true) ∧ (e.zero (16 + keyBytes t0) (48 - keyBytes t0) = true) ∧ ((emFind t0 (emVisible t0.parity) (fromLe ((e.slice 16 (keyBytes t0)).take t0.keyLen)) (Eng.start (lookupDie s t0 d) t0.region e.got)).1 = some r) ∧ ((emFind t0 (emVisible t0.parity) (fromLe ((e.slice 16 (keyBytes t0)).take t0.keyLen)) (Eng.start (lookupDie s t0 d) t0.region e.got)).2.whole = true) ∧ ((emFind t0 (emVisible t0.parity) (fromLe ((e.slice 16 (keyBytes t0)).take t0.keyLen)) (Eng.start (lookupDie s t0 d) t0.region e.got)).2.bad = none) ∧ ((emFind t0 (emVisible t0.parity) (fromLe ((e.slice 16 (keyBytes t0)).take t0.keyLen)) (Eng.start (lookupDie s t0 d) t0.region e.got)).2.mal = none)) .east ({ aDesc 0x10 5 (77 * 2 ^ 64) with got := bucketLines 1 }) aTable (((emBuckets aTable 77).1, 0, ⟨77, 9, 1⟩)) (withDesc ({ aDesc 0x10 5 (77 * 2 ^ 64) with got := bucketLines 1 }) (withTable (aTable) (withRegion 512))) := by
  decide +kernel

theorem test_LookupsAnswerTheVisibleResult_2 : (fun (d : Die) (e : Desc) (t0 : TblSt) (s : State) => (s.Runs d e 0x10) ∧ (tableFor d e (fun t => t.type == 0) s = (.ok t0, s)) ∧ (e.zero 8 8 = true) ∧ (e.zero (16 + keyBytes t0) (48 - keyBytes t0) = true) ∧ ((emFind t0 (emVisible t0.parity) (fromLe ((e.slice 16 (keyBytes t0)).take t0.keyLen)) (Eng.start (lookupDie s t0 d) t0.region e.got)).1 = none) ∧ ((emFind t0 (emVisible t0.parity) (fromLe ((e.slice 16 (keyBytes t0)).take t0.keyLen)) (Eng.start (lookupDie s t0 d) t0.region e.got)).2.whole = true) ∧ ((emFind t0 (emVisible t0.parity) (fromLe ((e.slice 16 (keyBytes t0)).take t0.keyLen)) (Eng.start (lookupDie s t0 d) t0.region e.got)).2.bad = none) ∧ ((emFind t0 (emVisible t0.parity) (fromLe ((e.slice 16 (keyBytes t0)).take t0.keyLen)) (Eng.start (lookupDie s t0 d) t0.region e.got)).2.mal = none)) .east ({ aDesc 0x10 5 (77 * 2 ^ 64) with got := bucketLines 3 }) aTable (withDesc ({ aDesc 0x10 5 (77 * 2 ^ 64) with got := bucketLines 3 }) (withTable (aTable) (withRegion 512))) := by
  decide +kernel

theorem test_LookupsAnswerTheVisibleResult_3 : (fun (d : Die) (e : Desc) (t0 : TblSt) (s : State) => (s.Runs d e 0x10) ∧ (tableFor d e (fun t => t.type == 0) s = (.ok t0, s)) ∧ (e.zero 8 8 = true) ∧ (e.zero (16 + keyBytes t0) (48 - keyBytes t0) = true) ∧ ((lookupKey t0 (e.slice 16 (keyBytes t0)) (Eng.start (lookupDie s t0 d) t0.region e.got)).2.whole = true) ∧ ((lookupKey t0 (e.slice 16 (keyBytes t0)) (Eng.start (lookupDie s t0 d) t0.region e.got)).1.poison = true)) .east ({ aDesc 0x10 5 (77 * 2 ^ 64) with got := bucketLines 7 }) aTable (withDesc ({ aDesc 0x10 5 (77 * 2 ^ 64) with got := bucketLines 7 }) (withTable (aTable) (withRegion 512))) := by
  decide +kernel

theorem test_LookupsAnswerTheVisibleResult_4 : (fun (d : Die) (e : Desc) (t0 : TblSt) (s : State) => (s.Runs d e 0x10) ∧ (tableFor d e (fun t => t.type == 0) s = (.ok t0, s)) ∧ (e.zero 8 8 = true) ∧ (e.zero (16 + keyBytes t0) (48 - keyBytes t0) = true) ∧ ((lookupKey t0 (e.slice 16 (keyBytes t0)) (Eng.start (lookupDie s t0 d) t0.region e.got)).2.whole = false)) .east ({ aDesc 0x10 5 (77 * 2 ^ 64) with got := [] }) aTable (withDesc ({ aDesc 0x10 5 (77 * 2 ^ 64) with got := [] }) (withTable (aTable) (withRegion 512))) := by
  decide +kernel

theorem test_LookupsAnswerTheVisibleResult_5 : (fun (d : Die) (e : Desc) (t0 : TblSt) (r : Nat) (s : State) => (s.Runs d e 0x12) ∧ (tableFor d e (fun t => t.type != 0) s = (.ok t0, s)) ∧ (e.zero 8 8 = true) ∧ (e.zero (16 + keyBytes t0) (48 - keyBytes t0) = true) ∧ ((lpmFind t0 t0.parity (e.slice 16 (keyBytes t0)) (Eng.start (lookupDie s t0 d) t0.region e.got)).1 = some r) ∧ ((lpmFind t0 t0.parity (e.slice 16 (keyBytes t0)) (Eng.start (lookupDie s t0 d) t0.region e.got)).2.whole = true) ∧ ((lpmFind t0 t0.parity (e.slice 16 (keyBytes t0)) (Eng.start (lookupDie s t0 d) t0.region e.got)).2.bad = none) ∧ ((lpmFind t0 t0.parity (e.slice 16 (keyBytes t0)) (Eng.start (lookupDie s t0 d) t0.region e.got)).2.mal = none)) .east ({ aDesc 0x12 5 ((10 + 256 + 65536 * 7) * 2 ^ 64) with got := [(0x0A01 / 4, ⟨BitVec.ofNat 512 ((33 + 2 ^ 63) * 2 ^ 128), false⟩)] }) ({ aTable with type := 1, keyLen := 0, log2nb := 0, size := 2 ^ 22 }) 33 (withDesc ({ aDesc 0x12 5 ((10 + 256 + 65536 * 7) * 2 ^ 64) with got := [(0x0A01 / 4, ⟨BitVec.ofNat 512 ((33 + 2 ^ 63) * 2 ^ 128), false⟩)] }) (withTable ({ aTable with type := 1, keyLen := 0, log2nb := 0, size := 2 ^ 22 }) (withRegion 512))) := by
  decide +kernel

theorem test_LookupsAnswerTheVisibleResult_6 : (fun (d : Die) (e : Desc) (t0 : TblSt) (s : State) => (s.Runs d e 0x12) ∧ (tableFor d e (fun t => t.type != 0) s = (.ok t0, s)) ∧ (e.zero 8 8 = true) ∧ (e.zero (16 + keyBytes t0) (48 - keyBytes t0) = true) ∧ ((lpmFind t0 t0.parity (e.slice 16 (keyBytes t0)) (Eng.start (lookupDie s t0 d) t0.region e.got)).1 = none) ∧ ((lpmFind t0 t0.parity (e.slice 16 (keyBytes t0)) (Eng.start (lookupDie s t0 d) t0.region e.got)).2.whole = true) ∧ ((lpmFind t0 t0.parity (e.slice 16 (keyBytes t0)) (Eng.start (lookupDie s t0 d) t0.region e.got)).2.bad = none) ∧ ((lpmFind t0 t0.parity (e.slice 16 (keyBytes t0)) (Eng.start (lookupDie s t0 d) t0.region e.got)).2.mal = none)) .east ({ aDesc 0x12 5 ((10 + 256 + 65536 * 7) * 2 ^ 64) with got := [(0x0A01 / 4, ⟨0, false⟩)] }) ({ aTable with type := 1, keyLen := 0, log2nb := 0, size := 2 ^ 22 }) (withDesc ({ aDesc 0x12 5 ((10 + 256 + 65536 * 7) * 2 ^ 64) with got := [(0x0A01 / 4, ⟨0, false⟩)] }) (withTable ({ aTable with type := 1, keyLen := 0, log2nb := 0, size := 2 ^ 22 }) (withRegion 512))) := by
  decide +kernel

theorem test_LookupsAnswerTheVisibleResult_7 : (fun (d : Die) (e : Desc) (t0 : TblSt) (s : State) => (s.Runs d e 0x12) ∧ (tableFor d e (fun t => t.type != 0) s = (.ok t0, s)) ∧ (e.zero 8 8 = true) ∧ (e.zero (16 + keyBytes t0) (48 - keyBytes t0) = true) ∧ ((lookupKey t0 (e.slice 16 (keyBytes t0)) (Eng.start (lookupDie s t0 d) t0.region e.got)).2.whole = true) ∧ ((lookupKey t0 (e.slice 16 (keyBytes t0)) (Eng.start (lookupDie s t0 d) t0.region e.got)).1.poison = true)) .east ({ aDesc 0x12 5 ((10 + 256 + 65536 * 7) * 2 ^ 64) with got := [(0x0A01 / 4, ⟨0, true⟩)] }) ({ aTable with type := 1, keyLen := 0, log2nb := 0, size := 2 ^ 22 }) (withDesc ({ aDesc 0x12 5 ((10 + 256 + 65536 * 7) * 2 ^ 64) with got := [(0x0A01 / 4, ⟨0, true⟩)] }) (withTable ({ aTable with type := 1, keyLen := 0, log2nb := 0, size := 2 ^ 22 }) (withRegion 512))) := by
  decide +kernel

theorem test_LookupsAnswerTheVisibleResult_8 : (fun (d : Die) (e : Desc) (t0 : TblSt) (s : State) => (s.Runs d e 0x12) ∧ (tableFor d e (fun t => t.type != 0) s = (.ok t0, s)) ∧ (e.zero 8 8 = true) ∧ (e.zero (16 + keyBytes t0) (48 - keyBytes t0) = true) ∧ ((lookupKey t0 (e.slice 16 (keyBytes t0)) (Eng.start (lookupDie s t0 d) t0.region e.got)).2.whole = false)) .east ({ aDesc 0x12 5 ((10 + 256 + 65536 * 7) * 2 ^ 64) with got := [] }) ({ aTable with type := 1, keyLen := 0, log2nb := 0, size := 2 ^ 22 }) (withDesc ({ aDesc 0x12 5 ((10 + 256 + 65536 * 7) * 2 ^ 64) with got := [] }) (withTable ({ aTable with type := 1, keyLen := 0, log2nb := 0, size := 2 ^ 22 }) (withRegion 512))) := by
  decide +kernel

theorem test_LookupsAnswerTheVisibleResult_9 : (fun (d : Die) (e : Desc) (t0 : TblSt) (host : List LineData) (hs : List Hit) (s : State) => (s.Runs d e 0x11) ∧ (tableFor d e (fun t => t.type == 0) s = (.ok t0, s)) ∧ (e.begun = true) ∧ (e.num 9 1 = 0) ∧ (0 < e.num 8 1) ∧ (e.num 8 1 ≤ 16) ∧ ((batchHits t0 ((List.range (e.num 8 1)).map (fun i => ((arrayPart e ⟨false, e.num 16 8⟩ host (batchStride t0 * i) (batchStride t0)).1.take (keyBytes t0), (arrayPart e ⟨false, e.num 16 8⟩ host (batchStride t0 * i) (batchStride t0)).2))) none (Eng.start (lookupDie s t0 d) t0.region e.got)).1 = hs) ∧ ((batchHits t0 ((List.range (e.num 8 1)).map (fun i => ((arrayPart e ⟨false, e.num 16 8⟩ host (batchStride t0 * i) (batchStride t0)).1.take (keyBytes t0), (arrayPart e ⟨false, e.num 16 8⟩ host (batchStride t0 * i) (batchStride t0)).2))) none (Eng.start (lookupDie s t0 d) t0.region e.got)).2.2.whole = true) ∧ (portAlive s d = true)) .east ({ aDesc 0x11 5 (2 + 4096 * 2 ^ 64 + 8192 * 2 ^ 128) with got := bucketLines 1 }) aTable ([⟨77 + 77 * 2 ^ 64, false⟩]) ([⟨9, true, false⟩, ⟨9, true, false⟩]) (withDesc ({ aDesc 0x11 5 (2 + 4096 * 2 ^ 64 + 8192 * 2 ^ 128) with got := bucketLines 1 }) (portUp0 (withTable aTable (withRegion 512)))) := by
  decide +kernel

theorem test_LookupsAnswerTheVisibleResult_10 : (fun (d : Die) (e : Desc) (t0 : TblSt) (host : List LineData) (hs : List Hit) (s : State) => (s.Runs d e 0x13) ∧ (tableFor d e (fun t => t.type != 0) s = (.ok t0, s)) ∧ (e.begun = true) ∧ (e.num 9 1 = 0) ∧ (0 < e.num 8 1) ∧ (e.num 8 1 ≤ 16) ∧ ((batchHits t0 ((List.range (e.num 8 1)).map (fun i => ((arrayPart e ⟨false, e.num 16 8⟩ host (batchStride t0 * i) (batchStride t0)).1.take (keyBytes t0), (arrayPart e ⟨false, e.num 16 8⟩ host (batchStride t0 * i) (batchStride t0)).2))) none (Eng.start (lookupDie s t0 d) t0.region e.got)).1 = hs) ∧ ((batchHits t0 ((List.range (e.num 8 1)).map (fun i => ((arrayPart e ⟨false, e.num 16 8⟩ host (batchStride t0 * i) (batchStride t0)).1.take (keyBytes t0), (arrayPart e ⟨false, e.num 16 8⟩ host (batchStride t0 * i) (batchStride t0)).2))) none (Eng.start (lookupDie s t0 d) t0.region e.got)).2.2.whole = true) ∧ (portAlive s d = true)) .east ({ aDesc 0x13 5 (2 + 4096 * 2 ^ 64 + 8192 * 2 ^ 128) with got := [(0x0A01 / 4, ⟨BitVec.ofNat 512 ((33 + 2 ^ 63) * 2 ^ 128), false⟩)] }) ({ aTable with type := 1, keyLen := 0, log2nb := 0, size := 2 ^ 22 }) ([⟨10 + 256 + (10 + 256) * 2 ^ 32, true⟩]) ([⟨0, false, true⟩, ⟨0, false, true⟩]) (withDesc ({ aDesc 0x13 5 (2 + 4096 * 2 ^ 64 + 8192 * 2 ^ 128) with got := [(0x0A01 / 4, ⟨BitVec.ofNat 512 ((33 + 2 ^ 63) * 2 ^ 128), false⟩)] }) (portUp0 (withTable ({ aTable with type := 1, keyLen := 0, log2nb := 0, size := 2 ^ 22 }) (withRegion 512)))) := by
  decide +kernel

/-! ### TablesAreMadeChangedAndPublished -/

theorem test_TablesAreMadeChangedAndPublished_1 : (fun (d : Die) (e : Desc) (t0 : TblSt) (s : State) => (s.Runs d e 0x18) ∧ (tableFor d e (fun t => t.type == 0) s = (.ok t0, s)) ∧ (e.num 8 1 ≤ 2) ∧ (e.zero 10 2 = true) ∧ (e.num 15 1 = 0) ∧ (e.zero (16 + t0.keyLen) (48 - t0.keyLen) = true) ∧ (e.num 9 1 = 0) ∧ (tableTurn s d e false = true) ∧ (t0.cleanup = false) ∧ (e.phase ≠ 3) ∧ ((emChange t0 (maxDepth s (tblHome s t0)) (e.num 8 1) (e.num 16 t0.keyLen) (e.num 12 3) (Eng.start (tblHome s t0) t0.region e.got)).2.whole = true) ∧ ((emChange t0 (maxDepth s (tblHome s t0)) (e.num 8 1) (e.num 16 t0.keyLen) (e.num 12 3) (Eng.start (tblHome s t0) t0.region e.got)).2.bad = none) ∧ ((emChange t0 (maxDepth s (tblHome s t0)) (e.num 8 1) (e.num 16 t0.keyLen) (e.num 12 3) (Eng.start (tblHome s t0) t0.region e.got)).2.mal = none) ∧ ((emChange t0 (maxDepth s (tblHome s t0)) (e.num 8 1) (e.num 16 t0.keyLen) (e.num 12 3) (Eng.start (tblHome s t0) t0.region e.got)).1.status = 0) ∧ ((emChange t0 (maxDepth s (tblHome s t0)) (e.num 8 1) (e.num 16 t0.keyLen) (e.num 12 3) (Eng.start (tblHome s t0) t0.region e.got)).1.moves = 0) ∧ (logUsed s (tblHome s t0) - t0.log.entries + (logLines t0 (emChange t0 (maxDepth s (tblHome s t0)) (e.num 8 1) (e.num 16 t0.keyLen) (e.num 12 3) (Eng.start (tblHome s t0) t0.region e.got)).2 (emChange t0 (maxDepth s (tblHome s t0)) (e.num 8 1) (e.num 16 t0.keyLen) (e.num 12 3) (Eng.start (tblHome s t0) t0.region e.got)).1.log).entries ≤ 32768)) .east ({ aDesc 0x18 5 (1 + 55 * 2 ^ 32 + 77 * 2 ^ 64) with got := bucketLines 1 }) aTable (withDesc ({ aDesc 0x18 5 (1 + 55 * 2 ^ 32 + 77 * 2 ^ 64) with got := bucketLines 1 }) (withTable (aTable) (withRegion 512))) := by
  decide +kernel

theorem test_TablesAreMadeChangedAndPublished_2 : (fun (d : Die) (e : Desc) (t0 : TblSt) (s : State) => (s.Runs d e 0x18) ∧ (tableFor d e (fun t => t.type == 0) s = (.ok t0, s)) ∧ (e.num 8 1 ≤ 2) ∧ (e.zero 10 2 = true) ∧ (e.num 15 1 = 0) ∧ (e.zero (16 + t0.keyLen) (48 - t0.keyLen) = true) ∧ (e.num 9 1 = 1) ∧ (tableTurn s d e true = true) ∧ (t0.cleanup = false) ∧ (e.phase ≠ 3) ∧ ((emChange t0 (maxDepth s (tblHome s t0)) (e.num 8 1) (e.num 16 t0.keyLen) (e.num 12 3) (Eng.start (tblHome s t0) t0.region e.got)).2.whole = true) ∧ ((emChange t0 (maxDepth s (tblHome s t0)) (e.num 8 1) (e.num 16 t0.keyLen) (e.num 12 3) (Eng.start (tblHome s t0) t0.region e.got)).2.bad = none) ∧ ((emChange t0 (maxDepth s (tblHome s t0)) (e.num 8 1) (e.num 16 t0.keyLen) (e.num 12 3) (Eng.start (tblHome s t0) t0.region e.got)).2.mal = none) ∧ ((emChange t0 (maxDepth s (tblHome s t0)) (e.num 8 1) (e.num 16 t0.keyLen) (e.num 12 3) (Eng.start (tblHome s t0) t0.region e.got)).1.status = 0) ∧ ((emChange t0 (maxDepth s (tblHome s t0)) (e.num 8 1) (e.num 16 t0.keyLen) (e.num 12 3) (Eng.start (tblHome s t0) t0.region e.got)).1.moves = 0) ∧ (logUsed s (tblHome s t0) - t0.log.entries + (logLines t0 (emChange t0 (maxDepth s (tblHome s t0)) (e.num 8 1) (e.num 16 t0.keyLen) (e.num 12 3) (Eng.start (tblHome s t0) t0.region e.got)).2 (emChange t0 (maxDepth s (tblHome s t0)) (e.num 8 1) (e.num 16 t0.keyLen) (e.num 12 3) (Eng.start (tblHome s t0) t0.region e.got)).1.log).entries ≤ 32768)) .east ({ aDesc 0x18 5 (2 + 256 + 77 * 2 ^ 64) with got := bucketLines 1 }) aTable (withDesc ({ aDesc 0x18 5 (2 + 256 + 77 * 2 ^ 64) with got := bucketLines 1 }) (withTable (aTable) (withRegion 512))) := by
  decide +kernel

theorem test_TablesAreMadeChangedAndPublished_3 : (fun (d : Die) (e : Desc) (t0 : TblSt) (s : State) => (s.Runs d e 0x18) ∧ (tableFor d e (fun t => t.type == 0) s = (.ok t0, s)) ∧ (e.num 8 1 ≤ 2) ∧ (e.zero 10 2 = true) ∧ (e.num 15 1 = 0) ∧ (e.zero (16 + t0.keyLen) (48 - t0.keyLen) = true) ∧ (e.num 9 1 = 0) ∧ (tableTurn s d e false = true) ∧ (t0.cleanup = false) ∧ (e.phase ≠ 3) ∧ ((emChange t0 (maxDepth s (tblHome s t0)) (e.num 8 1) (e.num 16 t0.keyLen) (e.num 12 3) (Eng.start (tblHome s t0) t0.region e.got)).2.whole = true) ∧ ((emChange t0 (maxDepth s (tblHome s t0)) (e.num 8 1) (e.num 16 t0.keyLen) (e.num 12 3) (Eng.start (tblHome s t0) t0.region e.got)).2.bad = none) ∧ ((emChange t0 (maxDepth s (tblHome s t0)) (e.num 8 1) (e.num 16 t0.keyLen) (e.num 12 3) (Eng.start (tblHome s t0) t0.region e.got)).2.mal = none) ∧ ((emChange t0 (maxDepth s (tblHome s t0)) (e.num 8 1) (e.num 16 t0.keyLen) (e.num 12 3) (Eng.start (tblHome s t0) t0.region e.got)).1.status = 0) ∧ ((emChange t0 (maxDepth s (tblHome s t0)) (e.num 8 1) (e.num 16 t0.keyLen) (e.num 12 3) (Eng.start (tblHome s t0) t0.region e.got)).1.moves ≠ 0) ∧ (logUsed s (tblHome s t0) - t0.log.entries + (logLines t0 (emChange t0 (maxDepth s (tblHome s t0)) (e.num 8 1) (e.num 16 t0.keyLen) (e.num 12 3) (Eng.start (tblHome s t0) t0.region e.got)).2 (emChange t0 (maxDepth s (tblHome s t0)) (e.num 8 1) (e.num 16 t0.keyLen) (e.num 12 3) (Eng.start (tblHome s t0) t0.region e.got)).1.log).entries ≤ 32768)) .east ({ aDesc 0x18 5 (55 * 2 ^ 32 + 99 * 2 ^ 64) with got := (nset (nset (List.map (fun q => (q.1, (⟨0, false⟩ : LineData))) (bucketLines 0)) (emBuckets aTable 99).1 ⟨setSlot (setSlot (setSlot (setSlot 0 0 ⟨77, 9, 1⟩) 1 ⟨78, 9, 1⟩) 2 ⟨79, 9, 1⟩) 3 ⟨80, 9, 1⟩, false⟩) (emBuckets aTable 99).2 ⟨setSlot (setSlot (setSlot (setSlot 0 0 ⟨81, 9, 1⟩) 1 ⟨82, 9, 1⟩) 2 ⟨83, 9, 1⟩) 3 ⟨84, 9, 1⟩, false⟩) }) aTable (withDesc ({ aDesc 0x18 5 (55 * 2 ^ 32 + 99 * 2 ^ 64) with got := (nset (nset (List.map (fun q => (q.1, (⟨0, false⟩ : LineData))) (bucketLines 0)) (emBuckets aTable 99).1 ⟨setSlot (setSlot (setSlot (setSlot 0 0 ⟨77, 9, 1⟩) 1 ⟨78, 9, 1⟩) 2 ⟨79, 9, 1⟩) 3 ⟨80, 9, 1⟩, false⟩) (emBuckets aTable 99).2 ⟨setSlot (setSlot (setSlot (setSlot 0 0 ⟨81, 9, 1⟩) 1 ⟨82, 9, 1⟩) 2 ⟨83, 9, 1⟩) 3 ⟨84, 9, 1⟩, false⟩) }) (withTable (aTable) (withRegion 512))) := by
  decide +kernel

theorem test_TablesAreMadeChangedAndPublished_4 : (fun (d : Die) (e : Desc) (t0 : TblSt) (s : State) => (s.Runs d e 0x19) ∧ (tableFor d e (fun t => t.type != 0) s = (.ok t0, s)) ∧ (e.num 8 1 = 1 ∨ e.num 8 1 = 2) ∧ (e.num 11 1 = 0) ∧ (e.zero 32 32 = true) ∧ (prefixOk t0 (e.slice 16 16) (e.num 10 1) = true) ∧ (e.num 9 1 = 0) ∧ (tableTurn s d e false = true) ∧ (t0.cleanup = false) ∧ (e.phase ≠ 3) ∧ ((lpmChange t0 (e.slice 16 16) (e.num 10 1) (if e.num 8 1 = 1 then some (e.num 12 4) else none) (Eng.start (tblHome s t0) t0.region e.got)).2.whole = true) ∧ ((lpmChange t0 (e.slice 16 16) (e.num 10 1) (if e.num 8 1 = 1 then some (e.num 12 4) else none) (Eng.start (tblHome s t0) t0.region e.got)).2.bad = none) ∧ ((lpmChange t0 (e.slice 16 16) (e.num 10 1) (if e.num 8 1 = 1 then some (e.num 12 4) else none) (Eng.start (tblHome s t0) t0.region e.got)).2.mal = none) ∧ ((lpmChange t0 (e.slice 16 16) (e.num 10 1) (if e.num 8 1 = 1 then some (e.num 12 4) else none) (Eng.start (tblHome s t0) t0.region e.got)).1.status = 0) ∧ ((lpmChange t0 (e.slice 16 16) (e.num 10 1) (if e.num 8 1 = 1 then some (e.num 12 4) else none) (Eng.start (tblHome s t0) t0.region e.got)).1.moves = 0) ∧ (logUsed s (tblHome s t0) - t0.log.entries + (logLines t0 (lpmChange t0 (e.slice 16 16) (e.num 10 1) (if e.num 8 1 = 1 then some (e.num 12 4) else none) (Eng.start (tblHome s t0) t0.region e.got)).2 (lpmChange t0 (e.slice 16 16) (e.num 10 1) (if e.num 8 1 = 1 then some (e.num 12 4) else none) (Eng.start (tblHome s t0) t0.region e.got)).1.log).entries ≤ 32768)) .east ({ aDesc 0x19 5 (1 + 16 * 2 ^ 16 + 55 * 2 ^ 32 + (10 + 256) * 2 ^ 64) with got := [(0x0A01 / 4, ⟨BitVec.ofNat 512 ((33 + 2 ^ 63) * 2 ^ 128), false⟩), ((0x100000 + 8 * (65535 + 0x0A01)) / 64, ⟨0, false⟩)] ++ (List.range 17).map (fun l => ((0x100000 + 8 * (2 ^ (16 - l) - 1 + 0x0A01 / 2 ^ l)) / 64, ⟨0, false⟩)) }) ({ aTable with type := 1, keyLen := 0, log2nb := 0, size := 2 ^ 22 }) (withDesc ({ aDesc 0x19 5 (1 + 16 * 2 ^ 16 + 55 * 2 ^ 32 + (10 + 256) * 2 ^ 64) with got := [(0x0A01 / 4, ⟨BitVec.ofNat 512 ((33 + 2 ^ 63) * 2 ^ 128), false⟩), ((0x100000 + 8 * (65535 + 0x0A01)) / 64, ⟨0, false⟩)] ++ (List.range 17).map (fun l => ((0x100000 + 8 * (2 ^ (16 - l) - 1 + 0x0A01 / 2 ^ l)) / 64, ⟨0, false⟩)) }) (withTable ({ aTable with type := 1, keyLen := 0, log2nb := 0, size := 2 ^ 22 }) (withRegion 512))) := by
  decide +kernel

theorem test_TablesAreMadeChangedAndPublished_5 : (fun (d : Die) (e : Desc) (t0 : TblSt) (s : State) => (s.Runs d e 0x19) ∧ (tableFor d e (fun t => t.type != 0) s = (.ok t0, s)) ∧ (e.num 8 1 = 1 ∨ e.num 8 1 = 2) ∧ (e.num 11 1 = 0) ∧ (e.zero 32 32 = true) ∧ (prefixOk t0 (e.slice 16 16) (e.num 10 1) = true) ∧ (e.num 9 1 = 1) ∧ (tableTurn s d e true = true) ∧ (t0.cleanup = false) ∧ (e.phase ≠ 3) ∧ ((lpmChange t0 (e.slice 16 16) (e.num 10 1) (if e.num 8 1 = 1 then some (e.num 12 4) else none) (Eng.start (tblHome s t0) t0.region e.got)).2.whole = true) ∧ ((lpmChange t0 (e.slice 16 16) (e.num 10 1) (if e.num 8 1 = 1 then some (e.num 12 4) else none) (Eng.start (tblHome s t0) t0.region e.got)).2.bad = none) ∧ ((lpmChange t0 (e.slice 16 16) (e.num 10 1) (if e.num 8 1 = 1 then some (e.num 12 4) else none) (Eng.start (tblHome s t0) t0.region e.got)).2.mal = none) ∧ ((lpmChange t0 (e.slice 16 16) (e.num 10 1) (if e.num 8 1 = 1 then some (e.num 12 4) else none) (Eng.start (tblHome s t0) t0.region e.got)).1.status = 0) ∧ ((lpmChange t0 (e.slice 16 16) (e.num 10 1) (if e.num 8 1 = 1 then some (e.num 12 4) else none) (Eng.start (tblHome s t0) t0.region e.got)).1.moves = 0) ∧ (logUsed s (tblHome s t0) - t0.log.entries + (logLines t0 (lpmChange t0 (e.slice 16 16) (e.num 10 1) (if e.num 8 1 = 1 then some (e.num 12 4) else none) (Eng.start (tblHome s t0) t0.region e.got)).2 (lpmChange t0 (e.slice 16 16) (e.num 10 1) (if e.num 8 1 = 1 then some (e.num 12 4) else none) (Eng.start (tblHome s t0) t0.region e.got)).1.log).entries ≤ 32768)) .east ({ aDesc 0x19 5 (1 + 256 + 16 * 2 ^ 16 + 55 * 2 ^ 32 + (10 + 256) * 2 ^ 64) with got := [(0x0A01 / 4, ⟨BitVec.ofNat 512 ((33 + 2 ^ 63) * 2 ^ 128), false⟩), ((0x100000 + 8 * (65535 + 0x0A01)) / 64, ⟨0, false⟩)] ++ (List.range 17).map (fun l => ((0x100000 + 8 * (2 ^ (16 - l) - 1 + 0x0A01 / 2 ^ l)) / 64, ⟨0, false⟩)) }) ({ aTable with type := 1, keyLen := 0, log2nb := 0, size := 2 ^ 22 }) (withDesc ({ aDesc 0x19 5 (1 + 256 + 16 * 2 ^ 16 + 55 * 2 ^ 32 + (10 + 256) * 2 ^ 64) with got := [(0x0A01 / 4, ⟨BitVec.ofNat 512 ((33 + 2 ^ 63) * 2 ^ 128), false⟩), ((0x100000 + 8 * (65535 + 0x0A01)) / 64, ⟨0, false⟩)] ++ (List.range 17).map (fun l => ((0x100000 + 8 * (2 ^ (16 - l) - 1 + 0x0A01 / 2 ^ l)) / 64, ⟨0, false⟩)) }) (withTable ({ aTable with type := 1, keyLen := 0, log2nb := 0, size := 2 ^ 22 }) (withRegion 512))) := by
  decide +kernel

theorem test_TablesAreMadeChangedAndPublished_6 : (fun (d : Die) (e : Desc) (t0 : TblSt) (s : State) => (s.Runs d e 0x18) ∧ (tableFor d e (fun t => t.type == 0) s = (.ok t0, s)) ∧ (e.num 8 1 ≤ 2) ∧ (e.zero 10 2 = true) ∧ (e.num 15 1 = 0) ∧ (e.zero (16 + t0.keyLen) (48 - t0.keyLen) = true) ∧ (e.num 9 1 ≤ 1) ∧ (tableTurn s d e (e.num 9 1 == 1) = true) ∧ (t0.cleanup = false) ∧ (e.phase ≠ 3) ∧ ((emChange t0 (maxDepth s (tblHome s t0)) (e.num 8 1) (e.num 16 t0.keyLen) (e.num 12 3) (Eng.start (tblHome s t0) t0.region e.got)).2.whole = true) ∧ ((emChange t0 (maxDepth s (tblHome s t0)) (e.num 8 1) (e.num 16 t0.keyLen) (e.num 12 3) (Eng.start (tblHome s t0) t0.region e.got)).2.bad = none) ∧ ((emChange t0 (maxDepth s (tblHome s t0)) (e.num 8 1) (e.num 16 t0.keyLen) (e.num 12 3) (Eng.start (tblHome s t0) t0.region e.got)).2.mal = none) ∧ ((emChange t0 (maxDepth s (tblHome s t0)) (e.num 8 1) (e.num 16 t0.keyLen) (e.num 12 3) (Eng.start (tblHome s t0) t0.region e.got)).1.status ≠ 0)) .east ({ aDesc 0x18 5 (0 + 55 * 2 ^ 32 + 77 * 2 ^ 64) with got := bucketLines 1 }) aTable (withDesc ({ aDesc 0x18 5 (0 + 55 * 2 ^ 32 + 77 * 2 ^ 64) with got := bucketLines 1 }) (withTable (aTable) (withRegion 512))) := by
  decide +kernel

theorem test_TablesAreMadeChangedAndPublished_7 : (fun (d : Die) (e : Desc) (t0 : TblSt) (s : State) => (s.Runs d e 0x19) ∧ (tableFor d e (fun t => t.type != 0) s = (.ok t0, s)) ∧ (e.num 8 1 = 1 ∨ e.num 8 1 = 2) ∧ (e.num 11 1 = 0) ∧ (e.zero 32 32 = true) ∧ (prefixOk t0 (e.slice 16 16) (e.num 10 1) = true) ∧ (e.num 9 1 ≤ 1) ∧ (tableTurn s d e (e.num 9 1 == 1) = true) ∧ (t0.cleanup = false) ∧ (e.phase ≠ 3) ∧ ((lpmChange t0 (e.slice 16 16) (e.num 10 1) (if e.num 8 1 = 1 then some (e.num 12 4) else none) (Eng.start (tblHome s t0) t0.region e.got)).2.whole = true) ∧ ((lpmChange t0 (e.slice 16 16) (e.num 10 1) (if e.num 8 1 = 1 then some (e.num 12 4) else none) (Eng.start (tblHome s t0) t0.region e.got)).2.bad = none) ∧ ((lpmChange t0 (e.slice 16 16) (e.num 10 1) (if e.num 8 1 = 1 then some (e.num 12 4) else none) (Eng.start (tblHome s t0) t0.region e.got)).2.mal = none) ∧ ((lpmChange t0 (e.slice 16 16) (e.num 10 1) (if e.num 8 1 = 1 then some (e.num 12 4) else none) (Eng.start (tblHome s t0) t0.region e.got)).1.status ≠ 0)) .east ({ aDesc 0x19 5 (2 + 16 * 2 ^ 16 + (10 + 256) * 2 ^ 64) with got := [(0x0A01 / 4, ⟨BitVec.ofNat 512 ((33 + 2 ^ 63) * 2 ^ 128), false⟩), ((0x100000 + 8 * (65535 + 0x0A01)) / 64, ⟨0, false⟩)] ++ (List.range 17).map (fun l => ((0x100000 + 8 * (2 ^ (16 - l) - 1 + 0x0A01 / 2 ^ l)) / 64, ⟨0, false⟩)) }) ({ aTable with type := 1, keyLen := 0, log2nb := 0, size := 2 ^ 22 }) (withDesc ({ aDesc 0x19 5 (2 + 16 * 2 ^ 16 + (10 + 256) * 2 ^ 64) with got := [(0x0A01 / 4, ⟨BitVec.ofNat 512 ((33 + 2 ^ 63) * 2 ^ 128), false⟩), ((0x100000 + 8 * (65535 + 0x0A01)) / 64, ⟨0, false⟩)] ++ (List.range 17).map (fun l => ((0x100000 + 8 * (2 ^ (16 - l) - 1 + 0x0A01 / 2 ^ l)) / 64, ⟨0, false⟩)) }) (withTable ({ aTable with type := 1, keyLen := 0, log2nb := 0, size := 2 ^ 22 }) (withRegion 512))) := by
  decide +kernel

theorem test_TablesAreMadeChangedAndPublished_8 : (fun (d : Die) (e : Desc) (t0 : TblSt) (s : State) => (s.Runs d e 0x18) ∧ (tableFor d e (fun t => t.type == 0) s = (.ok t0, s)) ∧ (e.num 8 1 ≤ 2) ∧ (e.zero 10 2 = true) ∧ (e.num 15 1 = 0) ∧ (e.zero (16 + t0.keyLen) (48 - t0.keyLen) = true) ∧ (e.num 9 1 ≤ 1) ∧ (tableTurn s d e (e.num 9 1 == 1) = true) ∧ (t0.cleanup = false) ∧ (e.phase ≠ 3) ∧ ((emChange t0 (maxDepth s (tblHome s t0)) (e.num 8 1) (e.num 16 t0.keyLen) (e.num 12 3) (Eng.start (tblHome s t0) t0.region e.got)).2.whole = false)) .east ({ aDesc 0x18 5 (1 + 55 * 2 ^ 32 + 77 * 2 ^ 64) with got := [] }) aTable (withDesc ({ aDesc 0x18 5 (1 + 55 * 2 ^ 32 + 77 * 2 ^ 64) with got := [] }) (withTable (aTable) (withRegion 512))) := by
  decide +kernel

theorem test_TablesAreMadeChangedAndPublished_9 : (fun (d : Die) (e : Desc) (t0 : TblSt) (s : State) => (s.Runs d e 0x19) ∧ (tableFor d e (fun t => t.type != 0) s = (.ok t0, s)) ∧ (e.num 8 1 = 1 ∨ e.num 8 1 = 2) ∧ (e.num 11 1 = 0) ∧ (e.zero 32 32 = true) ∧ (prefixOk t0 (e.slice 16 16) (e.num 10 1) = true) ∧ (e.num 9 1 ≤ 1) ∧ (tableTurn s d e (e.num 9 1 == 1) = true) ∧ (t0.cleanup = false) ∧ (e.phase ≠ 3) ∧ ((lpmChange t0 (e.slice 16 16) (e.num 10 1) (if e.num 8 1 = 1 then some (e.num 12 4) else none) (Eng.start (tblHome s t0) t0.region e.got)).2.whole = false)) .east ({ aDesc 0x19 5 (1 + 16 * 2 ^ 16 + 55 * 2 ^ 32 + (10 + 256) * 2 ^ 64) with got := [] }) ({ aTable with type := 1, keyLen := 0, log2nb := 0, size := 2 ^ 22 }) (withDesc ({ aDesc 0x19 5 (1 + 16 * 2 ^ 16 + 55 * 2 ^ 32 + (10 + 256) * 2 ^ 64) with got := [] }) (withTable ({ aTable with type := 1, keyLen := 0, log2nb := 0, size := 2 ^ 22 }) (withRegion 512))) := by
  decide +kernel

theorem test_TablesAreMadeChangedAndPublished_10 : (fun (d : Die) (e : Desc) (n : Nat) (seeds : List Nat) (s : State) => (s.Runs d e 0x20) ∧ (e.phase = 0) ∧ (domainCheck d e.sq (e.num 16 8) .lke s = (true, s)) ∧ (createCheck s e = none) ∧ (regionOf s (e.num 16 8) = some n) ∧ ((newSeeds e (atHome (rgAttr s n)) s).1 = some seeds)) .east (aDesc 0x20 6 (4 * 2 ^ 8 + 8 * 2 ^ 16 + 2 * 2 ^ 24 + 2 ^ 21 * 2 ^ 64 + 2 ^ 21 * 2 ^ 128 + 5 * 2 ^ 192)) 0 ([5, 0, 0]) (withDesc (aDesc 0x20 6 (4 * 2 ^ 8 + 8 * 2 ^ 16 + 2 * 2 ^ 24 + 2 ^ 21 * 2 ^ 64 + 2 ^ 21 * 2 ^ 128 + 5 * 2 ^ 192)) (withTable aTable (withRegion 512))) := by
  decide +kernel

theorem test_TablesAreMadeChangedAndPublished_11 : (fun (d : Die) (e : Desc) (t0 : TblSt) (k : Nat) (s : State) => (s.Idle) ∧ (tblOf s k = some t0) ∧ (t0.maker = some (d, e.sq, e.seq)) ∧ (startedDesc s d e.sq e.seq = some e) ∧ (e.left = 0) ∧ (e.quiet = false) ∧ (rfb s F.CPR_SQ_CTRL.ERROR d e.sq = false) ∧ (rfb s F.CPR_CQ_CTRL.EN d (sqCq s d e.sq) = true) ∧ (rfb s F.CPR_CQ_CTRL.ERROR d (sqCq s d e.sq) = false)) .east ({ aDesc 0x20 5 0 with phase := 1 }) ({ aTable with valid := false, maker := some (.east, 0, 0) }) 5 (withDesc { aDesc 0x20 5 0 with phase := 1 } (withTable { aTable with valid := false, maker := some (.east, 0, 0) } (withRegion 512))) := by
  decide +kernel

theorem test_TablesAreMadeChangedAndPublished_12 : (fun (d : Die) (e : Desc) (t0 : TblSt) (s : State) => (s.Runs d e 0x22) ∧ (tableCheck d e (fun _ => true) s = (.ok t0, s)) ∧ (e.zero 8 56 = true) ∧ (t0.cleanup = false) ∧ (tableTurn s d e true = true)) .east ({ aDesc 0x22 5 (0) with got := [] }) aTable (withDesc ({ aDesc 0x22 5 (0) with got := [] }) (withTable (aTable) (withRegion 512))) := by
  decide +kernel

theorem test_TablesAreMadeChangedAndPublished_13 : (fun (k id : Nat) (t0 : TblSt) (w : EngWork) (s s1 : State) => (s.Idle) ∧ (tblOf s k = some t0) ∧ (t0.cleanup = true) ∧ (oldLookups s k t0 = false) ∧ (s.dev.mode ≠ .hold) ∧ (takeWork (tblHome s t0) (.cleanup k) s = ((id, w), s1)) ∧ (w.left = 0) ∧ (w.written = false) ∧ ((settleStage t0 (Eng.start (tblHome s t0) t0.region w.got)).whole = true) ∧ ((settleStage t0 (Eng.start (tblHome s t0) t0.region w.got)).bad = none) ∧ ((settleStage t0 (Eng.start (tblHome s t0) t0.region w.got)).mal = none) ∧ ((settleStage t0 (Eng.start (tblHome s t0) t0.region w.got)).put = [])) 5 1 ({ aTable with cleanup := true, log := StageLog.empty }) (⟨.cleanup 5, 0, [], false⟩) (withTable { aTable with cleanup := true, log := StageLog.empty } (withRegion 512)) ((takeWork .east (.cleanup 5) (withTable { aTable with cleanup := true, log := StageLog.empty } (withRegion 512))).2) := by
  decide +kernel

theorem test_TablesAreMadeChangedAndPublished_14 : (fun (k id : Nat) (t0 : TblSt) (w : EngWork) (s s1 : State) => (s.Idle) ∧ (tblOf s k = some t0) ∧ (t0.cleanup = true) ∧ (oldLookups s k t0 = false) ∧ (s.dev.mode ≠ .hold) ∧ (takeWork (tblHome s t0) (.cleanup k) s = ((id, w), s1)) ∧ (w.left = 0) ∧ (w.written = true)) 5 1 ({ aTable with cleanup := true, log := ⟨[3], [], [], [], []⟩ }) (⟨.cleanup 5, 0, [], true⟩) (onDie .east (fun x => { x with work := [(1, ⟨.cleanup 5, 0, [], true⟩)] }) (withTable { aTable with cleanup := true, log := ⟨[3], [], [], [], []⟩ } (withRegion 512))) ((takeWork .east (.cleanup 5) (onDie .east (fun x => { x with work := [(1, ⟨.cleanup 5, 0, [], true⟩)] }) (withTable { aTable with cleanup := true, log := ⟨[3], [], [], [], []⟩ } (withRegion 512)))).2) := by
  decide +kernel

theorem test_TablesAreMadeChangedAndPublished_15 : (fun (k id : Nat) (t0 : TblSt) (w : EngWork) (s s1 : State) => (s.Idle) ∧ (tblOf s k = some t0) ∧ (t0.cleanup = true) ∧ (oldLookups s k t0 = false) ∧ (s.dev.mode ≠ .hold) ∧ (takeWork (tblHome s t0) (.cleanup k) s = ((id, w), s1)) ∧ (w.left = 0) ∧ (w.written = false) ∧ ((settleStage t0 (Eng.start (tblHome s t0) t0.region w.got)).whole = true) ∧ ((settleStage t0 (Eng.start (tblHome s t0) t0.region w.got)).bad = none) ∧ ((settleStage t0 (Eng.start (tblHome s t0) t0.region w.got)).mal = none) ∧ ((settleStage t0 (Eng.start (tblHome s t0) t0.region w.got)).put ≠ [])) 5 1 ({ aTable with cleanup := true, log := ⟨[3], [], [], [], []⟩ }) (⟨.cleanup 5, 0, [(3, ⟨setSlot 0 0 ⟨77, 9, 2⟩, false⟩)], false⟩) (onDie .east (fun x => { x with work := [(1, ⟨.cleanup 5, 0, [(3, ⟨setSlot 0 0 ⟨77, 9, 2⟩, false⟩)], false⟩)] }) (withTable { aTable with cleanup := true, log := ⟨[3], [], [], [], []⟩ } (withRegion 512))) ((takeWork .east (.cleanup 5) (onDie .east (fun x => { x with work := [(1, ⟨.cleanup 5, 0, [(3, ⟨setSlot 0 0 ⟨77, 9, 2⟩, false⟩)], false⟩)] }) (withTable { aTable with cleanup := true, log := ⟨[3], [], [], [], []⟩ } (withRegion 512)))).2) := by
  decide +kernel

theorem test_TablesAreMadeChangedAndPublished_16 : (fun (k id : Nat) (t0 : TblSt) (w : EngWork) (s s1 : State) => (s.Idle) ∧ (tblOf s k = some t0) ∧ (t0.cleanup = true) ∧ (oldLookups s k t0 = false) ∧ (s.dev.mode ≠ .hold) ∧ (takeWork (tblHome s t0) (.cleanup k) s = ((id, w), s1)) ∧ (w.left = 0) ∧ (w.written = false) ∧ ((settleStage t0 (Eng.start (tblHome s t0) t0.region w.got)).whole = false)) 5 1 ({ aTable with cleanup := true, log := ⟨[3], [], [], [], []⟩ }) (⟨.cleanup 5, 0, [], false⟩) (withTable { aTable with cleanup := true, log := ⟨[3], [], [], [], []⟩ } (withRegion 512)) ((takeWork .east (.cleanup 5) (withTable { aTable with cleanup := true, log := ⟨[3], [], [], [], []⟩ } (withRegion 512))).2) := by
  decide +kernel

theorem test_TablesAreMadeChangedAndPublished_17 : (fun (d : Die) (e : Desc) (t0 : TblSt) (s : State) => (s.Runs d e 0x23) ∧ (tableCheck d e (fun _ => true) s = (.ok t0, s)) ∧ (e.zero 8 56 = true)) .east ({ aDesc 0x23 5 (0) with got := [] }) aTable (withDesc ({ aDesc 0x23 5 (0) with got := [] }) (withTable (aTable) (withRegion 512))) := by
  decide +kernel

theorem test_TablesAreMadeChangedAndPublished_18 : (fun (d : Die) (e : Desc) (t0 : TblSt) (s : State) => (s.Runs d e 0x21) ∧ (e.phase ≠ 1) ∧ (tableCheck d e (fun _ => true) s = (.ok t0, s)) ∧ (e.zero 8 56 = true) ∧ (tableBusy s e.table (lookupOps ++ updateOps) d e = false)) .east ({ aDesc 0x21 5 (0) with got := [] }) aTable (withDesc ({ aDesc 0x21 5 (0) with got := [] }) (withTable (aTable) (withRegion 512))) := by
  decide +kernel

theorem test_TablesAreMadeChangedAndPublished_19 : (fun (d : Die) (e : Desc) (t0 : TblSt) (s : State) => (s.Runs d e 0x21) ∧ (e.phase ≠ 1) ∧ (tableCheck d e (fun _ => true) s = (.ok t0, s)) ∧ (e.zero 8 56 = true) ∧ (tableBusy s e.table (lookupOps ++ updateOps) d e = true)) .east (aDesc 0x21 5 0) aTable (onSq .east 1 (fun _ => ⟨[], [{ aDesc 0x10 5 0 with sq := 1, left := 1 }], 1, 0, 1⟩) (withDesc (aDesc 0x21 5 0) (withTable aTable (withRegion 512)))) := by
  decide +kernel

/-! ### PoolsAndQueuesAreSetUpAndQueried -/

theorem test_PoolsAndQueuesAreSetUpAndQueried_1 : (fun (d : Die) (e : Desc) (r : Nat) (s : State) => (s.Runs d e 0x30) ∧ (clashBefore s d e = false) ∧ (domainCheck d e.sq (e.num 8 8) .que s = (true, s)) ∧ (poolCreateCheck s e = none) ∧ (regionOf s (e.num 8 8) = some r) ∧ (wakePool (dieOf (e.arg / 8)) (e.arg % 8) s = s)) .east (aDesc 0x30 0 (1 * 2 ^ 64 + 10 * 2 ^ 96 + 20 * 2 ^ 128)) 0 (withDesc (aDesc 0x30 0 (1 * 2 ^ 64 + 10 * 2 ^ 96 + 20 * 2 ^ 128)) (withRegion 1024)) := by
  decide +kernel

theorem test_PoolsAndQueuesAreSetUpAndQueried_2 : (fun (d : Die) (e : Desc) (p : PoolAt) (s : State) => (s.Runs d e 0x31) ∧ (poolCheck d e s = (.ok p, s)) ∧ (clashBefore s d e = false) ∧ (p.pool.freeFor (.desc d e.sq e.seq) = true) ∧ (wakePool p.die (p.num) s = s) ∧ (e.zero 8 56 = true) ∧ (poolBound s p.die p.num = false)) .east (aDesc 0x31 0 0) (⟨.east, 0, aPool⟩) (withDesc (aDesc 0x31 0 0) (withQueue (aPool) (QueueSt.reset) (withRegion 1024))) := by
  decide +kernel

theorem test_PoolsAndQueuesAreSetUpAndQueried_3 : (fun (d : Die) (e : Desc) (p : PoolAt) (s : State) => (s.Runs d e 0x31) ∧ (poolCheck d e s = (.ok p, s)) ∧ (clashBefore s d e = false) ∧ (p.pool.freeFor (.desc d e.sq e.seq) = true) ∧ (wakePool p.die (p.num) s = s) ∧ (e.zero 8 56 = true) ∧ (p.pool.lock = none) ∧ (poolBound s p.die p.num = true)) .east (aDesc 0x31 0 0) (⟨.east, 0, aPool⟩) (withDesc (aDesc 0x31 0 0) (withQueue (aPool) (aQueue) (withRegion 1024))) := by
  decide +kernel

theorem test_PoolsAndQueuesAreSetUpAndQueried_4 : (fun (d : Die) (e : Desc) (p : PoolAt) (s : State) => (s.Runs d e 0x32) ∧ (poolCheck d e s = (.ok p, s)) ∧ (clashBefore s d e = false) ∧ (p.pool.freeFor (.desc d e.sq e.seq) = true) ∧ (wakePool p.die (p.num) s = s) ∧ (e.zero 8 56 = true) ∧ (p.pool.lock = none)) .east (aDesc 0x32 0 0) (⟨.east, 0, aPool⟩) (withDesc (aDesc 0x32 0 0) (withQueue (aPool) (aQueue) (withRegion 1024))) := by
  decide +kernel

theorem test_PoolsAndQueuesAreSetUpAndQueried_5 : (fun (d : Die) (e : Desc) (p : PoolSt) (s : State) => (s.Runs d e 0x33) ∧ (e.arg < 2 ^ 18) ∧ (diePresent s (queueDie e.arg) = true) ∧ (e.num 8 1 < 16) ∧ (e.zero 9 3 = true) ∧ (e.zero 16 48 = true) ∧ (bitn (e.num 8 1) 0 = true) ∧ ((queueOf s (queueDie e.arg) (queueLocal e.arg)).st = .disabled) ∧ (poolOf s (queueDie e.arg) (fld (e.num 8 1) 1 3) = some p) ∧ (domainCheck d e.sq p.base .que s = (true, s)) ∧ (clashBefore s d e = false) ∧ (p.freeFor (.desc d e.sq e.seq) = true) ∧ (wakePool (queueDie e.arg) (fld (e.num 8 1) 1 3) s = s)) .east (aDesc 0x33 4 (1 + 99 * 2 ^ 32)) aPool (withDesc (aDesc 0x33 4 (1 + 99 * 2 ^ 32)) (withQueue (aPool) ({ QueueSt.reset with drops := 0 }) (withRegion 1024))) := by
  decide +kernel

theorem test_PoolsAndQueuesAreSetUpAndQueried_6 : (fun (d : Die) (e : Desc) (p : PoolSt) (x : QueueSt) (s : State) => (s.Runs d e 0x33) ∧ (e.arg < 2 ^ 18) ∧ (diePresent s (queueDie e.arg) = true) ∧ (e.num 8 1 < 16) ∧ (e.zero 9 3 = true) ∧ (e.zero 16 48 = true) ∧ (queueOf s (queueDie e.arg) (queueLocal e.arg) = x) ∧ (x.st = .enabled) ∧ (bitn (e.num 8 1) 0 = true) ∧ (fld (e.num 8 1) 1 3 = x.pool) ∧ (poolOf s (queueDie e.arg) x.pool = some p) ∧ (domainCheck d e.sq p.base .que s = (true, s)) ∧ (clashBefore s d e = false) ∧ (p.freeFor (.desc d e.sq e.seq) = true) ∧ (wakePool (queueDie e.arg) (x.pool) s = s)) .east (aDesc 0x33 4 (1 + 99 * 2 ^ 32)) aPool aQueue (withDesc (aDesc 0x33 4 (1 + 99 * 2 ^ 32)) (withQueue (aPool) (aQueue) (withRegion 1024))) := by
  decide +kernel

theorem test_PoolsAndQueuesAreSetUpAndQueried_7 : (fun (d : Die) (e : Desc) (p : PoolSt) (x : QueueSt) (s : State) => (s.Runs d e 0x33) ∧ (e.arg < 2 ^ 18) ∧ (diePresent s (queueDie e.arg) = true) ∧ (e.num 8 1 < 16) ∧ (e.zero 9 3 = true) ∧ (e.zero 16 48 = true) ∧ (queueOf s (queueDie e.arg) (queueLocal e.arg) = x) ∧ (x.st = .enabled) ∧ (bitn (e.num 8 1) 0 = false) ∧ (x.pkts = 0) ∧ (poolOf s (queueDie e.arg) x.pool = some p) ∧ (domainCheck d e.sq p.base .que s = (true, s)) ∧ (clashBefore s d e = false) ∧ (p.freeFor (.desc d e.sq e.seq) = true) ∧ (wakePool (queueDie e.arg) (x.pool) s = s)) .east (aDesc 0x33 4 0) aPool aQueue (withDesc (aDesc 0x33 4 0) (withQueue (aPool) (aQueue) (withRegion 1024))) := by
  decide +kernel

theorem test_PoolsAndQueuesAreSetUpAndQueried_8 : (fun (d : Die) (e : Desc) (q : QueueAt) (s : State) => (s.Runs d e 0x34) ∧ (queueCheck d e s = (.ok q, s)) ∧ (clashBefore s d e = false) ∧ (q.at_.pool.freeFor (.desc d e.sq e.seq) = true) ∧ (wakePool q.at_.die (q.at_.num) s = s) ∧ (q.queue.st ≠ .fault) ∧ (e.zero 8 56 = true) ∧ (q.at_.pool.lock = none)) .east (aDesc 0x34 4 0) (⟨⟨.east, 0, aPool⟩, 4, aQueue⟩) (withDesc (aDesc 0x34 4 0) (withQueue (aPool) (aQueue) (withRegion 1024))) := by
  decide +kernel

theorem test_PoolsAndQueuesAreSetUpAndQueried_9 : (fun (o : Die) (k id : Nat) (p : PoolSt) (w : EngWork) (s s1 : State) => (s.Idle) ∧ (poolOf s o k = some p) ∧ (p.held.length < 256) ∧ (256 ≤ p.deep) ∧ (s.dev.mode ≠ .hold) ∧ (takeWork o (.fill k) s = ((id, w), s1)) ∧ (w.left = 0) ∧ (p.freeFor (.work id) = true) ∧ ((stackFill p (Eng.start o p.region w.got)).2.2.whole = false)) .east 0 1 ({ aPool with free := 258 }) (⟨.fill 0, 0, [], false⟩) (withQueue { aPool with free := 258 } aQueue (withRegion 1024)) ((takeWork .east (.fill 0) (withQueue { aPool with free := 258 } aQueue (withRegion 1024))).2) := by
  decide +kernel

theorem test_PoolsAndQueuesAreSetUpAndQueried_10 : (fun (o : Die) (k id : Nat) (p : PoolSt) (w : EngWork) (s s1 : State) => (s.Idle) ∧ (poolOf s o k = some p) ∧ (p.held.length < 256) ∧ (256 ≤ p.deep) ∧ (s.dev.mode ≠ .hold) ∧ (takeWork o (.fill k) s = ((id, w), s1)) ∧ (w.left = 0) ∧ (p.freeFor (.work id) = true) ∧ ((stackFill p (Eng.start o p.region w.got)).2.2.whole = true) ∧ (wakePool o k s = s)) .east 0 1 ({ aPool with free := 258 }) (⟨.fill 0, 0, ((List.range 16).map (fun k => (260 * 8192 / 64 + k, (⟨0, false⟩ : LineData)))), false⟩) (onDie .east (fun x => { x with work := [(1, ⟨.fill 0, 0, ((List.range 16).map (fun k => (260 * 8192 / 64 + k, (⟨0, false⟩ : LineData)))), false⟩)] }) (withQueue ({ aPool with free := 258 }) (aQueue) (withRegion 1024))) ((onDie .east (fun x => { x with work := [(1, ⟨.fill 0, 0, ((List.range 16).map (fun k => (260 * 8192 / 64 + k, (⟨0, false⟩ : LineData)))), false⟩)] }) (withQueue ({ aPool with free := 258 }) (aQueue) (withRegion 1024)))) := by
  decide +kernel

theorem test_PoolsAndQueuesAreSetUpAndQueried_11 : (fun (o : Die) (k : Nat) (p : PoolSt) (s : State) => (s.Idle) ∧ (poolOf s o k = some p) ∧ (768 < p.held.length) ∧ (p.lock = none) ∧ (s.dev.mode ≠ .hold)) .east 0 ({ aPool with held := List.range 800, free := 1056 }) (withQueue { aPool with held := List.range 800, free := 1056 } aQueue (withRegion 1024)) := by
  decide +kernel

theorem test_PoolsAndQueuesAreSetUpAndQueried_12 : (fun (o : Die) (k id : Nat) (p : PoolSt) (w : EngWork) (s s1 : State) => (s.Idle) ∧ (poolOf s o (queueOf s o k).pool = some p) ∧ ((queueOf s o k).st = .enabled) ∧ (s.dev.mode ≠ .hold) ∧ (takeWork o (.ahead k) s = ((id, w), s1)) ∧ (w.left = 0) ∧ (p.freeFor (.work id) = true) ∧ ((readAhead p 3 (queueOf s o k) (Eng.start o p.region w.got)).2.2.whole = false)) .east 4 1 aPool (⟨.ahead 4, 0, [], false⟩) (withQueue aPool { aQueue with pkts := 1, head := 3, tailLast := 3, cells := 1, bytes := 64 } (withRegion 1024)) ((takeWork .east (.ahead 4) (withQueue aPool { aQueue with pkts := 1, head := 3, tailLast := 3, cells := 1, bytes := 64 } (withRegion 1024))).2) := by
  decide +kernel

theorem test_PoolsAndQueuesAreSetUpAndQueried_13 : (fun (o : Die) (k id : Nat) (p : PoolSt) (w : EngWork) (s s1 : State) => (s.Idle) ∧ (poolOf s o (queueOf s o k).pool = some p) ∧ ((queueOf s o k).st = .enabled) ∧ (s.dev.mode ≠ .hold) ∧ (takeWork o (.ahead k) s = ((id, w), s1)) ∧ (w.left = 0) ∧ (p.freeFor (.work id) = true) ∧ ((readAhead p 3 (queueOf s o k) (Eng.start o p.region w.got)).2.2.whole = true) ∧ ((readAhead p 3 (queueOf s o k) (Eng.start o p.region w.got)).2.1 = none) ∧ (wakePool o (queueOf s o k).pool s = s)) .east 4 1 aPool (⟨.ahead 4, 0, [(12, ⟨BitVec.ofNat 512 (header 64 0 3 5), false⟩)], false⟩) (onDie .east (fun x => { x with work := [(1, ⟨.ahead 4, 0, [(12, ⟨BitVec.ofNat 512 (header 64 0 3 5), false⟩)], false⟩)] }) (withQueue (aPool) ({ aQueue with pkts := 1, head := 3, tailLast := 3, cells := 1, bytes := 64 }) (withRegion 1024))) ((onDie .east (fun x => { x with work := [(1, ⟨.ahead 4, 0, [(12, ⟨BitVec.ofNat 512 (header 64 0 3 5), false⟩)], false⟩)] }) (withQueue (aPool) ({ aQueue with pkts := 1, head := 3, tailLast := 3, cells := 1, bytes := 64 }) (withRegion 1024)))) := by
  decide +kernel

/-! ### CellsAndPacketsMoveThroughQueues -/

theorem test_CellsAndPacketsMoveThroughQueues_1 : (fun (d : Die) (e : Desc) (p : PoolAt) (c : Nat) (hs : List Nat) (s : State) => (s.Runs d e 0x38) ∧ (poolCheck d e s = (.ok p, s)) ∧ (clashBefore s d e = false) ∧ (p.pool.freeFor (.desc d e.sq e.seq) = true) ∧ (wakePool p.die (p.num) s = s) ∧ (e.num 8 2 = 1) ∧ (e.num 10 1 = 0) ∧ (e.zero 11 5 = true) ∧ (e.zero 24 40 = true) ∧ (p.pool.held = c :: hs) ∧ (0 < p.pool.free)) .east (aDesc 0x38 0 1) (⟨.east, 0, aPool⟩) 3 ([8]) (withDesc (aDesc 0x38 0 1) (withQueue (aPool) (aQueue) (withRegion 1024))) := by
  decide +kernel

theorem test_CellsAndPacketsMoveThroughQueues_2 : (fun (d : Die) (e : Desc) (p : PoolAt) (cs : List Nat) (q : PoolSt) (lost : Nat) (v : Eng) (s : State) => (s.Runs d e 0x38) ∧ (poolCheck d e s = (.ok p, s)) ∧ (clashBefore s d e = false) ∧ (p.pool.freeFor (.desc d e.sq e.seq) = true) ∧ (wakePool p.die (p.num) s = s) ∧ (0 < e.num 8 2) ∧ (e.num 8 2 ≤ 256) ∧ (e.num 10 1 < 4) ∧ (e.zero 11 5 = true) ∧ (e.zero 24 40 = true) ∧ ((bitn (e.num 10 1) 0 && !e.begun) = true → placeDomain d e.sq ⟨bitn (e.num 10 1) 1, e.num 16 8⟩ s = (true, s) ∧ listStatus s ⟨bitn (e.num 10 1) 1, e.num 16 8⟩ (e.num 8 2) true = 0) ∧ (popCells (e.num 8 2) p.pool (p.view e) = (some cs, q, lost, v)) ∧ (v.whole = true)) .east (aDesc 0x38 0 2) (⟨.east, 0, aPool⟩) ([3, 8]) ({ aPool with held := [], free := 298 }) 0 ((PoolAt.view ⟨.east, 0, aPool⟩ (aDesc 0x38 0 2))) (withDesc (aDesc 0x38 0 2) (withQueue (aPool) (aQueue) (withRegion 1024))) := by
  decide +kernel

theorem test_CellsAndPacketsMoveThroughQueues_3 : (fun (d : Die) (e : Desc) (p : PoolAt) (w : Walk) (v : Eng) (host : List LineData) (s : State) => (s.Runs d e 0x39) ∧ (poolCheck d e s = (.ok p, s)) ∧ (clashBefore s d e = false) ∧ (p.pool.freeFor (.desc d e.sq e.seq) = true) ∧ (wakePool p.die (p.num) s = s) ∧ (e.phase ≠ 1) ∧ (0 < e.num 8 2) ∧ (e.num 8 2 ≤ 256) ∧ (e.num 10 1 = 0 ∨ e.num 10 1 = 2) ∧ (e.zero 11 5 = true) ∧ (e.zero 28 36 = true) ∧ (walkChain p.pool (e.num 8 2 - 1) (e.num 24 4) (p.view e) = (w, v)) ∧ (v.whole = true) ∧ (w.outside = false) ∧ (w.poison = false)) .east (aDesc 0x39 0 (1 + 5 * 2 ^ 128)) (⟨.east, 0, aPool⟩) (⟨[5], false, false⟩) ((PoolAt.view ⟨.east, 0, aPool⟩ (aDesc 0x39 0 (1 + 5 * 2 ^ 128)))) ([]) (withDesc (aDesc 0x39 0 (1 + 5 * 2 ^ 128)) (withQueue (aPool) (aQueue) (withRegion 1024))) := by
  decide +kernel

theorem test_CellsAndPacketsMoveThroughQueues_4 : (fun (d : Die) (e : Desc) (p : PoolAt) (cs : List Nat) (host : List LineData) (s : State) => (s.Runs d e 0x39) ∧ (poolCheck d e s = (.ok p, s)) ∧ (clashBefore s d e = false) ∧ (p.pool.freeFor (.desc d e.sq e.seq) = true) ∧ (wakePool p.die (p.num) s = s) ∧ (0 < e.num 8 2) ∧ (e.num 8 2 ≤ 256) ∧ ((e.num 10 1 = 1 ∧ e.phase ≠ 1) ∨ (e.num 10 1 = 3 ∧ e.phase = 1)) ∧ (e.zero 11 5 = true) ∧ (e.zero 28 36 = true) ∧ (listIndices e ⟨bitn (e.num 10 1) 1, e.num 16 8⟩ host (e.num 8 2) = (cs, false)) ∧ (cs.any (fun c => decide (p.pool.cells ≤ c)) = false)) .east (aDesc 0x39 0 (2 + 65536 + 4096 * 2 ^ 64)) (⟨.east, 0, aPool⟩) ([5, 9]) ([⟨5 + 9 * 2 ^ 32, false⟩]) (withDesc (aDesc 0x39 0 (2 + 65536 + 4096 * 2 ^ 64)) (withQueue (aPool) (aQueue) (withRegion 1024))) := by
  decide +kernel

theorem test_CellsAndPacketsMoveThroughQueues_5 : (fun (d : Die) (e : Desc) (q : QueueAt) (l : Line) (s : State) => (s.Runs d e 0x3A) ∧ (queueCheck d e s = (.ok q, s)) ∧ (clashBefore s d e = false) ∧ (q.at_.pool.freeFor (.desc d e.sq e.seq) = true) ∧ (wakePool q.at_.die (q.at_.num) s = s) ∧ (q.queue.st = .enabled) ∧ (e.num 8 4 < q.at_.pool.cells) ∧ (e.num 12 4 < q.at_.pool.cells) ∧ (0 < e.num 16 2) ∧ (e.num 16 2 ≤ 65520) ∧ (decide (e.num 8 4 = e.num 12 4) = decide (cellsFor (e.num 16 2) = 1)) ∧ (e.zero 18 2 = true) ∧ (e.zero 24 40 = true) ∧ (tailDrops q.queue (cellsFor (e.num 16 2)) = false) ∧ ((((q.at_.view e).fetch (q.at_.pool.cell (e.num 8 4) :: if q.queue.pkts = 0 then [] else [q.at_.pool.link q.queue.tailLast])).tryRead (q.at_.pool.cell (e.num 8 4))).1 = some l) ∧ ((linkOn q.at_.pool q.queue (e.num 8 4) ((((q.at_.view e).fetch (q.at_.pool.cell (e.num 8 4) :: if q.queue.pkts = 0 then [] else [q.at_.pool.link q.queue.tailLast])).tryRead (q.at_.pool.cell (e.num 8 4))).2.write (q.at_.pool.cell (e.num 8 4)) (lineSet l 0 16 (header (e.num 16 2) 0 (e.num 12 4) (e.num 20 4))))).1 = true) ∧ ((linkOn q.at_.pool q.queue (e.num 8 4) ((((q.at_.view e).fetch (q.at_.pool.cell (e.num 8 4) :: if q.queue.pkts = 0 then [] else [q.at_.pool.link q.queue.tailLast])).tryRead (q.at_.pool.cell (e.num 8 4))).2.write (q.at_.pool.cell (e.num 8 4)) (lineSet l 0 16 (header (e.num 16 2) 0 (e.num 12 4) (e.num 20 4))))).2.whole = true)) .east ({ aDesc 0x3A 4 (3 + 3 * 2 ^ 32 + 64 * 2 ^ 64 + 5 * 2 ^ 96) with got := [(12, ⟨7, false⟩)] }) (⟨⟨.east, 0, aPool⟩, 4, aQueue⟩) 7 (withDesc ({ aDesc 0x3A 4 (3 + 3 * 2 ^ 32 + 64 * 2 ^ 64 + 5 * 2 ^ 96) with got := [(12, ⟨7, false⟩)] }) (withQueue (aPool) (aQueue) (withRegion 1024))) := by
  decide +kernel

theorem test_CellsAndPacketsMoveThroughQueues_6 : (fun (d : Die) (e : Desc) (q : QueueAt) (s : State) => (s.Runs d e 0x3A) ∧ (queueCheck d e s = (.ok q, s)) ∧ (clashBefore s d e = false) ∧ (q.at_.pool.freeFor (.desc d e.sq e.seq) = true) ∧ (wakePool q.at_.die (q.at_.num) s = s) ∧ (q.queue.st = .enabled) ∧ (e.num 8 4 < q.at_.pool.cells) ∧ (e.num 12 4 < q.at_.pool.cells) ∧ (0 < e.num 16 2) ∧ (e.num 16 2 ≤ 65520) ∧ (decide (e.num 8 4 = e.num 12 4) = decide (cellsFor (e.num 16 2) = 1)) ∧ (e.zero 18 2 = true) ∧ (e.zero 24 40 = true) ∧ (tailDrops q.queue (cellsFor (e.num 16 2)) = false) ∧ ((((q.at_.view e).fetch (q.at_.pool.cell (e.num 8 4) :: if q.queue.pkts = 0 then [] else [q.at_.pool.link q.queue.tailLast])).tryRead (q.at_.pool.cell (e.num 8 4))).1.isSome = true) ∧ ((((q.at_.view e).fetch (q.at_.pool.cell (e.num 8 4) :: if q.queue.pkts = 0 then [] else [q.at_.pool.link q.queue.tailLast])).tryRead (q.at_.pool.cell (e.num 8 4))).2.whole = false) ∧ (q.queue.pkts = 0)) .east (aDesc 0x3A 4 (3 + 3 * 2 ^ 32 + 64 * 2 ^ 64 + 5 * 2 ^ 96)) (⟨⟨.east, 0, aPool⟩, 4, aQueue⟩) (withDesc (aDesc 0x3A 4 (3 + 3 * 2 ^ 32 + 64 * 2 ^ 64 + 5 * 2 ^ 96)) (withQueue (aPool) (aQueue) (withRegion 1024))) := by
  decide +kernel

theorem test_CellsAndPacketsMoveThroughQueues_7 : (fun (d : Die) (e : Desc) (q : QueueAt) (s : State) => (s.Runs d e 0x3A) ∧ (queueCheck d e s = (.ok q, s)) ∧ (clashBefore s d e = false) ∧ (q.at_.pool.freeFor (.desc d e.sq e.seq) = true) ∧ (wakePool q.at_.die (q.at_.num) s = s) ∧ (q.queue.st = .enabled) ∧ (e.num 8 4 < q.at_.pool.cells) ∧ (e.num 12 4 < q.at_.pool.cells) ∧ (0 < e.num 16 2) ∧ (e.num 16 2 ≤ 65520) ∧ (decide (e.num 8 4 = e.num 12 4) = decide (cellsFor (e.num 16 2) = 1)) ∧ (e.zero 18 2 = true) ∧ (e.zero 24 40 = true) ∧ (tailDrops q.queue (cellsFor (e.num 16 2)) = true)) .east (aDesc 0x3A 4 (3 + 3 * 2 ^ 32 + 64 * 2 ^ 64 + 5 * 2 ^ 96)) (⟨⟨.east, 0, aPool⟩, 4, { aQueue with thresh := 4, cells := 4 }⟩) (withDesc (aDesc 0x3A 4 (3 + 3 * 2 ^ 32 + 64 * 2 ^ 64 + 5 * 2 ^ 96)) (withQueue (aPool) ({ aQueue with thresh := 4, cells := 4 }) (withRegion 1024))) := by
  decide +kernel

theorem test_CellsAndPacketsMoveThroughQueues_8 : (fun (d : Die) (e : Desc) (q : QueueAt) (s : State) => (s.Runs d e 0x3B) ∧ (queueCheck d e s = (.ok q, s)) ∧ (clashBefore s d e = false) ∧ (q.at_.pool.freeFor (.desc d e.sq e.seq) = true) ∧ (wakePool q.at_.die (q.at_.num) s = s) ∧ (q.queue.st = .enabled) ∧ (bitn (e.num 8 1) 0 = false) ∧ (e.num 8 1 < 4) ∧ (e.zero 9 7 = true) ∧ (e.zero 24 40 = true) ∧ (q.queue.pkts ≠ 0) ∧ ((readAhead q.at_.pool 2 q.queue (q.at_.view e)).2.1 = none) ∧ ((readAhead q.at_.pool 2 q.queue (q.at_.view e)).2.2.whole = true)) .east ({ aDesc 0x3B 4 0 with got := [(12, ⟨BitVec.ofNat 512 (header 64 0 3 5), false⟩)] }) (⟨⟨.east, 0, aPool⟩, 4, { aQueue with pkts := 1, head := 3, tailLast := 3, cells := 1, bytes := 64 }⟩) (withDesc ({ aDesc 0x3B 4 0 with got := [(12, ⟨BitVec.ofNat 512 (header 64 0 3 5), false⟩)] }) (withQueue (aPool) ({ aQueue with pkts := 1, head := 3, tailLast := 3, cells := 1, bytes := 64 }) (withRegion 1024))) := by
  decide +kernel

theorem test_CellsAndPacketsMoveThroughQueues_9 : (fun (d : Die) (e : Desc) (q : QueueAt) (s : State) => (s.Runs d e 0x3C) ∧ (queueCheck d e s = (.ok q, s)) ∧ (clashBefore s d e = false) ∧ (q.at_.pool.freeFor (.desc d e.sq e.seq) = true) ∧ (wakePool q.at_.die (q.at_.num) s = s) ∧ (q.queue.st = .enabled) ∧ (e.zero 8 56 = true) ∧ (q.queue.pkts ≠ 0) ∧ ((readAhead q.at_.pool 1 q.queue (q.at_.view e)).2.1 = none) ∧ ((readAhead q.at_.pool 1 q.queue (q.at_.view e)).2.2.whole = true)) .east ({ aDesc 0x3C 4 0 with got := [(12, ⟨BitVec.ofNat 512 (header 64 0 3 5), false⟩)] }) (⟨⟨.east, 0, aPool⟩, 4, { aQueue with pkts := 1, head := 3, tailLast := 3, cells := 1, bytes := 64 }⟩) (withDesc ({ aDesc 0x3C 4 0 with got := [(12, ⟨BitVec.ofNat 512 (header 64 0 3 5), false⟩)] }) (withQueue (aPool) ({ aQueue with pkts := 1, head := 3, tailLast := 3, cells := 1, bytes := 64 }) (withRegion 1024))) := by
  decide +kernel

theorem test_CellsAndPacketsMoveThroughQueues_10 : (fun (d : Die) (e : Desc) (q : QueueAt) (s : State) => (s.Runs d e 0x3B) ∧ (queueCheck d e s = (.ok q, s)) ∧ (clashBefore s d e = false) ∧ (q.at_.pool.freeFor (.desc d e.sq e.seq) = true) ∧ (wakePool q.at_.die (q.at_.num) s = s) ∧ (q.queue.st = .enabled) ∧ (e.num 8 1 = 1) ∧ (e.zero 9 7 = true) ∧ (e.zero 24 40 = true) ∧ (q.queue.pkts ≠ 0) ∧ ((readAhead q.at_.pool 2 q.queue (q.at_.view e)).2.1 = none) ∧ ((readAhead q.at_.pool 2 q.queue (q.at_.view e)).2.2.whole = true) ∧ ((walkChain q.at_.pool (cellsFor (hdrLen ((readAhead q.at_.pool 2 q.queue (q.at_.view e)).1.hdr.getD 0)) - 1) (readAhead q.at_.pool 2 q.queue (q.at_.view e)).1.head (readAhead q.at_.pool 2 q.queue (q.at_.view e)).2.2).2.whole = true) ∧ ((walkChain q.at_.pool (cellsFor (hdrLen ((readAhead q.at_.pool 2 q.queue (q.at_.view e)).1.hdr.getD 0)) - 1) (readAhead q.at_.pool 2 q.queue (q.at_.view e)).1.head (readAhead q.at_.pool 2 q.queue (q.at_.view e)).2.2).1.poison = false) ∧ ((walkChain q.at_.pool (cellsFor (hdrLen ((readAhead q.at_.pool 2 q.queue (q.at_.view e)).1.hdr.getD 0)) - 1) (readAhead q.at_.pool 2 q.queue (q.at_.view e)).1.head (readAhead q.at_.pool 2 q.queue (q.at_.view e)).2.2).1.outside = false) ∧ (portAlive s d = true)) .east (aDesc 0x3B 4 (1 + 4096 * 2 ^ 64)) (⟨⟨.east, 0, aPool⟩, 4, { aQueue with pkts := 1, head := 3, tailLast := 3, cells := 1, bytes := 64, hdr := some (header 64 0 3 5) }⟩) (portUp0 (withDesc (aDesc 0x3B 4 (1 + 4096 * 2 ^ 64)) (withQueue aPool { aQueue with pkts := 1, head := 3, tailLast := 3, cells := 1, bytes := 64, hdr := some (header 64 0 3 5) } (withRegion 1024)))) := by
  decide +kernel

theorem test_CellsAndPacketsMoveThroughQueues_11 : (fun (d : Die) (e : Desc) (q : QueueAt) (s : State) => (s.Runs d e 0x3B) ∧ (queueCheck d e s = (.ok q, s)) ∧ (clashBefore s d e = false) ∧ (q.at_.pool.freeFor (.desc d e.sq e.seq) = true) ∧ (wakePool q.at_.die (q.at_.num) s = s) ∧ (q.queue.st = .enabled) ∧ (bitn (e.num 8 1) 0 = false) ∧ (e.num 8 1 < 4) ∧ (e.zero 9 7 = true) ∧ (e.zero 24 40 = true) ∧ (q.queue.pkts ≠ 0) ∧ ((readAhead q.at_.pool 2 q.queue (q.at_.view e)).2.2.whole = false)) .east (aDesc 0x3B 4 0) (⟨⟨.east, 0, aPool⟩, 4, { aQueue with pkts := 2, head := 3, tailLast := 9, cells := 2, bytes := 128, hdr := some (header 64 0 3 5) }⟩) (withDesc (aDesc 0x3B 4 0) (withQueue (aPool) ({ aQueue with pkts := 2, head := 3, tailLast := 9, cells := 2, bytes := 128, hdr := some (header 64 0 3 5) }) (withRegion 1024))) := by
  decide +kernel

theorem test_CellsAndPacketsMoveThroughQueues_12 : (fun (d : Die) (e : Desc) (q : QueueAt) (s : State) => (s.Runs d e 0x3D) ∧ (queueCheck d e s = (.ok q, s)) ∧ (clashBefore s d e = false) ∧ (q.at_.pool.freeFor (.desc d e.sq e.seq) = true) ∧ (wakePool q.at_.die (q.at_.num) s = s) ∧ (e.phase = 0) ∧ (q.queue.st = .enabled) ∧ (e.zero 8 56 = true) ∧ (0 < q.queue.pkts)) .east (aDesc 0x3D 4 0) (⟨⟨.east, 0, aPool⟩, 4, { aQueue with pkts := 1, head := 3, tailLast := 3, cells := 1, bytes := 64 }⟩) (withDesc (aDesc 0x3D 4 0) (withQueue (aPool) ({ aQueue with pkts := 1, head := 3, tailLast := 3, cells := 1, bytes := 64 }) (withRegion 1024))) := by
  decide +kernel

theorem test_CellsAndPacketsMoveThroughQueues_13 : (fun (d : Die) (e : Desc) (q : QueueAt) (s : State) => (s.Runs d e 0x3D) ∧ (queueCheck d e s = (.ok q, s)) ∧ (clashBefore s d e = false) ∧ (q.at_.pool.freeFor (.desc d e.sq e.seq) = true) ∧ (wakePool q.at_.die (q.at_.num) s = s) ∧ (e.phase = 0) ∧ (q.queue.st = .enabled) ∧ (e.zero 8 56 = true) ∧ (q.queue.pkts = 0) ∧ (q.at_.pool.lock = none)) .east (aDesc 0x3D 4 0) (⟨⟨.east, 0, aPool⟩, 4, aQueue⟩) (withDesc (aDesc 0x3D 4 0) (withQueue (aPool) (aQueue) (withRegion 1024))) := by
  decide +kernel

theorem test_CellsAndPacketsMoveThroughQueues_14 : (fun (d : Die) (e : Desc) (p : PoolSt) (c n k : Nat) (w : Walk) (v : Eng) (s : State) => (s.Runs d e 0x3D) ∧ (e.phase = 1) ∧ (ngetD e.vals 0 0 = c) ∧ (ngetD e.vals 1 0 = n) ∧ (ngetD e.vals 2 0 = k) ∧ (poolOf s (queueDie e.arg) (ngetD e.vals 3 0) = some p) ∧ (p.freeFor (.desc d e.sq e.seq) = true) ∧ (wakePool (queueDie e.arg) (ngetD e.vals 3 0) s = s) ∧ (walkChain p (n - 1) c (Eng.start (queueDie e.arg) p.region e.got) = (w, v)) ∧ (v.whole = true) ∧ (w.outside = false) ∧ (w.poison = false) ∧ (w.cells.all (fun c => decide (c < p.cells)) = true)) .east ({ aDesc 0x3D 4 0 with phase := 1, vals := [(0, 3), (1, 1), (2, 1), (3, 0)] }) aPool 3 1 1 (⟨[3], false, false⟩) ((Eng.start .east 0 [])) (withDesc ({ aDesc 0x3D 4 0 with phase := 1, vals := [(0, 3), (1, 1), (2, 1), (3, 0)] }) (withQueue (aPool) (aQueue) (withRegion 1024))) := by
  decide +kernel

theorem test_CellsAndPacketsMoveThroughQueues_15 : (fun (d : Die) (e : Desc) (p : PoolSt) (c n k : Nat) (s : State) => (s.Runs d e 0x3D) ∧ (e.phase = 1) ∧ (ngetD e.vals 0 0 = c) ∧ (ngetD e.vals 1 0 = n) ∧ (ngetD e.vals 2 0 = k) ∧ (poolOf s (queueDie e.arg) (ngetD e.vals 3 0) = some p) ∧ (p.freeFor (.desc d e.sq e.seq) = true) ∧ ((walkChain p (n - 1) c (Eng.start (queueDie e.arg) p.region e.got)).2.whole = false)) .east ({ aDesc 0x3D 4 0 with phase := 1, vals := [(0, 3), (1, 2), (2, 1), (3, 0)] }) aPool 3 2 1 (withDesc ({ aDesc 0x3D 4 0 with phase := 1, vals := [(0, 3), (1, 2), (2, 1), (3, 0)] }) (withQueue (aPool) (aQueue) (withRegion 1024))) := by
  decide +kernel

theorem test_CellsAndPacketsMoveThroughQueues_16 : (fun (d : Die) (e : Desc) (host : List LineData) (s : State) => (s.Runs d e 0x3E) ∧ (e.phase = 0) ∧ (e.num 10 1 = 0) ∧ (e.num 11 1 = 0) ∧ (0 < e.num 12 2) ∧ (e.num 12 2 ≤ 64) ∧ (e.arg < 2 ^ 21) ∧ (e.num 8 2 < 4096) ∧ (e.zero 14 2 = true) ∧ (e.zero 24 40 = true) ∧ (outPort s d (e.num 8 2) = some d) ∧ (inFlight s d < 8192) ∧ (s.FabOpen d (e.num 8 2)) ∧ ((ctx s d (e.num 8 2)).unacked.length < 1024)) .east (aDesc 0x3E 7 (2 + 40 * 2 ^ 32 + 4096 * 2 ^ 64)) ([⟨77, false⟩]) (withPeer aCtx (withDesc (aDesc 0x3E 7 (2 + 40 * 2 ^ 32 + 4096 * 2 ^ 64)) (live .serve))) := by
  decide +kernel

/-! ### SynthesizersCommitLockAndRecover -/

theorem test_SynthesizersCommitLockAndRecover_1 : (fun (d : Die) (m : Nat) (v : Word) (s : State) => (s.Idle) ∧ (diePresent s d = true) ∧ (m < 4) ∧ (verdict s .CKS d false = .take) ∧ (rfc s F.DEV_MODE.LOCKED 0 = 0) ∧ (bitn v.toNat 0 = true) ∧ ((synth s d m).phase = .locked) ∧ ((synth s d m).n = (planStage s d m (fld v.toNat 1 1) (fld v.toNat 8 6)).n) ∧ ((synth s d m).pfd = (planStage s d m (fld v.toNat 1 1) (fld v.toNat 8 6)).pfd)) .east 0 0x101 (lockedSynth 0 (live .serve)) := by
  decide +kernel

theorem test_SynthesizersCommitLockAndRecover_2 : (fun (d : Die) (m : Nat) (v : Word) (s : State) => (s.Idle) ∧ (diePresent s d = true) ∧ (m < 4) ∧ (verdict s .CKS d false = .take) ∧ (rfc s F.DEV_MODE.LOCKED 0 = 0) ∧ (bitn v.toNat 0 = true) ∧ ((synth s d m).phase ≠ .locked) ∧ ((synth s d m).phase ≠ .failed)) .east 0 0x103 (withSynth 0 .stored (lockedSynth 0 (live .serve))) := by
  decide +kernel

theorem test_SynthesizersCommitLockAndRecover_3 : (fun (d : Die) (m : Nat) (v : Word) (s : State) => (s.Idle) ∧ (diePresent s d = true) ∧ (m < 4) ∧ (verdict s .CKS d false = .take) ∧ (rfc s F.DEV_MODE.LOCKED 0 = 1)) .east 0 0x103 (wfc F.DEV_MODE.LOCKED 1 0 (lockedSynth 0 (live .serve))) := by
  decide +kernel

theorem test_SynthesizersCommitLockAndRecover_4 : (fun (d : Die) (m k : Nat) (o : OutSt) (s : State) => ((synth s d m).phase = .locked) ∧ ((synth s d m).outs[k]? = some o)) .east 0 1 (⟨2, 0, 3, true⟩) (onSynth .east 0 (fun y => { y with outs := [⟨4, 0, 0, true⟩, ⟨2, 0, 3, true⟩] }) (lockedSynth 0 (live .serve))) := by
  decide +kernel

theorem test_SynthesizersCommitLockAndRecover_5 : (fun (d : Die) (m : Nat) (s : State) => (s.Idle) ∧ (diePresent s d = true) ∧ (m < 4) ∧ ((synth s d m).phase = .locked) ∧ (rfb s F.CKS_INJ.ARMED d m = false) ∧ (isM m = false) ∧ ((die s d).refLost = false)) .east 0 (lockedSynth 0 (live .serve)) := by
  decide +kernel

theorem test_SynthesizersCommitLockAndRecover_6 : (fun (d : Die) (m : Nat) (s : State) => (s.Idle) ∧ (diePresent s d = true) ∧ (m < 4) ∧ ((synth s d m).phase = .locked) ∧ (rfb s F.CKS_INJ.ARMED d m = true) ∧ (isM m = true)) .east 1 (wf F.CKS_INJ.ARMED .east 1 1 (lockedSynth 1 (live .serve))) := by
  decide +kernel

theorem test_SynthesizersCommitLockAndRecover_7 : (fun (d : Die) (m : Nat) (s : State) => (s.Idle) ∧ (diePresent s d = true) ∧ (m < 4) ∧ ((synth s d m).phase = .locked) ∧ (rfb s F.CKS_INJ.ARMED d m = false) ∧ (isM m = true)) .east 1 (lockedSynth 1 (live .serve)) := by
  decide +kernel

theorem test_SynthesizersCommitLockAndRecover_8 : (fun (d : Die) (m : Nat) (s : State) => (s.Idle) ∧ (diePresent s d = true) ∧ (m < 4) ∧ ((synth s d m).phase = .quiesce) ∧ ((synthSubs m).all (fun i => subQuiet (sub s d i)) = true) ∧ ((die s d).refLost = false)) .east 2 (withSynth 2 .quiesce (lockedSynth 2 (live .serve))) := by
  decide +kernel

theorem test_SynthesizersCommitLockAndRecover_9 : (fun (d : Die) (m : Nat) (s : State) => (s.Idle) ∧ (diePresent s d = true) ∧ (m < 4) ∧ ((synth s d m).phase = .stored)) .east 0 (withSynth 0 .stored (lockedSynth 0 (live .serve))) := by
  decide +kernel

theorem test_SynthesizersCommitLockAndRecover_10 : (fun (d : Die) (m band k : Nat) (b : BandSt) (s : State) => (s.Idle) ∧ (diePresent s d = true) ∧ (m < 4) ∧ ((synth s d m).phase = .stored) ∧ (bandSlot (synth s d m) = some (k, b)) ∧ (band = b.band ∨ band + 1 = b.band ∨ band = b.band + 1) ∧ (band < 64)) .east 0 21 2 (⟨0, 72, 20, 40, 1⟩) (onSynth .east 0 (fun y => { y with phase := .stored, bands := [(2, ⟨0, 72, 20, 40, 1⟩)] }) (lockedSynth 0 (live .serve))) := by
  decide +kernel

theorem test_SynthesizersCommitLockAndRecover_11 : (fun (d : Die) (m : Nat) (s : State) => (s.Idle) ∧ (diePresent s d = true) ∧ (m < 4) ∧ ((synth s d m).phase = .qualify)) .east 0 (withSynth 0 .qualify (lockedSynth 0 (live .serve))) := by
  decide +kernel

theorem test_SynthesizersCommitLockAndRecover_12 : (fun (d : Die) (m : Nat) (s : State) => (s.Idle) ∧ (diePresent s d = true) ∧ (m < 4) ∧ ((synth s d m).phase = .relocked) ∧ (isM m = false) ∧ ((synth s d m).pend = none) ∧ (s.dev.trans = none)) .east 0 (onSynth .east 0 (fun y => { y with phase := .relocked, lost := true }) (lockedSynth 0 (live .serve))) := by
  decide +kernel

theorem test_SynthesizersCommitLockAndRecover_13 : (fun (d : Die) (m : Nat) (s : State) => (s.Idle) ∧ (diePresent s d = true) ∧ (m < 4) ∧ ((synth s d m).phase = .relocked) ∧ (isM m = true) ∧ ((synth s d m).pend = none) ∧ (s.dev.trans = none) ∧ ((synthChans m).all (fun c => (chan s d c).clockRec && (chan s d c).frozen.isNone) = true)) .east 1 (each [0, 1, 2] (fun c => onChan .east c (fun x => { x with clockRec := true })) (onSynth .east 1 (fun y => { y with phase := .relocked, lost := true }) (lockedSynth 1 (live .serve)))) := by
  decide +kernel

theorem test_SynthesizersCommitLockAndRecover_14 : (fun (d : Die) (m k b : Nat) (temp : Int) (s : State) => (s.Idle) ∧ (diePresent s d = true) ∧ (m < 4) ∧ ((synth s d m).phase = .search k) ∧ (b < 64) ∧ (isM m = false ∨ s.dev.mode ≠ .boot ∨ livePoint s d m ≠ 1)) .east 0 1 33 40 (withSynth 0 (.search 1) (lockedSynth 0 (live .serve))) := by
  decide +kernel

theorem test_SynthesizersCommitLockAndRecover_15 : (fun (d : Die) (m k b : Nat) (temp : Int) (s : State) => (s.Idle) ∧ (diePresent s d = true) ∧ (m < 4) ∧ ((synth s d m).phase = .search k) ∧ (b < 64) ∧ (isM m = true) ∧ (s.dev.mode = .boot) ∧ (livePoint s d m = 1)) .east 1 1 33 40 (wf F.CKS_STATUS.POINT .east 1 1 (withSynth 1 (.search 1) (lockedSynth 1 (live .boot)))) := by
  decide +kernel

theorem test_SynthesizersCommitLockAndRecover_16 : (fun (d : Die) (m : Nat) (temp : Int) (s : State) => (s.Idle) ∧ (diePresent s d = true) ∧ (m < 4) ∧ ((synth s d m).phase = .search 1)) .east 0 40 (withSynth 0 (.search 1) (lockedSynth 0 (live .serve))) := by
  decide +kernel

theorem test_SynthesizersCommitLockAndRecover_17 : (fun (d : Die) (temp : Int) (s : State) => (s.Idle) ∧ (diePresent s d = true) ∧ ((synth s d 3).phase = .search 2)) .east 40 (withSynth 3 (.search 2) (lockedSynth 3 (live .serve))) := by
  decide +kernel

theorem test_SynthesizersCommitLockAndRecover_18 : (fun (d : Die) (m : Nat) (s : State) => (s.Idle) ∧ (diePresent s d = true) ∧ (m < 4) ∧ (verdict s .CKS d false = .take)) .east 0 (lockedSynth 0 (live .serve)) := by
  decide +kernel

theorem test_SynthesizersCommitLockAndRecover_19 : (fun (d : Die) (m : Nat) (s : State) => (s.Idle) ∧ (diePresent s d = true) ∧ (m < 4) ∧ (verdict s .CKS d false = .take)) .east 0 (lockedSynth 0 (live .serve)) := by
  decide +kernel

/-! ### LossOfRefclkStopsBothDies -/

theorem test_LossOfRefclkStopsBothDies_1 : (fun (s : State) => (s.Idle) ∧ (s.east.refLost = false) ∧ (s.west.refLost = false)) (portUp0 (locked4 (live .serve))) := by
  decide +kernel

theorem test_LossOfRefclkStopsBothDies_2 : (fun (d : Die) (m : Nat) (s : State) => (s.Idle) ∧ (diePresent s d = true) ∧ (m < 4) ∧ ((die s d).refLost = true) ∧ ((synth s d m).phase = .off) ∧ ((synth s d m).lost = true)) .east 0 (onDie .east (fun x => { x with refLost := true }) (onSynth .east 0 (fun y => { y with phase := .off, lost := true }) (live .serve))) := by
  decide +kernel

theorem test_LossOfRefclkStopsBothDies_3 : (fun (s : State) => (s.Idle) ∧ ((die s (seniorDie s)).refLost = true) ∧ (s.dev.mode ≠ .hold) ∧ (s.dev.mode ≠ .boot) ∧ ((synth s (seniorDie s) 0).phase ≠ .failed)) (onDie .east (fun x => { x with refLost := true }) (locked4 (live .serve))) := by
  decide +kernel

/-! ### PowerAndResetBringTheDeviceToTrain -/

theorem test_PowerAndResetBringTheDeviceToTrain_1 : (fun (w : Bool) (den rank p3 : Nat) (te : Bool) (s : State) => (s.Idle) ∧ (s.pins.pwrOk = false) ∧ (perstReset s = true)) false 1 1 0 false ({ State.reset with pins := { PinSt.reset with perst0 := true }, dev := { State.reset.dev with part := .km1612 } }) := by
  decide +kernel

theorem test_PowerAndResetBringTheDeviceToTrain_2 : (fun (w : Bool) (den rank p3 : Nat) (s : State) => (s.Idle) ∧ (s.pins.pwrOk = false) ∧ (perstReset s = false) ∧ (s.dev.mode = .boot) ∧ (s.east.refLost = false) ∧ (s.west.refLost = false)) true 1 1 0 State.reset := by
  decide +kernel

theorem test_PowerAndResetBringTheDeviceToTrain_3 : (fun (w : Bool) (den rank p3 k : Nat) (s : State) => (s.Idle) ∧ (s.pins.pwrOk = false) ∧ (perstReset s = false) ∧ (s.dev.mode = .boot) ∧ (s.east.refLost = false) ∧ (s.west.refLost = false) ∧ (fwBoots s.dev.flash = some k)) true 1 1 0 0 ({ State.reset with dev := { State.reset.dev with flash := { State.reset.dev.flash with fw0 := true } } }) := by
  decide +kernel

theorem test_PowerAndResetBringTheDeviceToTrain_4 : (fun (s : State) => (s.pins.pwrOk = true) ∧ (s.dev.flash.jobs = [])) (withRegion 0) := by
  decide +kernel

theorem test_PowerAndResetBringTheDeviceToTrain_5 : (fun (p : Die) (s : State) => (diePresent s p = true) ∧ (perstReset (setPerst p true s) = true) ∧ (s.pins.pwrOk = true) ∧ (s.pins.thermTrip = false) ∧ (s.dev.flash.jobs = [])) .west (setPerst .east true (withRegion 0)) := by
  decide +kernel

theorem test_PowerAndResetBringTheDeviceToTrain_6 : (fun (p : Die) (s : State) => (s.Idle) ∧ (diePresent s p = true) ∧ (perstReset (setPerst p true s) = false) ∧ (portUp s p = true) ∧ (s.ops = []) ∧ (s.fw.xfer = none) ∧ (portDb s p = false)) .east (withHost (live .serve)) := by
  decide +kernel

theorem test_PowerAndResetBringTheDeviceToTrain_7 : (fun (p : Die) (s : State) => (s.Idle) ∧ (diePresent s p = true) ∧ (perstLow s p = true) ∧ (s.dev.mode ≠ .boot) ∧ (s.dev.mode ≠ .hold) ∧ (s.dev.trans = none)) .east (wf F.HPC_LINK_STATUS.RUNG .east 0 3 (hostsEn (setPerst .east true (live .serve)))) := by
  decide +kernel

theorem test_PowerAndResetBringTheDeviceToTrain_8 : (fun (s : State) => (s.Idle) ∧ (s.dev.mode = .boot) ∧ (s.pins.pwrOk = true) ∧ (s.dev.straps.testEn = false) ∧ (perstReset s = false) ∧ ((diesPresent s).all (fun d => [0, 1, 2].all (fun m => (synth s d m).phase == .locked)) = true) ∧ ((die s (seniorDie s)).drbgStopped = false)) (locked4 (inMode .boot)) := by
  decide +kernel

theorem test_PowerAndResetBringTheDeviceToTrain_9 : (fun (s : State) => (rfc s F.DEV_MODE.LOCKED 0 = 1) ∧ (rfc s F.CFG_STATUS.CHECKED 0 = 0)) (wfc F.DEV_MODE.LOCKED 1 0 (live .serve)) := by
  decide +kernel

/-! ### ModesChangeAsRequested -/

theorem test_ModesChangeAsRequested_1 : (fun (s : State) => (s.Idle) ∧ (verdict s .DEV .east false = .take) ∧ (s.dev.mode = .serve ∨ s.dev.mode = .degraded) ∧ (s.dev.trans = none)) (locked4 (live .serve)) := by
  decide +kernel

theorem test_ModesChangeAsRequested_2 : (fun (s : State) => (s.Idle) ∧ (verdict s .DEV .east false = .take) ∧ (s.dev.mode = .thrift) ∧ (s.dev.trans = none)) (locked4 (live .thrift)) := by
  decide +kernel

theorem test_ModesChangeAsRequested_3 : (fun (s : State) => (s.Idle) ∧ (verdict s .DEV .east false = .take) ∧ (s.dev.mode = .thrift) ∧ (s.dev.trans = none)) (locked4 (live .thrift)) := by
  decide +kernel

theorem test_ModesChangeAsRequested_4 : (fun (s : State) => (s.Idle) ∧ (verdict s .DEV .east false = .take) ∧ (s.dev.mode = .serve ∨ s.dev.mode = .degraded) ∧ (s.dev.trans = none)) (live .degraded) := by
  decide +kernel

theorem test_ModesChangeAsRequested_5 : (fun (s : State) => (s.Idle) ∧ (verdict s .DEV .east false = .take) ∧ (s.dev.mode = .train) ∧ (s.dev.trans = none)) (live .train) := by
  decide +kernel

theorem test_ModesChangeAsRequested_6 : (fun (s : State) => (s.Idle) ∧ (verdict s .DEV .east false = .take) ∧ (s.dev.mode = .train) ∧ (s.dev.trans = none)) (live .train) := by
  decide +kernel

theorem test_ModesChangeAsRequested_7 : (fun (s : State) => (s.Idle) ∧ (verdict s .DEV .east false = .take) ∧ (serving s = true) ∧ (s.dev.trans = none) ∧ (holdBarred s = false)) (live .serve) := by
  decide +kernel

theorem test_ModesChangeAsRequested_8 : (fun (s : State) => (s.Idle) ∧ (verdict s .DEV .east false = .take) ∧ (s.dev.trans = none) ∧ (holdBarred s = true)) (onSru .east (fun u => { u with evac := some ⟨3, 5, 0, false, false, [], [], 0, false⟩ }) (live .serve)) := by
  decide +kernel

theorem test_ModesChangeAsRequested_9 : (fun (s : State) => (s.Idle) ∧ (verdict s .DEV .east false = .take) ∧ (s.dev.trans.isSome = true)) ({ live .serve with dev := { (live .serve).dev with trans := some .toHold } }) := by
  decide +kernel

theorem test_ModesChangeAsRequested_10 : (fun (s : State) => (s.Idle) ∧ (verdict s .DEV .east false = .take) ∧ (s.dev.trans.isSome = true)) ({ live .serve with dev := { (live .serve).dev with trans := some .toHold } }) := by
  decide +kernel

theorem test_ModesChangeAsRequested_11 : (fun (s : State) => (s.Idle) ∧ (verdict s .DEV .east false = .take) ∧ (s.dev.trans.isSome = true)) ({ live .serve with dev := { (live .serve).dev with trans := some .toHold } }) := by
  decide +kernel

theorem test_ModesChangeAsRequested_12 : (fun (s : State) => (s.Idle) ∧ (verdict s .DEV .east false = .take) ∧ (s.dev.mode ≠ .boot) ∧ (s.dev.mode ≠ .hold)) (live .serve) := by
  decide +kernel

theorem test_ModesChangeAsRequested_13 : (fun (s : State) => (s.Idle) ∧ (s.dev.trans = some .toThrift) ∧ ((modeDies s).all (diePoint s 1) = true) ∧ (s.therm.took = false) ∧ (s.dev.mode ≠ .thrift)) (each [Die.east, .west] (fun d => each [0, 1, 2] (fun m => wf F.CKS_STATUS.POINT d m 1)) { locked4 (live .serve) with dev := { (locked4 (live .serve)).dev with trans := some .toThrift } }) := by
  decide +kernel

theorem test_ModesChangeAsRequested_14 : (fun (s : State) => (s.Idle) ∧ (s.dev.trans = some .toHold) ∧ (holdDrained s = true) ∧ ((modeDies s).any (nodesDirty s) = false) ∧ (s.dev.wake = none) ∧ (s.dev.mode ≠ .hold)) ({ locked4 (live .serve) with dev := { (locked4 (live .serve)).dev with trans := some .toHold } }) := by
  decide +kernel

theorem test_ModesChangeAsRequested_15 : (fun (s : State) => (s.Idle) ∧ (s.dev.trans = some .toHold) ∧ (holdDrained s = true) ∧ ((modeDies s).any (nodesDirty s) = true)) (onDie .east (fun x => { x with nodes := [(0, true)] }) { locked4 (live .serve) with dev := { (locked4 (live .serve)).dev with trans := some .toHold } }) := by
  decide +kernel

theorem test_ModesChangeAsRequested_16 : (fun (s : State) => (s.Idle) ∧ (s.dev.trans = some .fromThrift) ∧ ((modeDies s).all (diePoint s 0) = true) ∧ (s.therm.waits = false) ∧ (s.dev.mode = .thrift)) ({ locked4 (live .thrift) with dev := { (locked4 (live .thrift)).dev with trans := some .fromThrift } }) := by
  decide +kernel

theorem test_ModesChangeAsRequested_17 : (fun (s : State) => (s.Idle) ∧ (s.dev.trans = some .fromHold) ∧ ((modeDies s).all (dieAwake s) = true) ∧ (s.therm.took = false) ∧ (s.therm.waits = false) ∧ (s.dev.left = .thrift) ∧ (s.dev.mode = .hold) ∧ (anyFabDown s = false)) ({ locked4 (live .hold) with dev := { (locked4 (live .hold)).dev with trans := some .fromHold, left := .thrift } }) := by
  decide +kernel

theorem test_ModesChangeAsRequested_18 : (fun (s : State) => (s.Idle) ∧ (s.dev.trans = some .toHold) ∧ (s.therm.waits = false) ∧ (s.therm.took = false)) ({ live .serve with dev := { (live .serve).dev with trans := some .toHold } }) := by
  decide +kernel

theorem test_ModesChangeAsRequested_19 : (fun (p : Die) (s : State) => (s.Idle) ∧ (diePresent s p = true) ∧ (portEn s p = true) ∧ (fenced s p = false) ∧ (s.dev.mode = .hold) ∧ (s.dev.trans = none)) .east (hostsEn (live .hold)) := by
  decide +kernel

theorem test_ModesChangeAsRequested_20 : (fun (s : State) => (s.Idle) ∧ (s.dev.mode = .train) ∧ (trainFinished s = true) ∧ (rfc s F.DEV_STATUS.NO_HOST 0 = 0) ∧ ((diesPresent s).any (portEn s) = true) ∧ (imageRegions s = []) ∧ (imageRecords s 3 16 = [])) (hostsEn (trainedDev .train)) := by
  decide +kernel

theorem test_ModesChangeAsRequested_21 : (fun (s : State) => (s.Idle) ∧ (s.dev.mode = .train) ∧ (trainFinished s = true) ∧ (rfc s F.DEV_STATUS.NO_HOST 0 = 0) ∧ ((diesPresent s).any (portEn s) = false)) (trainedDev .train) := by
  decide +kernel

/-! ### ThePassageKeepsOneSenior -/

theorem test_ThePassageKeepsOneSenior_1 : (fun (d : Die) (s : State) => (beating s d = true)) .west (live .serve) := by
  decide +kernel

theorem test_ThePassageKeepsOneSenior_2 : (fun (d : Die) (c ok : Bool) (s : State) => (s.Idle) ∧ (beating s d = true) ∧ (s.psg.resetting = false) ∧ (s.psg.fly.find? (fun p => p.1 == otherDie d) = some (otherDie d, c)) ∧ ((c || !ok) ≠ claims s d)) .west true true ({ live .serve with psg := { (live .serve).psg with claimEast := true, claimWest := false, fly := [(.east, true)] } }) := by
  decide +kernel

theorem test_ThePassageKeepsOneSenior_3 : (fun (d : Die) (c ok : Bool) (s : State) => (s.Idle) ∧ (beating s d = true) ∧ (s.psg.resetting = false) ∧ (s.psg.fly.find? (fun p => p.1 == otherDie d) = some (otherDie d, c)) ∧ ((c || !ok) = claims s d) ∧ ((s.psg.found.filter (fun t => decide (s.nowNs < t + 1000000000))).length < 2)) .west false false ({ live .serve with psg := { (live .serve).psg with claimEast := true, claimWest := true, fly := [(.east, false)] } }) := by
  decide +kernel

theorem test_ThePassageKeepsOneSenior_4 : (fun (d : Die) (c ok : Bool) (s : State) => (s.Idle) ∧ (beating s d = true) ∧ (s.psg.resetting = false) ∧ (s.psg.fly.find? (fun p => p.1 == otherDie d) = some (otherDie d, c)) ∧ ((c || !ok) = claims s d) ∧ (2 ≤ (s.psg.found.filter (fun t => decide (s.nowNs < t + 1000000000))).length) ∧ (s.dev.mode ≠ .boot)) .west false false ({ live .serve with psg := { (live .serve).psg with claimEast := true, claimWest := true, fly := [(.east, false)], found := [0, 0] } }) := by
  decide +kernel

theorem test_ThePassageKeepsOneSenior_5 : (fun (d : Die) (s : State) => (s.Idle) ∧ (beating s d = true) ∧ (s.psg.resetting = false) ∧ (rfb s F.PSG_STATUS.LINK_UP d 0 = true)) .west (wf F.PSG_STATUS.LINK_UP .west 0 1 (live .serve)) := by
  decide +kernel

theorem test_ThePassageKeepsOneSenior_6 : (fun (e w : Bool) (s : State) => (s.Idle) ∧ (s.psg.resetting = true) ∧ (s.psg.lost = false) ∧ (s.psg.disagree = false) ∧ (s.psg.barHeld = []) ∧ (s.east.psgHeld = []) ∧ (s.west.psgHeld = [])) false false ({ live .serve with psg := { (live .serve).psg with resetting := true }, east := { (live .serve).east with cyc := 77 } }) := by
  decide +kernel

theorem test_ThePassageKeepsOneSenior_7 : (fun (e w : Bool) (s : State) => (s.Idle) ∧ (s.psg.resetting = true) ∧ (s.psg.lost = false) ∧ (s.psg.disagree = true) ∧ (s.psg.barHeld = []) ∧ (s.east.psgHeld = []) ∧ (s.west.psgHeld = [])) true true ({ live .serve with psg := { (live .serve).psg with resetting := true, disagree := true }, west := { (live .serve).west with cyc := 77 } }) := by
  decide +kernel

theorem test_ThePassageKeepsOneSenior_8 : (fun (e w : Bool) (s : State) => (s.psg.resetting = true) ∧ (s.psg.lost = false) ∧ (s.psg.disagree = false)) false false ({ live .serve with psg := { (live .serve).psg with resetting := true, barHeld := [⟨.east, 0, 0, 4, none⟩] }, east := { (live .serve).east with cyc := 77 } }) := by
  decide +kernel

theorem test_ThePassageKeepsOneSenior_9 : (fun (l : Bool) (s : State) => (s.Idle) ∧ (partDual s.dev.part = true) ∧ (s.pins.pwrOk = true) ∧ (s.psg.lost = false) ∧ (fenced s (otherDie (seniorDie s)) = false) ∧ (fenced s (seniorDie s) = false) ∧ (s.ops = []) ∧ (s.dev.mode = .serve) ∧ (portAlive s (otherDie (seniorDie s)) = false) ∧ (s.psg.barHeld = []) ∧ (s.east.psgHeld = []) ∧ (s.west.psgHeld = [])) true (live .serve) := by
  decide +kernel

/-! ### CountersWrapAreWrittenAndSnapped -/

theorem test_CountersWrapAreWrittenAndSnapped_1 : (fun (d : Die) (n past : Nat) (s : State) => (n < 64) ∧ (ctrRun s = true) ∧ (bitn (ctrCfg s d n) 24 = true) ∧ (bitn (ctrCfg s d n) 26 = false) ∧ (ctrChained s d n = false) ∧ ((ngetD (die s d).pmc.cnt n 0) < 2 ^ 48) ∧ (past < 2 ^ 48) ∧ (n % 2 = 1 ∨ ctrChained s d (n + 1) = false)) .east 3 7 (wrReg .PMC_CNT_CFG .east 3 (0x0123 + 2 ^ 24) (onPmc .east (fun p => { p with cfg := [(3, 0x0123 + 2 ^ 24)], cnt := [(3, 2 ^ 48 - 5)] }) (live .serve))) := by
  decide +kernel

theorem test_CountersWrapAreWrittenAndSnapped_2 : (fun (d : Die) (n past : Nat) (s : State) => (n < 64) ∧ (ctrRun s = true) ∧ (bitn (ctrCfg s d n) 24 = true) ∧ (bitn (ctrCfg s d n) 26 = true) ∧ (ctrChained s d n = false) ∧ ((ngetD (die s d).pmc.cnt n 0) < 2 ^ 48) ∧ (n % 2 = 1 ∨ ctrChained s d (n + 1) = false) ∧ (nget (die s d).posts (postKey 0x1065 n) = none)) .east 3 7 (wrReg .PMC_CNT_CFG .east 3 (0x0123 + 2 ^ 24 + 2 ^ 26) (onPmc .east (fun p => { p with cfg := [(3, 0x0123 + 2 ^ 24 + 2 ^ 26)], cnt := [(3, 2 ^ 48 - 5)] }) (live .serve))) := by
  decide +kernel

theorem test_CountersWrapAreWrittenAndSnapped_3 : (fun (d : Die) (n : Nat) (s : State) => (n < 64)) .east 3 (wrReg .PMC_CNT_CFG .east 3 (0x0123 + 2 ^ 24) (onPmc .east (fun p => { p with cfg := [(3, 0x0123 + 2 ^ 24)], cnt := [(3, 2 ^ 48 - 5)] }) (live .serve))) := by
  decide +kernel

theorem test_CountersWrapAreWrittenAndSnapped_4 : (fun (d : Die) (n : Nat) (v : Word) (s : State) => (verdict s .PMC d false = .take) ∧ (n < 64)) .east 3 0xABCD1234 (live .serve) := by
  decide +kernel

theorem test_CountersWrapAreWrittenAndSnapped_5 : (fun (d : Die) (n : Nat) (v : Word) (s : State) => (verdict s .PMC d false = .take) ∧ (n < 64)) .east 3 0xABCD1234 (wrReg .PMC_CNT_CFG .east 3 (0x0123 + 2 ^ 24) (onPmc .east (fun p => { p with cfg := [(3, 0x0123 + 2 ^ 24)], cnt := [(3, 2 ^ 48 - 5)] }) (live .serve))) := by
  decide +kernel

theorem test_CountersWrapAreWrittenAndSnapped_6 : (fun (s : State) => (verdict s .CTRG (seniorDie s) false = .take) ∧ (s.snapTarget = none)) (live .serve) := by
  decide +kernel

theorem test_CountersWrapAreWrittenAndSnapped_7 : (fun (d : Die) (T : Nat) (s : State) => (s.snapTarget = some T) ∧ ((snapDies s).contains d = true) ∧ ((die s d).pmc.copied = false) ∧ (coreBypass s d = false) ∧ ((snapDies s).any (fun o => o != d && !(die s o).pmc.copied) = true)) .east 900 ({ wrReg .PMC_CNT_CFG .east 3 (0x0123 + 2 ^ 24) (onPmc .east (fun p => { p with cfg := [(3, 0x0123 + 2 ^ 24)], cnt := [(3, 2 ^ 48 - 5)] }) (live .serve)) with snapTarget := some 900 }) := by
  decide +kernel

theorem test_CountersWrapAreWrittenAndSnapped_8 : (fun (d : Die) (T : Nat) (s : State) => (s.snapTarget = some T) ∧ ((snapDies s).contains d = true) ∧ ((die s d).pmc.copied = false) ∧ ((snapDies s).any (fun o => o != d && !(die s o).pmc.copied) = false)) .east 900 (onPmc .west (fun p => { p with copied := true }) { wrReg .PMC_CNT_CFG .east 3 (0x0123 + 2 ^ 24) (onPmc .east (fun p => { p with cfg := [(3, 0x0123 + 2 ^ 24)], cnt := [(3, 2 ^ 48 - 5)] }) (live .serve)) with snapTarget := some 900 }) := by
  decide +kernel

theorem test_CountersWrapAreWrittenAndSnapped_9 : (fun (s : State) => (verdict s .CTRG (seniorDie s) false = .take) ∧ (s.snapTarget = none) ∧ (rfc s F.CTRG_CTRL.FREEZE 0 ≠ 1)) (live .serve) := by
  decide +kernel

theorem test_CountersWrapAreWrittenAndSnapped_10 : (fun (s : State) => (verdict s .CTRG (seniorDie s) false = .take) ∧ (s.snapTarget = none) ∧ (rfc s F.CTRG_CTRL.FREEZE 0 ≠ 0)) (wfc F.CTRG_CTRL.FREEZE 1 0 (live .serve)) := by
  decide +kernel

theorem test_CountersWrapAreWrittenAndSnapped_11 : (fun (s : State) => (verdict s .CTRG (seniorDie s) false = .take) ∧ (s.snapTarget.isSome = true) ∧ (rfc s F.CTRG_CTRL.FREEZE 0 ≠ 1)) ({ live .serve with snapTarget := some 900 }) := by
  decide +kernel

theorem test_CountersWrapAreWrittenAndSnapped_12 : (fun (s : State) => (verdict s .CTRG (seniorDie s) false = .take) ∧ (s.snapTarget.isSome = true) ∧ (rfc s F.CTRG_CTRL.FREEZE 0 ≠ 0)) ({ wfc F.CTRG_CTRL.FREEZE 1 0 (live .serve) with snapTarget := some 900 }) := by
  decide +kernel

theorem test_CountersWrapAreWrittenAndSnapped_13 : (fun (s : State) => (verdict s .CTRG (seniorDie s) false = .take) ∧ (rfc s F.CTRG_CTRL.FREEZE 0 = 1)) (wfc F.CTRG_CTRL.FREEZE 1 0 (live .serve)) := by
  decide +kernel

theorem test_CountersWrapAreWrittenAndSnapped_14 : (fun (s : State) => (verdict s .CTRG (seniorDie s) false = .take) ∧ (rfc s F.CTRG_CTRL.FREEZE 0 = 0)) (live .serve) := by
  decide +kernel

theorem test_CountersWrapAreWrittenAndSnapped_15 : (fun (s : State) => (verdict s .CTRG (seniorDie s) false = .take) ∧ (s.snapTarget = none)) (wrReg .PMC_CNT_CFG .east 3 (0x0123 + 2 ^ 24) (onPmc .east (fun p => { p with cfg := [(3, 0x0123 + 2 ^ 24)], cnt := [(3, 2 ^ 48 - 5)] }) (live .serve))) := by
  decide +kernel

theorem test_CountersWrapAreWrittenAndSnapped_16 : (fun (s : State) => (verdict s .CTRG (seniorDie s) false = .take) ∧ (s.snapTarget.isSome = true)) ({ wrReg .PMC_CNT_CFG .east 3 (0x0123 + 2 ^ 24) (onPmc .east (fun p => { p with cfg := [(3, 0x0123 + 2 ^ 24)], cnt := [(3, 2 ^ 48 - 5)] }) (live .serve)) with snapTarget := some 900 }) := by
  decide +kernel

theorem test_CountersWrapAreWrittenAndSnapped_17 : (fun (d : Die) (e : Desc) (s : State) => (s.Runs d e 0x80) ∧ (e.phase = 0) ∧ (pmcCheck d e 1056 s = (0, s))) .east (aDesc 0x80 0 0) (withDesc (aDesc 0x80 0 0) (portUp0 (live .serve))) := by
  decide +kernel

theorem test_CountersWrapAreWrittenAndSnapped_18 : (fun (d : Die) (e : Desc) (s : State) => (s.Runs d e 0x80) ∧ (e.phase = 1) ∧ (s.snapTarget = none) ∧ (e.num 8 1 = 0) ∧ (portAlive s d = true) ∧ (e.left = 0)) .east ({ aDesc 0x80 0 0 with phase := 1 }) (withDesc ({ aDesc 0x80 0 0 with phase := 1 }) (portUp0 (live .serve))) := by
  decide +kernel

theorem test_CountersWrapAreWrittenAndSnapped_19 : (fun (d : Die) (e : Desc) (s : State) => (s.Runs d e 0x80) ∧ (e.phase = 1) ∧ (s.snapTarget = none) ∧ (e.num 8 1 = 1)) .east ({ aDesc 0x80 0 1 with phase := 1 }) (withDesc ({ aDesc 0x80 0 1 with phase := 1 }) (withRegion 0)) := by
  decide +kernel

theorem test_CountersWrapAreWrittenAndSnapped_20 : (fun (d : Die) (e : Desc) (s : State) => (s.Runs d e 0x81) ∧ (e.arg = 0) ∧ (e.num 8 1 = 0) ∧ (e.zero 9 7 = true) ∧ (e.zero 24 40 = true) ∧ (portAlive s d = true) ∧ (e.left = 0)) .east (aDesc 0x81 0 0) (withDesc (aDesc 0x81 0 0) (portUp0 (live .serve))) := by
  decide +kernel

theorem test_CountersWrapAreWrittenAndSnapped_21 : (fun (d : Die) (e : Desc) (s : State) => (s.Runs d e 0x81) ∧ (e.arg = 0) ∧ (e.num 8 1 = 1) ∧ (e.zero 9 7 = true) ∧ (e.zero 24 40 = true) ∧ (placeDomain d e.sq (pmcDst e) s = (true, s)) ∧ (placeStatus s (pmcDst e) 128 true = 0)) .east (aDesc 0x81 0 1) (withDesc (aDesc 0x81 0 1) (withRegion 0)) := by
  decide +kernel

theorem test_CountersWrapAreWrittenAndSnapped_22 : (fun (d : Die) (e : Desc) (s : State) => (s.Runs d e 0x81) ∧ (e.num 8 1 = 0) ∧ (e.arg ≠ 0 ∨ e.zero 9 7 = false ∨ e.zero 24 40 = false) ∧ (e.left = 0)) .east (aDesc 0x81 1 0) (withDesc (aDesc 0x81 1 0) (live .serve)) := by
  decide +kernel

theorem test_CountersWrapAreWrittenAndSnapped_23 : (fun (d : Die) (code scope iv : Nat) (k : LimKind) (p : PostLim) (s : State) => (nget (die s d).posts (postKey code scope) = some p) ∧ (limitOf code = some (iv, k)) ∧ (p.held ≠ 0)) .east 0x0401 2 1000000 .countFirst (⟨0, 4, 1, 5, [1, 2], []⟩) (onDie .east (fun x => { x with posts := [(postKey 0x0401 2, ⟨0, 4, 1, 5, [1, 2], []⟩)] }) (live .serve)) := by
  decide +kernel

theorem test_CountersWrapAreWrittenAndSnapped_24 : (fun (d : Die) (code scope : Nat) (p : PostLim) (s : State) => (nget (die s d).posts (postKey code scope) = some p) ∧ (p.held = 0)) .east 0x0401 2 (⟨0, 0, 1, 5, [], []⟩) (onDie .east (fun x => { x with posts := [(postKey 0x0401 2, ⟨0, 0, 1, 5, [], []⟩)] }) (live .serve)) := by
  decide +kernel

/-! ### TemperaturesPowerAndTheThermalRequest -/

theorem test_TemperaturesPowerAndTheThermalRequest_1 : (fun (d : Die) (temps : List Int) (k : Nat) (x : Int) (s : State) => (rf s F.PMC_THROTTLE.BAD_MASK d 0 = 0) ∧ ((List.range 8).all (fun k => decide (-40 ≤ temps.getD k 0) && decide (temps.getD k 0 ≤ 150)) = true) ∧ (hottest ((List.range 8).map (fun k => (k, temps.getD k 0))) = some (k, x))) .east ([30, 31, -5, 33, 90, 35, 36, 37]) 4 90 (live .serve) := by
  decide +kernel

theorem test_TemperaturesPowerAndTheThermalRequest_2 : (fun (d : Die) (temps : List Int) (failed k : Nat) (s : State) => (k < 8) ∧ (bitn failed k = true ∨ temps.getD k 0 < -40 ∨ 150 < temps.getD k 0) ∧ (sensorBad s d k = false)) .east ([30, 31, 32, 33, 34, 35, 36, 37]) 4 2 (live .serve) := by
  decide +kernel

theorem test_TemperaturesPowerAndTheThermalRequest_3 : (fun (d1 d2 : Die) (a b : Int) (s : State) => (s.Idle) ∧ (s.pins.pwrOk = true) ∧ (hotDie (tjMax s) (thermDies s) = some (d1, a)) ∧ (hotDie (fun d => (dramMax s d).temp) (thermDies s) = some (d2, b)) ∧ (s.therm.since = none) ∧ (rfb s F.PMC_THERM_CFG.EN .east 0 = true) ∧ ((throtC s : Int) ≤ a) ∧ (s.dev.mode = .serve ∨ s.dev.mode = .degraded) ∧ (s.dev.trans = none)) .west .east 101 0 (wf F.PMC_THERM_CFG.EN .east 0 1 (wf F.PMC_THERM_CFG.HYST .east 0 5 (wf F.PMC_THERM_CFG.DRAM_C .east 0 95 (wf F.PMC_THERM_CFG.THROT_C .east 0 100 (wf F.PMC_TJ_SUM.TJ_MAX .west 0 101 (wf F.PMC_TJ_SUM.TJ_MAX .east 0 40 (locked4 (live .serve)))))))) := by
  decide +kernel

theorem test_TemperaturesPowerAndTheThermalRequest_4 : (fun (d1 d2 : Die) (a b : Int) (s : State) => (s.Idle) ∧ (s.pins.pwrOk = true) ∧ (hotDie (tjMax s) (thermDies s) = some (d1, a)) ∧ (hotDie (fun d => (dramMax s d).temp) (thermDies s) = some (d2, b)) ∧ (s.therm.since = none) ∧ (a < (throtC s : Int)) ∧ (b < (dramC s : Int))) .east .east 40 0 (wf F.PMC_TJ_SUM.TJ_MAX .west 0 40 (wf F.PMC_TJ_SUM.TJ_MAX .east 0 40 (live .serve))) := by
  decide +kernel

theorem test_TemperaturesPowerAndTheThermalRequest_5 : (fun (d1 d2 : Die) (a b : Int) (t0 : Nat) (s : State) => (s.Idle) ∧ (s.pins.pwrOk = true) ∧ (hotDie (tjMax s) (thermDies s) = some (d1, a)) ∧ (hotDie (fun d => (dramMax s d).temp) (thermDies s) = some (d2, b)) ∧ (s.therm.since = some t0) ∧ (a ≤ (throtC s : Int) - hystC s) ∧ (b ≤ (dramC s : Int) - hystC s) ∧ (s.therm.cool + 1 < 1000)) .east .east 40 0 5 ({ wf F.PMC_THERM_CFG.EN .east 0 1 (wf F.PMC_THERM_CFG.HYST .east 0 5 (wf F.PMC_THERM_CFG.DRAM_C .east 0 95 (wf F.PMC_THERM_CFG.THROT_C .east 0 100 (wf F.PMC_TJ_SUM.TJ_MAX .west 0 40 (wf F.PMC_TJ_SUM.TJ_MAX .east 0 40 (live .thrift)))))) with therm := ⟨some 5, 0, 77, true, false⟩ }) := by
  decide +kernel

theorem test_TemperaturesPowerAndTheThermalRequest_6 : (fun (d1 d2 : Die) (a b : Int) (t0 : Nat) (s : State) => (s.Idle) ∧ (s.pins.pwrOk = true) ∧ (hotDie (tjMax s) (thermDies s) = some (d1, a)) ∧ (hotDie (fun d => (dramMax s d).temp) (thermDies s) = some (d2, b)) ∧ (s.therm.since = some t0) ∧ ((throtC s : Int) - hystC s < a ∨ (dramC s : Int) - hystC s < b)) .west .east 101 0 5 ({ wf F.PMC_THERM_CFG.EN .east 0 1 (wf F.PMC_THERM_CFG.HYST .east 0 5 (wf F.PMC_THERM_CFG.DRAM_C .east 0 95 (wf F.PMC_THERM_CFG.THROT_C .east 0 100 (wf F.PMC_TJ_SUM.TJ_MAX .west 0 101 (wf F.PMC_TJ_SUM.TJ_MAX .east 0 40 (locked4 (live .thrift))))))) with therm := ⟨some 5, 0, 77, true, false⟩ }) := by
  decide +kernel

theorem test_TemperaturesPowerAndTheThermalRequest_7 : (fun (d1 d2 : Die) (a b : Int) (t0 : Nat) (s : State) => (s.Idle) ∧ (s.pins.pwrOk = true) ∧ (hotDie (tjMax s) (thermDies s) = some (d1, a)) ∧ (hotDie (fun d => (dramMax s d).temp) (thermDies s) = some (d2, b)) ∧ (s.therm.since = some t0) ∧ (a ≤ (throtC s : Int) - hystC s) ∧ (b ≤ (dramC s : Int) - hystC s) ∧ (1000 ≤ s.therm.cool + 1)) .east .east 40 0 5 ({ locked4 (wf F.PMC_THERM_CFG.EN .east 0 1 (wf F.PMC_THERM_CFG.HYST .east 0 5 (wf F.PMC_THERM_CFG.DRAM_C .east 0 95 (wf F.PMC_THERM_CFG.THROT_C .east 0 100 (wf F.PMC_TJ_SUM.TJ_MAX .west 0 40 (wf F.PMC_TJ_SUM.TJ_MAX .east 0 40 (live .thrift)))))) ) with nowNs := 60, therm := ⟨some 5, 0, 999, true, false⟩ }) := by
  decide +kernel

theorem test_TemperaturesPowerAndTheThermalRequest_8 : (fun (d : Die) (k : Nat) (temp : Int) (s : State) => (s.Idle) ∧ (diePresent s d = true) ∧ (s.pins.pwrOk = true) ∧ (k < 8) ∧ (115 ≤ temp) ∧ (sensorBad s d k = false) ∧ (rfb s F.PMC_THROTTLE.TRIPPED d 0 = false) ∧ (s.dev.mode ≠ .frozen) ∧ (s.dev.mode ≠ .boot)) .east 2 116 (live .serve) := by
  decide +kernel

/-! ### RegisterWritesAndTheSideband -/

theorem test_RegisterWritesAndTheSideband_1 : (fun (p d : Die) (r : RegName) (a i : Nat) (v : BitVec 64) (sess : Option Nat) (s : State) => (portAlive s p = true) ∧ ((s.psg.resetting && (barDie s a != p || s.psg.barHeld.any (fun x => x.port == p))) = false) ∧ (a % 4 = 0) ∧ (regAt a = some (r, d, i)) ∧ (verdict s (regPlace r).block d (sessOwner s sess) = .take)) .east .east .HPC_LADDER_CFG (regAddr .HPC_LADDER_CFG .east 0) 0 5 none (portUp0 (live .serve)) := by
  decide +kernel

theorem test_RegisterWritesAndTheSideband_2 : (fun (p d : Die) (r : RegName) (a i : Nat) (v : BitVec 64) (sess : Option Nat) (s : State) => (s.Idle) ∧ (portAlive s p = true) ∧ ((s.psg.resetting && (barDie s a != p || s.psg.barHeld.any (fun x => x.port == p))) = false) ∧ (a % 4 = 0) ∧ (regAt a = some (r, d, i)) ∧ (verdict s (regPlace r).block d (sessOwner s sess) = .locked) ∧ (hasFlags r = false)) .east .east .HPC_LADDER_CFG (regAddr .HPC_LADDER_CFG .east 0) 0 5 none (portUp0 (live .frozen)) := by
  decide +kernel

theorem test_RegisterWritesAndTheSideband_3 : (fun (p : Die) (a size : Nat) (v : BitVec 64) (sess : Option Nat) (s : State) => (s.Idle) ∧ (portAlive s p = true) ∧ ((s.psg.resetting && (barDie s a != p || s.psg.barHeld.any (fun x => x.port == p))) = false) ∧ (size < 4)) .east 64 2 9 none (portUp0 (live .serve)) := by
  decide +kernel

theorem test_RegisterWritesAndTheSideband_4 : (fun (p : Die) (a : Nat) (v : BitVec 64) (sess : Option Nat) (s : State) => (portAlive s p = true) ∧ ((s.psg.resetting && (barDie s a != p || s.psg.barHeld.any (fun x => x.port == p))) = false) ∧ (a % 8 = 0)) .east (regAddr .HPC_LADDER_CFG .east 0 / 8 * 8) 5 none (portUp0 (live .serve)) := by
  decide +kernel

theorem test_RegisterWritesAndTheSideband_5 : (fun (p : Die) (a size : Nat) (v : BitVec 64) (sess : Option Nat) (s : State) => (s.Idle) ∧ (portAlive s p = true) ∧ ((s.psg.resetting && (barDie s a != p || s.psg.barHeld.any (fun x => x.port == p))) = true)) .east (regAddr .HPC_LADDER_CFG .west 0) 4 5 none ({ portUp0 (live .serve) with psg := { (portUp0 (live .serve)).psg with resetting := true } }) := by
  decide +kernel

theorem test_RegisterWritesAndTheSideband_6 : (fun (a i : Nat) (r : RegName) (d : Die) (s : State) => (s.pins.pwrOk = true) ∧ (regAt a = some (r, d, i)) ∧ (sidebandReads r = true)) (regAddr .DEV_MODE .east 0) 0 .DEV_MODE ((winOf (regAddr .DEV_MODE .east 0)).1) (live .serve) := by
  decide +kernel

theorem test_RegisterWritesAndTheSideband_7 : (fun (a : Nat) (s : State) => (s.pins.pwrOk = true) ∧ ((regAt a).all (fun q => !(sidebandReads q.1)) = true)) (regAddr .HPC_LADDER_CFG .east 0) (live .serve) := by
  decide +kernel

theorem test_RegisterWritesAndTheSideband_8 : (fun (v : Word) (s : State) => (s.Idle) ∧ (s.pins.pwrOk = true) ∧ (bitn v.toNat 3 = true) ∧ (s.dev.mode ≠ .boot) ∧ (s.dev.mode ≠ .hold) ∧ (s.dev.trans = none)) 0x1F (live .serve) := by
  decide +kernel

theorem test_RegisterWritesAndTheSideband_9 : (fun (v : Word) (s : State) => (s.Idle) ∧ (s.pins.pwrOk = true) ∧ (bitn v.toNat 3 = false) ∧ (bitn v.toNat 1 = true) ∧ (s.dev.mode = .thrift) ∧ (s.dev.trans = none)) 7 (locked4 (live .thrift)) := by
  decide +kernel

theorem test_RegisterWritesAndTheSideband_10 : (fun (v : Word) (s : State) => (s.Idle) ∧ (s.pins.pwrOk = true) ∧ (bitn v.toNat 3 = false) ∧ (bitn v.toNat 1 = true) ∧ (s.dev.mode = .hold) ∧ (s.dev.trans = none)) 2 (locked4 (live .hold)) := by
  decide +kernel

theorem test_RegisterWritesAndTheSideband_11 : (fun (a : Nat) (v : Word) (s : State) => (a ≠ regAddr .DEV_MODE_CTRL .east 0)) 64 5 (live .serve) := by
  decide +kernel

theorem test_RegisterWritesAndTheSideband_12 : (fun (r : EventRec) (rs : List EventRec) (s : State) => (s.pins.pwrOk = true) ∧ (s.sideband = r :: rs)) (⟨7, 0x1001, 0, 0, []⟩) ([]) ({ live .serve with sideband := [⟨7, 0x1001, 0, 0, []⟩] }) := by
  decide +kernel

theorem test_RegisterWritesAndTheSideband_13 : (fun (s : State) => (s.pins.pwrOk = true) ∧ (s.sideband = [])) (live .serve) := by
  decide +kernel

theorem test_RegisterWritesAndTheSideband_14 : (fun (code : Nat) (bs : List Byte) (s : State) => (s.pins.pwrOk = true) ∧ (0x20 ≤ code) ∧ (code ≤ 0x2F)) 0x21 ([1, 2]) (live .serve) := by
  decide +kernel

theorem test_RegisterWritesAndTheSideband_15 : (fun (code slot : Nat) (bs : List Byte) (sig : Bool) (s : State) => (flashLive s = true) ∧ (0x20 ≤ code) ∧ (code ≤ 0x2F) ∧ (slot < 2)) 0x21 1 ([1, 2]) true (live .serve) := by
  decide +kernel

theorem test_RegisterWritesAndTheSideband_16 : (fun (bs : List Byte) (s : State) => (flashLive s = true)) ([1, 2]) (live .serve) := by
  decide +kernel

theorem test_RegisterWritesAndTheSideband_17 : (fun (p : Die) (n : Nat) (x : SpdmSess) (bs : List Byte) (s : State) => (mboxOpen s p = true) ∧ (3 ≤ s.spdm.stage) ∧ (nget s.spdm.sessions n = some x) ∧ (x.open_ = true) ∧ (flashLive s = true) ∧ (rfc s F.SEC_POLICY.LOCKDOWN 0 = 0 ∨ x.owner = true)) .east 3 (⟨true, true, 0⟩) ([1, 2]) (withSession ⟨true, true, 0⟩ (live .serve)) := by
  decide +kernel

theorem test_RegisterWritesAndTheSideband_18 : (fun (bs : List Byte) (js : List FlashJob) (s : State) => (flashLive s = true) ∧ (nextJobs s.dev.flash = .image bs :: js) ∧ (s.dev.flash.half = false)) ([1, 2]) ([]) ({ (live .serve) with dev := { (live .serve).dev with flash := { (live .serve).dev.flash with jobs := [.image [1, 2]], half := false } } }) := by
  decide +kernel

theorem test_RegisterWritesAndTheSideband_19 : (fun (bs : List Byte) (s : State) => (flashLive s = true) ∧ (nextJobs s.dev.flash = [.image bs]) ∧ (s.dev.flash.half = true)) ([1, 2]) ({ (live .serve) with dev := { (live .serve).dev with flash := { (live .serve).dev.flash with jobs := [.image [1, 2]], half := true } } }) := by
  decide +kernel

theorem test_RegisterWritesAndTheSideband_20 : (fun (bs : List Byte) (js : List FlashJob) (s : State) => (flashLive s = true) ∧ (nextJobs s.dev.flash = .image bs :: js) ∧ (s.dev.flash.half = false)) ([1, 2]) ([]) ({ (live .serve) with dev := { (live .serve).dev with flash := { (live .serve).dev.flash with jobs := [.image [1, 2]], half := false } } }) := by
  decide +kernel

theorem test_RegisterWritesAndTheSideband_21 : (fun (rs : List (BitVec 64)) (js : List FlashJob) (s : State) => (flashLive s = true) ∧ (nextJobs s.dev.flash = .repair rs :: js) ∧ (s.dev.flash.half = false)) ([5]) ([.image [1]]) ({ (live .serve) with dev := { (live .serve).dev with flash := { (live .serve).dev.flash with jobs := [.image [1], .repair [5]], half := false } } }) := by
  decide +kernel

theorem test_RegisterWritesAndTheSideband_22 : (fun (a : Option Key) (b : NMap (List Byte)) (js : List FlashJob) (s : State) => (flashLive s = true) ∧ (nextJobs s.dev.flash = (.secrets a b) :: js) ∧ (s.dev.flash.half = false)) none ([]) ([]) ({ (live .serve) with dev := { (live .serve).dev with flash := { (live .serve).dev.flash with jobs := [.secrets none []], half := false } } }) := by
  decide +kernel

/-! ### TheTestAccessPort -/

theorem test_TheTestAccessPort_1 : (fun (d : Die) (s : State) => (diePresent s d = true)) .east (live .serve) := by
  decide +kernel

theorem test_TheTestAccessPort_2 : (fun (d : Die) (pins cells : Nat) (s : State) => (diePresent s d = true)) .east 5 9 (live .serve) := by
  decide +kernel

theorem test_TheTestAccessPort_3 : (fun (d : Die) (s : State) => (diePresent s d = true)) .east (live .serve) := by
  decide +kernel

theorem test_TheTestAccessPort_4 : (fun (d : Die) (pins : Nat) (s : State) => (diePresent s d = true)) .east 5 ({ live .serve with dev := { (live .serve).dev with straps := { (live .serve).dev.straps with testEn := true } } }) := by
  decide +kernel

theorem test_TheTestAccessPort_5 : (fun (d : Die) (pins : Nat) (s : State) => (diePresent s d = true)) .east 5 ({ live .serve with dev := { (live .serve).dev with straps := { (live .serve).dev.straps with testEn := true } } }) := by
  decide +kernel

theorem test_TheTestAccessPort_6 : (fun (d : Die) (pins : Nat) (s : State) => (diePresent s d = true)) .east 5 ({ live .serve with dev := { (live .serve).dev with straps := { (live .serve).dev.straps with testEn := true } } }) := by
  decide +kernel

theorem test_TheTestAccessPort_7 : (fun (d : Die) (s : State) => (diePresent s d = true)) .east ({ live .serve with dev := { (live .serve).dev with straps := { (live .serve).dev.straps with testEn := true } } }) := by
  decide +kernel

theorem test_TheTestAccessPort_8 : (fun (d : Die) (s : State) => (diePresent s d = true)) .east ({ live .serve with dev := { (live .serve).dev with straps := { (live .serve).dev.straps with testEn := true } } }) := by
  decide +kernel

/-! ### StepRunsTheFrontCommand -/

theorem test_StepRunsTheFrontCommand_1 : (fun (s : State) => (s.pending = [])) (live .serve) := by
  decide +kernel

/-! ### ResetLeavesTheGivenValues -/

theorem test_ResetLeavesTheGivenValues_1 : (fun (r : RegName) (f : Fld) (d : Die) (i : Nat) => (f ∈ regFields r)) .DEV_MODE F.DEV_MODE.MODE .east 0 := by
  decide +kernel

/-! ### EveryStepDoesAllItsWork -/

theorem test_EveryStepDoesAllItsWork_1 : (fun (s : State) => (s.todo = [])) (live .serve) := by
  decide +kernel

/-! ### NoModeCommandLeavesFrozen -/

theorem test_NoModeCommandLeavesFrozen_1 : (fun (s : State) => (s.Idle) ∧ (s.dev.mode = .frozen) ∧ (s.dev.trans = none)) (live .frozen) := by
  decide +kernel

theorem test_NoModeCommandLeavesFrozen_2 : (fun (s : State) => (s.Idle) ∧ (s.dev.mode = .frozen) ∧ (s.dev.trans = none)) (live .frozen) := by
  decide +kernel

theorem test_NoModeCommandLeavesFrozen_3 : (fun (s : State) => (s.Idle) ∧ (s.dev.mode = .frozen) ∧ (s.dev.trans = none)) (live .frozen) := by
  decide +kernel

theorem test_NoModeCommandLeavesFrozen_4 : (fun (s : State) => (s.Idle) ∧ (s.dev.mode = .frozen) ∧ (s.dev.trans = none)) (live .frozen) := by
  decide +kernel

theorem test_NoModeCommandLeavesFrozen_5 : (fun (s : State) => (s.Idle) ∧ (s.dev.mode = .frozen) ∧ (s.dev.trans = none)) (live .frozen) := by
  decide +kernel

theorem test_NoModeCommandLeavesFrozen_6 : (fun (s : State) => (s.Idle) ∧ (s.dev.mode = .frozen) ∧ (s.dev.trans = none)) (live .frozen) := by
  decide +kernel

theorem test_NoModeCommandLeavesFrozen_7 : (fun (p : Die) (s : State) => (s.Idle) ∧ (s.dev.mode = .frozen) ∧ (s.dev.trans = none)) .east (live .frozen) := by
  decide +kernel

theorem test_NoModeCommandLeavesFrozen_8 : (fun (s : State) => (s.Idle) ∧ (s.dev.mode = .frozen) ∧ (s.dev.trans = none)) (live .frozen) := by
  decide +kernel

theorem test_NoModeCommandLeavesFrozen_9 : (fun (s : State) => (s.Idle) ∧ (s.dev.mode = .frozen) ∧ (s.dev.trans = none)) (live .frozen) := by
  decide +kernel

theorem test_NoModeCommandLeavesFrozen_10 : (fun (s : State) => (s.Idle) ∧ (s.dev.mode = .frozen) ∧ (s.dev.trans = none)) (live .frozen) := by
  decide +kernel

theorem test_NoModeCommandLeavesFrozen_11 : (fun (s : State) => (s.Idle) ∧ (s.dev.mode = .frozen) ∧ (s.dev.trans = none)) (live .frozen) := by
  decide +kernel

theorem test_NoModeCommandLeavesFrozen_12 : (fun (d : Die) (k : Nat) (x : Int) (s : State) => (s.Idle) ∧ (s.dev.mode = .frozen) ∧ (s.dev.trans = none)) .east 2 120 (live .frozen) := by
  decide +kernel

theorem test_NoModeCommandLeavesFrozen_13 : (fun (a : Nat) (v : Word) (s : State) => (s.Idle) ∧ (s.dev.mode = .frozen) ∧ (s.dev.trans = none)) (regAddr .DEV_MODE_CTRL .east 0) 15 (live .frozen) := by
  decide +kernel

theorem test_NoModeCommandLeavesFrozen_14 : (fun (p : Die) (s : State) => (s.Idle) ∧ (s.dev.mode = .frozen) ∧ (s.dev.trans = none)) .east (live .frozen) := by
  decide +kernel

theorem test_NoModeCommandLeavesFrozen_15 : (fun (s : State) => (s.dev.mode = .frozen) ∧ (s.pending = [])) (live .frozen) := by
  decide +kernel

/-! ### FieldsFollowTheirAccessTypes -/

theorem test_FieldsFollowTheirAccessTypes_1 : (fun (r : RegName) (f : Fld) (d : Die) (i v : Nat) (s : State) => (f ∈ regFields r) ∧ (f.acc = .RW) ∧ (i < regCopies r)) .HPC_LINK_CFG F.HPC_LINK_CFG.EN .east 0 16 (live .serve) := by
  decide +kernel

theorem test_FieldsFollowTheirAccessTypes_2 : (fun (r : RegName) (f : Fld) (d : Die) (i v : Nat) (s : State) => (f ∈ regFields r) ∧ (f.acc = .RO ∨ f.acc = .W1S ∨ f.acc = .WO) ∧ (r ≠ .DEV_IGNORED_COUNT) ∧ (i < regCopies r)) .DEV_MODE F.DEV_MODE.MODE .east 0 16 (live .serve) := by
  decide +kernel

theorem test_FieldsFollowTheirAccessTypes_3 : (fun (r : RegName) (f : Fld) (d : Die) (i v k : Nat) (s : State) => (f ∈ regFields r) ∧ (f.acc = .W1C) ∧ (k < f.w) ∧ (i < regCopies r)) .HPC_STATUS F.HPC_STATUS.BAD_ACC .east 0 16 0 (live .serve) := by
  decide +kernel

theorem test_FieldsFollowTheirAccessTypes_4 : (fun (r : RegName) (f : Fld) (d : Die) (i v : Nat) (s : State) => (f ∈ regFields r) ∧ (f.acc = .RWL) ∧ (i < regCopies r) ∧ (rfc s F.DEV_MODE.LOCKED 0 = 0 ∨ rwlChanged r (rdReg s r d i) v = false)) .CFE_POP F.CFE_POP.RANKS .east 0 16 (live .train) := by
  decide +kernel

theorem test_FieldsFollowTheirAccessTypes_5 : (fun (r : RegName) (f : Fld) (d : Die) (i v : Nat) (s : State) => (f ∈ regFields r) ∧ (f.acc = .RWL) ∧ (i < regCopies r) ∧ (rfc s F.DEV_MODE.LOCKED 0 = 1) ∧ (rwlChanged r (rdReg s r d i) v = true)) .CFE_POP F.CFE_POP.RANKS .east 0 0xFF (wfc F.DEV_MODE.LOCKED 1 0 (live .serve)) := by
  decide +kernel

/-! ### AbsentUnitsReadZeroAndIgnoreWrites -/

theorem test_AbsentUnitsReadZeroAndIgnoreWrites_1 : (fun (d : Die) (s : State) => (diePresent s d = true)) .west (live .serve) := by
  decide +kernel

theorem test_AbsentUnitsReadZeroAndIgnoreWrites_2 : (fun (a i : Nat) (r : RegName) (d : Die) (s : State) => (regAt a = some (r, d, i)) ∧ (blockAbsent s (regPlace r).block d = true)) (regAddr .LKE_CFG .east 0) 0 .LKE_CFG .east ({ live .serve with dev := { (live .serve).dev with part := .km1622 } }) := by
  decide +kernel

theorem test_AbsentUnitsReadZeroAndIgnoreWrites_3 : (fun (p d : Die) (a i : Nat) (r : RegName) (v : BitVec 64) (sess : Option Nat) (s : State) => (s.Idle) ∧ (portAlive s p = true) ∧ ((s.psg.resetting && (barDie s a != p || s.psg.barHeld.any (fun x => x.port == p))) = false) ∧ (a % 4 = 0) ∧ (regAt a = some (r, d, i)) ∧ (blockAbsent s (regPlace r).block d = true)) .east .east (regAddr .LKE_CFG .east 0) 0 .LKE_CFG 7 none (portUp0 { live .serve with dev := { (live .serve).dev with part := .km1622 } }) := by
  decide +kernel

/-! ### PoisonIsWrittenIntoTheCheckSymbols -/

theorem test_PoisonIsWrittenIntoTheCheckSymbols_1 : (fun (h : Nat) (l : Line) (w : Nat) => (w < 8)) 9 5 3 := by
  decide +kernel

/-! ### TheWordCodeKeepsItsAssurances -/

theorem test_TheWordCodeKeepsItsAssurances_1 : (fun (h : Nat) (l : Line) (w : Nat) => (w < 8)) 9 5 3 := by
  decide +kernel

theorem test_TheWordCodeKeepsItsAssurances_2 : (fun (h : Nat) (l : Line) (w : Nat) (i : Nat) (e : Byte) => (w < 8) ∧ (i < 11) ∧ (e ≠ 0)) 9 5 3 10 0x40 := by
  decide +kernel

theorem test_TheWordCodeKeepsItsAssurances_3 : (fun (h : Nat) (l : Line) (w : Nat) (i j : Nat) (e g : Byte) => (w < 8) ∧ (i < j) ∧ (j < 11) ∧ (e ≠ 0) ∧ (g ≠ 0)) 9 5 3 2 10 0x40 1 := by
  decide +kernel

theorem test_TheWordCodeKeepsItsAssurances_4 : (fun (h : Nat) (l : Line) (w : Nat) (a : Nat) (x : Byte) => (w < 8) ∧ (a < 11)) 9 5 3 2 0x9C := by
  decide +kernel

theorem test_TheWordCodeKeepsItsAssurances_5 : (fun (h : Nat) (l : Line) (w : Nat) (a i : Nat) (x e : Byte) => (w < 8) ∧ (a < 11) ∧ (i < 11) ∧ (i ≠ a) ∧ (e ≠ 0)) 9 5 3 2 5 0x9C 0x40 := by
  decide +kernel

theorem test_TheWordCodeKeepsItsAssurances_6 : (fun (h : Nat) (l : Line) (w : Nat) (k a : Nat) (x : Byte) => (w < 8) ∧ (a < 11) ∧ (foldV0 k w ≠ foldV0 h w) ∧ (foldV1 k = foldV1 h)) 0 5 3 3 2 7 := by
  decide +kernel

theorem test_TheWordCodeKeepsItsAssurances_7 : (fun (h : Nat) (l : Line) (w : Nat) (k a : Nat) (x : Byte) => (w < 8) ∧ (a < 11) ∧ (foldV0 k w = foldV0 h w) ∧ (foldV1 k ≠ foldV1 h)) 0 5 3 262144 2 7 := by
  decide +kernel

theorem test_TheWordCodeKeepsItsAssurances_8 : (fun (h : Nat) (l : Line) (w : Nat) (k : Nat) => (w < 8) ∧ (foldV0 k w ≠ foldV0 h w) ∧ (foldV1 k ≠ foldV1 h)) 0 5 3 262147 := by
  decide +kernel

/-! ### ACodedPageDecodesToItself -/

theorem test_ACodedPageDecodesToItself_1 : (fun (p : List Line) (i : Nat) => (p.length = 64) ∧ (pageValue p = none) ∧ ((codeLines p [] 32).2 ≤ 2048) ∧ (i < 64)) ((5 : Line) :: List.replicate 63 0) 0 := by
  decide +kernel

end Sys2Proof.Tests
end

section
/-!
PROOF. The word code's poison pattern (chapter 4, R91 to R95): where the bytes, the words and the symbols of a stored line
stand, and what an encoded word holds, with and without poison.
-/

namespace Sys2Proof.Machine

/-! ### Little-endian bytes -/

/-- Byte i of the number that bytes spell; past their end it is zero. -/
theorem fromLe_byte (bs : List Byte) (i : Nat) : fromLe bs / 2 ^ (8 * i) % 2 ^ 8 = (bs.getD i 0).toNat := by
  induction bs generalizing i with
  | nil => simp [fromLe]
  | cons b bs ih =>
    have hb : b.toNat < 256 := b.isLt
    cases i with
    | zero =>
      simp only [fromLe, List.getD_cons_zero]
      omega
    | succ i =>
      have hrest : fromLe (b :: bs) / 2 ^ (8 * (i + 1)) = fromLe bs / 2 ^ (8 * i) := by
        have hhead : (b.toNat + 256 * fromLe bs) / 2 ^ 8 = fromLe bs := by omega
        rw [fromLe, Nat.mul_succ, Nat.add_comm (8 * i) 8, Nat.pow_add, ← Nat.div_div_eq_div_mul, hhead]
      rw [hrest, ih, List.getD_cons_succ]

/-! ### The words and the symbols of a stored line -/

/-- Symbol i of a packed word is the i-th of the eleven symbols given. -/
theorem packWord_byte (c : List Byte) {i : Nat} (hi : i < 11) : (packWord c).extractLsb' (8 * i) 8 = c.getD i 0 := by
  apply BitVec.eq_of_toNat_eq
  have hwidth : fromLe (c.take 11) % 2 ^ 88 / 2 ^ (8 * i) % 2 ^ 8 = fromLe (c.take 11) / 2 ^ (8 * i) % 2 ^ 8 := by
    interval_cases i <;> omega
  have htake : (c.take 11).getD i 0 = c.getD i 0 := by
    simp [List.getD_eq_getElem?_getD, hi]
  rw [packWord, BitVec.extractLsb'_toNat, BitVec.toNat_ofNat, Nat.shiftRight_eq_div_pow, hwidth, fromLe_byte, htake]

/-- Bit b of the first n words laid one after the other. -/
theorem getLsbD_packFirst (ws : List (BitVec 88)) (n b : Nat) (hb : b < 704) :
    ((List.range n).foldl (fun acc k => acc ||| ((ws.getD k 0).zeroExtend 704 <<< (88 * k))) (0 : Stored)).getLsbD b =
      (decide (b < 88 * n) && (ws.getD (b / 88) 0).getLsbD (b % 88)) := by
  induction n with
  | zero => simp
  | succ n ih =>
    rw [List.range_succ, List.foldl_append, List.foldl_cons, List.foldl_nil, BitVec.getLsbD_or, ih,
      BitVec.getLsbD_shiftLeft, BitVec.zeroExtend, BitVec.getLsbD_setWidth]
    obtain hlt | hin | hge : b < 88 * n ∨ (b / 88 = n ∧ b % 88 = b - 88 * n ∧ 88 * n ≤ b ∧ b < 88 * (n + 1)) ∨
        88 * (n + 1) ≤ b := by omega
    · simp [hlt, show b < 88 * (n + 1) by omega]
    · obtain ⟨hdiv, hmod, hle, hnext⟩ := hin
      simp [hdiv, hmod, hnext, hb, Nat.not_lt.mpr hle, show b - 88 * n < 704 by omega]
    · have hout : (ws.getD n 0).getLsbD (b - 88 * n) = false := BitVec.getLsbD_of_ge _ _ (by omega)
      rw [hout]
      simp [show ¬ b < 88 * n by omega, show ¬ b < 88 * (n + 1) by omega]

/-- A packed line holds the words given. -/
theorem wordOf_packLine (ws : List (BitVec 88)) {k : Nat} (hk : k < 8) : wordOf (packLine ws) k = ws.getD k 0 := by
  apply BitVec.eq_of_getLsbD_eq
  intro b hb
  have hdiv : (88 * k + b) / 88 = k := by omega
  have hmod : (88 * k + b) % 88 = b := by omega
  rw [wordOf, packLine, BitVec.getLsbD_extractLsb', getLsbD_packFirst ws 8 (88 * k + b) (by omega), hdiv, hmod]
  simp [hb, show 88 * k + b < 88 * 8 by omega]

/-- A symbol of a stored line is that symbol of its word. -/
theorem sym_eq_wordOf (st : Stored) (k : Nat) {i : Nat} (hi : i < 11) : sym st k i = (wordOf st k).extractLsb' (8 * i) 8 := by
  apply BitVec.eq_of_getLsbD_eq
  intro b hb
  simp [sym, wordOf, hb, show 8 * i + b < 88 by omega, Nat.add_assoc]

/-! ### What an encoded line holds (R94, R95) -/

/-- Word w of a line encoded with no injection is the encoding of its bytes with the fold symbols of the home address. -/
theorem wordOf_encodeLine (h : Nat) (l : Line) (poison : Bool) {w : Nat} (hw : w < 8) :
    wordOf (encodeLine h l poison none) w = encodeWordWith (foldV0 h w) (foldV1 h) (lineWord l w) poison := by
  rw [encodeLine, wordOf_packLine _ hw]
  simp [List.getD_eq_getElem?_getD, hw]

/-- The check symbols of a word before poison: those of its data symbols and its two fold symbols (R94). -/
def cleanChecks (v0 v1 : Byte) (data : List Byte) : Byte × Byte × Byte :=
  let ps := (data.zipIdx.map (fun p => (p.2, p.1))) ++ [(11, v0), (12, v1)]
  checkSyms (synSum 0 ps) (synSum 1 ps) (synSum 2 ps)

/-- The poison pattern of R95, for c8, c9 and c10. -/
def poisonPattern : List Byte := [0xC6, 0xA5, 0x63]

/-- The check symbols as they are stored: under poison the pattern is XORed into them (R95). -/
def storedChecks (c : Byte × Byte × Byte) : Bool → List Byte
  | false => [c.1, c.2.1, c.2.2]
  | true => [c.1 ^^^ 0xC6, c.2.1 ^^^ 0xA5, c.2.2 ^^^ 0x63]

/-- An encoded word is its data symbols followed by its check symbols as they are stored. -/
theorem encodeWordWith_eq (v0 v1 : Byte) (data : List Byte) (poison : Bool) :
    encodeWordWith v0 v1 data poison = packWord (data ++ storedChecks (cleanChecks v0 v1 data) poison) := by
  cases poison <;> rfl

@[simp] theorem lineWord_length (l : Line) (w : Nat) : (lineWord l w).length = 8 := by
  simp [lineWord]

/-- A symbol of an encoded line is read off its data symbols and its stored check symbols. -/
theorem sym_encodeLine (h : Nat) (l : Line) (poison : Bool) {w i : Nat} (hw : w < 8) (hi : i < 11) :
    sym (encodeLine h l poison none) w i =
      (lineWord l w ++ storedChecks (cleanChecks (foldV0 h w) (foldV1 h) (lineWord l w)) poison).getD i 0 := by
  rw [sym_eq_wordOf _ _ hi, wordOf_encodeLine h l poison hw, encodeWordWith_eq, packWord_byte _ hi]

/-- The data symbols are stored as supplied, poisoned or not. -/
theorem sym_encodeLine_data (h : Nat) (l : Line) (poison : Bool) {w i : Nat} (hw : w < 8) (hi : i < 8) :
    sym (encodeLine h l poison none) w i = lineByte l (8 * w + i) := by
  rw [sym_encodeLine h l poison hw (by omega), List.getD_append _ _ _ _ (by simpa using hi)]
  simp [lineWord, List.getD_eq_getElem?_getD, hi]

/-- Symbol 8 + j is the j-th stored check symbol. -/
theorem sym_encodeLine_check (h : Nat) (l : Line) (poison : Bool) {w j : Nat} (hw : w < 8) (hj : j < 3) :
    sym (encodeLine h l poison none) w (8 + j) =
      (storedChecks (cleanChecks (foldV0 h w) (foldV1 h) (lineWord l w)) poison).getD j 0 := by
  rw [sym_encodeLine h l poison hw (by omega), List.getD_append_right _ _ _ _ (by simp)]
  simp

/-- Poison XORs check symbol j with the j-th byte of the pattern. -/
theorem storedChecks_true (c : Byte × Byte × Byte) {j : Nat} (hj : j < 3) :
    (storedChecks c true).getD j 0 = (storedChecks c false).getD j 0 ^^^ poisonPattern.getD j 0 := by
  interval_cases j <;> rfl

/-- The poisoned and the clean encoding of a line differ in check symbol j of each word by the j-th byte of the pattern. -/
theorem sym_encodeLine_poison (h : Nat) (l : Line) {w j : Nat} (hw : w < 8) (hj : j < 3) :
    sym (encodeLine h l true none) w (8 + j) =
      sym (encodeLine h l false none) w (8 + j) ^^^ poisonPattern.getD j 0 := by
  rw [sym_encodeLine_check h l true hw hj, sym_encodeLine_check h l false hw hj, storedChecks_true _ hj]

/-- Settles O58: the check symbols differ by the poison pattern, and the data symbols of both encodings are the line's bytes. -/
theorem poisonIsWrittenIntoTheCheckSymbols : Obligations.PoisonIsWrittenIntoTheCheckSymbols := by
  unfold Obligations.PoisonIsWrittenIntoTheCheckSymbols
  intro h l w hw
  refine ⟨?_, ?_, ?_, fun i hi => ⟨sym_encodeLine_data h l true hw hi, sym_encodeLine_data h l false hw hi⟩⟩
  · exact sym_encodeLine_poison h l (j := 0) hw (by decide)
  · exact sym_encodeLine_poison h l (j := 1) hw (by decide)
  · exact sym_encodeLine_poison h l (j := 2) hw (by decide)

end Sys2Proof.Machine
end

section
/-!
PROOF. Absent units (chapter 20, R439): which blocks a part lacks, what a read of an absent block returns, and what a write to
one goes through: the port, the access size, and the verdict of Table 20.4.
-/

namespace Sys2Proof.Machine

/-! ### Which blocks a part lacks -/

/-- The units that a part lacks on every die (R439); the West window of single-die parts is apart, in `blockAbsent_iff`. -/
def LacksUnit (p : Part) (b : RegBlock) : Prop :=
  (partDual p = false ∧ b = .PSG) ∨ ((p = .km1622 ∨ p = .km1602) ∧ (b = .LKE ∨ b = .QUE)) ∨ (p = .km1602 ∧ b = .FPC)

theorem diePresent_eq_false_iff (s : State) (d : Die) : diePresent s d = false ↔ partDual s.dev.part = false ∧ d = .west := by
  cases d <;> simp [diePresent]

/-- No part lacks the HPC. -/
theorem not_lacksUnit_hpc (p : Part) : ¬ LacksUnit p .HPC := by
  simp [LacksUnit]

/-- A block is absent with its die, or as a unit that the part lacks: the latter is read off part by part and block by block. -/
theorem blockAbsent_iff (s : State) (b : RegBlock) (d : Die) :
    blockAbsent s b d = true ↔ (blockCommon b = false ∧ diePresent s d = false) ∨ LacksUnit s.dev.part b := by
  rw [blockAbsent.eq_def, Bool.or_eq_true]
  refine or_congr (by simp) ?_
  cases s.dev.part <;> cases b <;> simp [LacksUnit, partDual]

/-- The HPC block of a present die is present. -/
theorem blockAbsent_hpc_of_diePresent (s : State) (d : Die) (hd : diePresent s d = true) : blockAbsent s .HPC d = false := by
  rw [← Bool.not_eq_true, blockAbsent_iff]
  simp [hd, not_lacksUnit_hpc]

/-! ### Reads and writes of absent blocks -/

section
variable {a i : Nat} {r : RegName} {d : Die} {s : State}

theorem readWord_of_blockAbsent (hr : regAt a = some (r, d, i)) (hb : blockAbsent s (regPlace r).block d = true) :
    readWord s a = 0 := by
  simp [readWord, hr, hb]

/-- Absence comes before every other row of the verdict: before the die's reachability, the mode and the owner's session. -/
theorem verdict_of_blockAbsent {b : RegBlock} (hb : blockAbsent s b d = true) (session : Bool) : verdict s b d session = .ignore := by
  simp [verdict, hb]

theorem writeWord_of_blockAbsent (hr : regAt a = some (r, d, i)) (hb : blockAbsent s (regPlace r).block d = true) (v : Nat)
    (sess : Option Nat) : writeWord a v sess s = s := by
  simp [writeWord, hr, verdict_of_blockAbsent hb, countRefused]

end

/-- A write that its port takes now, and that no Passage reset holds, is carried out at once. -/
theorem barStore_eq_barNow {p : Die} {a : Nat} {s : State} (hp : portAlive s p = true)
    (hn : (s.psg.resetting && (barDie s a != p || s.psg.barHeld.any (fun x => x.port == p))) = false) (v : BitVec 64) (size : Nat)
    (sess : Option Nat) : barStore p a v size sess s = barNow p a v size sess s := by
  simp only [barStore, hp, hn, Bool.true_eq_false, Bool.false_eq_true, if_false]

/-- An aligned write of 4 bytes is the write of one word. -/
theorem barNow_word {a : Nat} (ha : a % 4 = 0) (p : Die) (v : BitVec 64) (sess : Option Nat) (s : State) :
    barNow p a v 4 sess s = writeWord a (fld v.toNat 0 32) sess s := by
  simp [barNow, ha]

/-- REGISTER_WRITE is the store at its port and the end of the step. -/
theorem exec_registerWrite (p : Die) (a : Nat) (v : BitVec 64) (size : Nat) (sess : Option Nat) (s : State) :
    exec (.registerWrite p a v size sess) s = .next (settle (barStore p a v size sess s)) := rfl

/-- Settles O57: absence by die or by unit, and a word write to an absent block that the verdict ignores. -/
theorem absentUnitsReadZeroAndIgnoreWrites : Obligations.AbsentUnitsReadZeroAndIgnoreWrites := by
  unfold Obligations.AbsentUnitsReadZeroAndIgnoreWrites
  refine ⟨fun b d s => ?_, fun d s => blockAbsent_hpc_of_diePresent s d, fun a i r d s => readWord_of_blockAbsent, ?_⟩
  · rw [blockAbsent_iff, diePresent_eq_false_iff, LacksUnit]
    tauto
  · intro p d a i r v sess s hidle hp hn ha hr hb
    rw [exec_registerWrite, barStore_eq_barNow hp hn, barNow_word ha, writeWord_of_blockAbsent hr hb, settle_idle s hidle]

end Sys2Proof.Machine
end
